-- ==== Sys2Proof/Word.lean ====
section
/-! DEFINITION. Bytes, little-endian numbers and the plainest arithmetic on them. Bit 0 is the least
significant bit (R4); multi-byte fields of records, headers and payloads are little-endian (R5). -/

namespace Sys2Proof

abbrev Byte := BitVec 8

/-- The number a little-endian byte string spells (R5). -/
def leNat : List Byte → Nat
  | [] => 0
  | b :: bs => b.toNat + 256 * leNat bs

/-- The `k` low bytes of `n`, least significant first (R5). -/
def leBytes : Nat → Nat → List Byte
  | 0, _ => []
  | k + 1, n => BitVec.ofNat 8 n :: leBytes k (n / 256)

/-- Bits `lo + w - 1` to `lo` of `n` (R4). -/
def bits (n lo w : Nat) : Nat := n / 2 ^ lo % 2 ^ w

/-- Bit `i` of `n`. -/
def bit (n i : Nat) : Bool := n / 2 ^ i % 2 == 1

/-- `n` with bits `lo + w - 1` to `lo` replaced by the low bits of `v`. -/
def setBits (n lo w v : Nat) : Nat :=
  n % 2 ^ lo + (v % 2 ^ w) * 2 ^ lo + n / 2 ^ (lo + w) * 2 ^ (lo + w)

/-- A number below `2 ^ w` read as two's complement. -/
def toSigned (w n : Nat) : Int := if n % 2 ^ w < 2 ^ (w - 1) then (n % 2 ^ w : Nat) else (n % 2 ^ w : Nat) - (2 ^ w : Nat)

/-- The two's complement bits of `i` at width `w`. -/
def ofSigned (w : Nat) (i : Int) : Nat := (i % (2 ^ w : Nat)).toNat

/-- `i` limited to `lo` and `hi`. -/
def clampInt (lo hi i : Int) : Int := if i < lo then lo else if hi < i then hi else i

def boolNat (b : Bool) : Nat := if b then 1 else 0

def ceilDiv (a b : Nat) : Nat := (a + b - 1) / b

/-- `n` rounded up to a multiple of `k`. -/
def roundUp (n k : Nat) : Nat := ceilDiv n k * k

/-- The bytes `off` to `off + n - 1` of a record as a number; missing bytes count as 0. -/
def fieldAt (bs : List Byte) (off n : Nat) : Nat := leNat ((bs.drop off).take n)

/-- A list cut or filled with zero bytes to length `n`. -/
def padTo (n : Nat) (bs : List Byte) : List Byte := bs.take n ++ List.replicate (n - bs.length) 0

/-- `xs` in parts of `n` elements, the last part shorter; `fuel` bounds the number of parts. -/
def chunksFuel {α : Type} (n : Nat) : Nat → List α → List (List α)
  | 0, _ => []
  | _ + 1, [] => []
  | k + 1, xs => xs.take n :: chunksFuel n k (xs.drop n)

def chunks {α : Type} (n : Nat) (xs : List α) : List (List α) := chunksFuel n xs.length xs

/-- Insertion of `x` before the first element that `lt` places after it. -/
def insertBy {α : Type} (lt : α → α → Bool) (x : α) : List α → List α
  | [] => [x]
  | y :: ys => if lt x y then x :: y :: ys else y :: insertBy lt x ys

/-- Stable sort by insertion: equal elements keep their order. -/
def sortBy {α : Type} (lt : α → α → Bool) (xs : List α) : List α :=
  xs.foldl (fun acc x => insertBy lt x acc) []

/-- The element under key `k` of an association list, else `d`. -/
def assocD {α : Type} (d : α) (k : Nat) : List (Nat × α) → α
  | [] => d
  | (j, v) :: rest => if j = k then v else assocD d k rest

/-- The association list with `k` bound to `v`; keys stay rising when they were. -/
def assocPut {α : Type} (k : Nat) (v : α) : List (Nat × α) → List (Nat × α)
  | [] => [(k, v)]
  | (j, w) :: rest => if k < j then (k, v) :: (j, w) :: rest else if j = k then (k, v) :: rest else (j, w) :: assocPut k v rest

end Sys2Proof
end

