-- ==== Sys2Proof/Syntax.lean ====
section
/-! DEFINITION. The commands of the block, one constructor for each row of spec/opcode_table.json, and the
types of their operands. Step commands carry the chamber, the descriptor's common bytes (R46) and the type's own
parameters; events carry what the world outside the block supplies. -/

namespace Sys2Proof

/-- Bytes 0 to 15 of a step descriptor, without its TYPE (R46). -/
structure Hdr where
  flags : Nat
  slot : Nat
  budget : Nat
  deadline : Nat
  depends : Nat
  tenant : Nat
  stage : Nat
  index : Nat
  expiry : Nat
  deriving DecidableEq, Repr

/-- A model group as the plan names it (R105): the chamber of this module that gathers its batch, none for a group of another
module; the positions of a batch, T_b; and the model's L_max (R102). -/
structure ModelGroup where
  chamber : Option Nat
  tb : Nat
  lmax : Nat
  deriving DecidableEq, Repr

/-- Where the plan has the record of an admitted query or operation written (R31, R67): its place in the admitted order, and the
column offset in a chamber's ingress area. -/
structure IngressPlace where
  op : Bool
  ord : Nat
  chamber : Nat
  off : Nat
  deriving DecidableEq, Repr

/-- What the plan says of a cut-off: its model groups in their fixed order (R105), and where it has the cohort's records written (R67). -/
structure CutoffPlan where
  groups : List ModelGroup
  places : List IngressPlace
  deriving DecidableEq, Repr

/-- The RECV that completes, by its INDEX, and whether its message carries the records of another module's cohort (R342, R345). -/
structure RecvEnd where
  idx : Nat
  cohort : Bool
  deriving DecidableEq, Repr

/-- How the build of a hot index goes (R226): it is done, the copy of a row fails its check, or it is not done when the next falls due. -/
inductive HotBuild where
  | built
  | failed (row : Nat)
  | late
  deriving DecidableEq, Repr

/-- A read of one register, of 4 bytes, or of the two registers of a 64-bit quantity at once, of 8 (R6). -/
structure RegRead where
  off : Nat
  size : Nat
  deriving DecidableEq, Repr

/-- Where the plan has a chamber's probe list, and the filter descriptors its entries name (R139, R177): column offsets. -/
structure ProbePlace where
  chamber : Nat
  list : Nat
  filters : Nat
  deriving DecidableEq, Repr

/-- A filter set that comes into use, with the bases that Lantern gives it (R176). -/
structure SetBases where
  tenant : Nat
  set : Nat
  bitmap : Nat
  summary : Nat
  deriving DecidableEq, Repr

/-- What the encoder of flowstone and of insert staging works from (R182, R193): the metric of the index, as R345 codes it; where the BF16 centroids
lie, as (first list, device address) of consecutive ones; and the row table of the full vectors. -/
structure Encoding where
  metric : Nat
  centroids : List (Nat × Nat)
  table : Option Nat
  deriving DecidableEq, Repr

/-- Where the lists of a sample scan go (R201): the chamber, the store offset of the first, and K. -/
structure ExactPlace where
  chamber : Nat
  off : Nat
  k : Nat
  deriving DecidableEq, Repr

/-- An entry of the plan's standby map (R455): the steps `first` to `last` of a chamber stand for a member. -/
structure Standby where
  chamber : Nat
  first : Nat
  last : Nat
  member : Nat
  deriving DecidableEq, Repr

/-- What the plan says of a slot beside its descriptors. Its steps' work for the index: how many operations they stage (R182), the filter sets that come into use (R176), the
probe lists of the first and of the widened look with the table of each query ordinal (R197, R198), and the sample scan (R201). And the plan's standby map (R455). -/
structure IndexWork where
  staged : Nat
  code : Encoding
  sets : List SetBases
  first : List ProbePlace
  wide : List ProbePlace
  tids : List (Nat × Nat)
  exact : Option ExactPlace
  standby : List Standby
  deriving DecidableEq, Repr

/-- A slot whose steps do nothing for the index, of a plan without standby sections. -/
def IndexWork.none : IndexWork := ⟨0, ⟨0, [], Option.none⟩, [], [], [], [], Option.none, []⟩

/-- Parameters of SCAN (R140). -/
structure ScanP where
  probeAddr : Nat
  probeFirst : Nat
  probeLimit : Nat
  fmt : Nat
  metric : Nat
  batchMax : Nat
  parts : Nat
  recAddr : Nat
  recCap : Nat
  runAddr : Nat
  runCap : Nat
  nomBpc : Nat
  deriving DecidableEq, Repr

/-- Parameters of LOOKUP BUILD (R134). -/
structure BuildP where
  tidFirst : Nat
  ntables : Nat
  metric : Nat
  width : Nat
  qprec : Nat
  pageFirst : Nat
  quantAddr : Nat
  vecAddr : Nat
  deriving DecidableEq, Repr

/-- Parameters of LOOKUP SCORE (R134). -/
structure ScoreP where
  tid : Nat
  codeAddr : Nat
  idAddr : Nat
  outAddr : Nat
  count : Nat
  aux : Nat
  deriving DecidableEq, Repr

/-- Parameters of LOOKUP SAVE (R134). -/
structure SaveP where
  tid : Nat
  imgAddr : Nat
  deriving DecidableEq, Repr

/-- Parameters of LOOKUP LOAD (R134). -/
structure LoadP where
  tid : Nat
  pageFirst : Nat
  imgAddr : Nat
  deriving DecidableEq, Repr

/-- Parameters of MATMUL (R87). -/
structure MatmulP where
  aAddr : Nat
  bAddr : Nat
  cAddr : Nat
  m : Nat
  n : Nat
  k : Nat
  fmtA : Nat
  fmtB : Nat
  fmtOut : Nat
  flags : Nat
  aScale : Nat
  bScale : Nat
  outScale : Nat
  outScaleAddr : Nat
  deriving DecidableEq, Repr

/-- Parameters of VECOP (R91), without its OP. -/
structure VecopP where
  dst : Nat
  srcA : Nat
  srcB : Nat
  srcC : Nat
  etype : Nat
  count : Nat
  scalar : Nat
  addr : Nat
  deriving DecidableEq, Repr

/-- Parameters of ACTIVATE (R92), without its FUNC. -/
structure ActP where
  dst : Nat
  src : Nat
  count : Nat
  p0 : Nat
  p1 : Nat
  deriving DecidableEq, Repr

/-- Parameters of CONVERT (R93). -/
structure ConvertP where
  fmtSrc : Nat
  fmtDst : Nat
  flags : Nat
  reg : Nat
  srcAddr : Nat
  dstAddr : Nat
  count : Nat
  srcScale : Nat
  dstScale : Nat
  preScale : Nat
  deriving DecidableEq, Repr

/-- Parameters of SELECT (R160), without its SOURCE. -/
structure SelectP where
  qcap : Nat
  inAddr : Nat
  inCount : Nat
  runAddr : Nat
  runCount : Nat
  probeAddr : Nat
  outAddr : Nat
  k : Nat
  scratch : Nat
  deriving DecidableEq, Repr

/-- Parameters of MERGE (R163). -/
structure MergeP where
  nin : Nat
  tableAddr : Nat
  outAddr : Nat
  k : Nat
  qcount : Nat
  scratch : Nat
  scratchCap : Nat
  deriving DecidableEq, Repr

/-- Parameters of GATHER (R216), without its OP. -/
structure GatherP where
  table : Nat
  mode : Nat
  idxAddr : Nat
  count : Nat
  outAddr : Nat
  refAddr : Nat
  statusAddr : Nat
  outCap : Nat
  boxAddr : Nat
  snapAddr : Nat
  rowUnits : Nat
  pairCap : Nat
  deriving DecidableEq, Repr

/-- Parameters of SCATTER (R220). -/
structure ScatterP where
  table : Nat
  idxAddr : Nat
  count : Nat
  srcAddr : Nat
  ordAddr : Nat
  rowUnits : Nat
  deriving DecidableEq, Repr

/-- Parameters of SEND (R339). -/
structure SendP where
  kind : Nat
  tag : Nat
  peer : Nat
  dstChamber : Nat
  srcAddr : Nat
  length : Nat
  deriving DecidableEq, Repr

/-- Parameters of RECV (R340). -/
structure RecvP where
  kind : Nat
  tag : Nat
  peer : Nat
  srcChamber : Nat
  dstAddr : Nat
  cap : Nat
  resultAddr : Nat
  entryAddr : Nat
  deriving DecidableEq, Repr

/-- Parameters of PIM RUN (R269). -/
structure PimRunP where
  stack : Nat
  progAddr : Nat
  pairMask : Nat
  dieMask : Nat
  count : Nat
  row0 : Nat
  row1 : Nat
  row2 : Nat
  row3 : Nat
  deriving DecidableEq, Repr

/-- Parameters of PIM SEAL (R269). -/
structure PimSealP where
  stack : Nat
  rowFirst : Nat
  rowCount : Nat
  deriving DecidableEq, Repr

/-- Parameters of FLASHREAD (R307). -/
structure FlashReadP where
  mode : Nat
  listAddr : Nat
  count : Nat
  dstAddr : Nat
  dstCap : Nat
  statusAddr : Nat
  deriving DecidableEq, Repr

/-- Parameters of FLASHWRITE (R310). -/
structure FlashWriteP where
  srcAddr : Nat
  lbn : Nat
  page : Nat
  pages : Nat
  deriving DecidableEq, Repr

/-- Parameters of CHECK RANGE (R323). -/
structure CheckRangeP where
  poly : Nat
  tap : Nat
  fromTap : Nat
  addr : Nat
  length : Nat
  expectAddr : Nat
  resultAddr : Nat
  deriving DecidableEq, Repr

/-- Parameters of CHECK TAPVAL (R323). -/
structure CheckTapvalP where
  poly : Nat
  tap : Nat
  tag : Nat
  expectAddr : Nat
  resultAddr : Nat
  deriving DecidableEq, Repr

/-- Parameters of CHECK WEIGHT (R323). -/
structure CheckWeightP where
  poly : Nat
  addr : Nat
  byteLength : Nat
  rows : Nat
  cols : Nat
  rank : Nat
  fmtW : Nat
  fmtF : Nat
  uFirst : Nat
  uCount : Nat
  vAll : Nat
  resultAddr : Nat
  deriving DecidableEq, Repr

/-- Parameters of BARRIER-FREE NOTE (R58). -/
structure NoteP where
  span : Nat
  kinds : Nat
  currentPct : Nat
  deriving DecidableEq, Repr

/-- Parameters of SUMP (R56). -/
structure SumpP where
  maxEntries : Nat
  maxSlots : Nat
  keep : Nat
  deriving DecidableEq, Repr

/-- The operations of VECOP (R91), in code order from 0x01. -/
inductive VecOp where
  | vAdd | vSub | vMul | vFma | vFmas | vMax | vMin | vAbs | vNeg | vAnd | vOr | vXor | vShl | vShra | vSumr | vMaxr | vMinr | vLoad | vStore | vBroadcast | vCmpgt | vSelect
  deriving DecidableEq, Repr

/-- The functions of ACTIVATE (R92), in code order from 0x01. -/
inductive ActFn where
  | relu | clamp | sign | gelu | silu | sigmoid | tanh | exp | recip | rsqrt
  deriving DecidableEq, Repr

/-- The operations of GATHER (R216), in code order from 1. -/
inductive GatherOp where
  | fetch | split | serve | fill
  deriving DecidableEq, Repr

/-- A step's type with its own parameters (R48). -/
inductive Params where
  | scan (p : ScanP)
  | build (p : BuildP)
  | score (p : ScoreP)
  | save (p : SaveP)
  | load (p : LoadP)
  | matmul (p : MatmulP)
  | vecop (op : VecOp) (p : VecopP)
  | activate (op : ActFn) (p : ActP)
  | convert (p : ConvertP)
  | selectRecords (p : SelectP)
  | selectRuns (p : SelectP)
  | merge (p : MergeP)
  | gather (op : GatherOp) (p : GatherP)
  | scatter (p : ScatterP)
  | send (p : SendP)
  | recv (p : RecvP)
  | pimRun (p : PimRunP)
  | pimSeal (p : PimSealP)
  | flashRead (p : FlashReadP)
  | flashWrite (p : FlashWriteP)
  | checkRange (p : CheckRangeP)
  | checkTapval (p : CheckTapvalP)
  | checkWeight (p : CheckWeightP)
  | note (p : NoteP)
  | sump (p : SumpP)
  deriving DecidableEq, Repr

/-- A whole step descriptor (R46). -/
structure Step where
  hdr : Hdr
  params : Params
  deriving DecidableEq, Repr


/-- What the decoding of one codeword of a flash read gives: the retry reads it took, the bits corrected, whether they
exceed RELOCATE_PCT percent of the code's capability, and whether it decoded at last (R300 to R302). -/
structure Codeword where
  retries : Nat
  corrected : Nat
  heavy : Bool
  ok : Bool
  deriving DecidableEq, Repr

/-- What a scrub read of a strata atom meets (R511). -/
inductive AtomRead where | clean | corrected | bad
  deriving DecidableEq, Repr

/-- An error that the reads of a step meet in the hardware: what the world outside the block supplies to a step
beside its descriptor (R24, R94, R100, R145, R258, R511). -/
inductive Upset where
  /-- A single-bit error of the chamber store, corrected. -/
  | storeCorrected
  /-- An uncorrectable error at a store offset. -/
  | storeBad (off : Nat)
  /-- A parity error of a register element. -/
  | regBad (v e : Nat)
  /-- A parity error in a 32-bit word of the LUT store. -/
  | lutBad (word : Nat)
  /-- An uncorrectable strata or stack read. -/
  | devBad (addr : Nat)
  /-- A corrected strata or stack read; `outer`: by a stack's outer code, else by its inner code. -/
  | devCorrected (addr : Nat) (outer : Bool)
  /-- A home-map entry that fails its parity. -/
  | mapBad (granule : Nat)
  /-- A matrix tile whose residue mismatches, and whether the recomputed tile mismatches again. -/
  | tileBad (tile : Nat) (again : Bool)
  /-- A check-value unit that computes a wrong value for the step's next transfer through its tap. -/
  | cvuBad (unit value : Nat)
  /-- A plan read meets a LUN busy with an operation that was suspended `times` times before. -/
  | suspend (times : Nat)
  deriving DecidableEq, Repr


/-- What the end of a step brings beside its INDEX: TIME, the CORE cycles from issue to completion and those lost to bank conflicts, whether
a MERGE is the cohort's last on this module, and the candidates whose score was replaced by one from a fallback table, by their scan score, or
for want of a ranker (R51, R95, R251, R386, R391). -/
structure StepEnd where
  t : Nat
  cycles : Nat
  wait : Nat
  final : Bool
  sq8 : Nat
  pq : Nat
  fallback : Nat
  deriving DecidableEq, Repr

/-- What a boundary meets beside the block's own state: AON_RTC; the pairs of CRC values of the write sets that Lantern's core pairs
committed, as (pair, value, value) (R449); the bytes that Lantern writes over the referrers of lost data, as (device address, bytes) (R253); the saved
images of tables to be rewritten, as (chamber, TID, column offset) (R447); and the steps of the epoch that ends which complete in the first microsecond, as
(chamber, INDEX, origin epoch, end) (R36). -/
structure CairnIn where
  rtc : Nat
  commits : List (Nat × Nat × Nat)
  refs : List (Nat × List Byte)
  images : List (Nat × Nat × Nat)
  ends : List (Nat × Nat × Nat × StepEnd)
  deriving DecidableEq, Repr

/-- What an entry to TRAINING meets in the hardware (R288, R322): the check-value units, and the chambers whose checkers
fail their self-test, each with the POLY that gives a wrong value, and for each flash channel the rate it trains at (0 to 3), 4 for none, or 5 for a geometry that disagrees. -/
structure Training where
  units : List (Nat × Nat)
  checkers : List (Nat × Nat)
  channels : List Nat
  deriving DecidableEq, Repr

/-- What a start meets outside the block (R463 to R479): the size of the NOR device found, as a power of two (none: none found); whether
the device region reads; the step at which the sequence stops for good, if any; the serial and key in the device certificate, and whether the vendor
signed it; the identity keys that helper data A and B give; and what TRAINING meets: blocks bad from the factory, as (channel, block), the addresses
Lantern gives the flash map and block table, pages adopted and torn. -/
structure BootEnv where
  size : Option Nat
  region : Bool
  hang : Option Nat
  serial : Nat
  certKey : List Byte
  certOk : Bool
  keyA : List Byte
  keyB : List Byte
  train : Training
  bad : List (Nat × Nat)
  mapBase : Nat
  pbtBase : Nat
  adopted : Nat
  torn : Nat
  deriving DecidableEq, Repr

/-- What a 1 µs power sample meets: TIME, the input in mV and 0.01 A, issue cycles gated since the last sample, the chambers whose filler may
change in it within the slope, and those that scrub, flowstone steps and dummy MACs could fill. -/
structure PowerIn where
  t : Nat
  vin : Nat
  iin : Nat
  gated : Nat
  room : Nat
  scrub : Nat
  flow : Nat
  dummy : Nat
  deriving DecidableEq, Repr

/-- How a DMA of the host controller fails: whether on the entry itself (or on a reply, where one is written), the host address, and the
TLP status (1 unsupported request, 4 completer abort, 8 poisoned). -/
structure DmaFail where
  entry : Bool
  addr : Nat
  status : Nat
  deriving DecidableEq, Repr

/-- A DMA: the IDE stream that carries it (0 the link stream, 1 to 4 selective ones, 5 none), and how it fails, if it does. -/
structure Dma where
  stream : Nat
  fail : Option DmaFail
  deriving DecidableEq, Repr

/-- What Lantern chooses for a bulk load: the destination where DEST is 0, the REFERRER of a new record, and whether plans or policy write
the datum (R237, R243, R404). -/
structure Place where
  dest : Nat
  referrer : Nat
  written : Bool
  deriving DecidableEq, Repr

/-- How a reliable message comes in: with a frame of a port, at TIME `t`, with the bytes of the frame but its FCS and whether that
holds; or it waits already, complete since a frame of another kind. -/
inductive Rx where
  | frame (p t : Nat) (fr : List Byte) (fcs : Bool)
  | waiting
  deriving DecidableEq, Repr

/-- How an SPDM request comes in: as a data object of the DOE mailbox, or over the fabric (R486). -/
inductive Via where
  | doe (object : List Byte)
  | fabric (r : Rx)
  deriving DecidableEq, Repr

/-- What a register write may start beside its field: TIME, what the training after a RESUME meets, and the data whose ranges failed retention. -/
structure WriteEnv where
  t : Nat
  train : Training
  lost : List Nat
  deriving DecidableEq, Repr

/-- The commands: one constructor for each row of the table of operations and events. -/
inductive Instr where
  /-- INPUT_VALID (R520): The 40 V input stays above 35.0 V for 10 ms, which starts the rail power-up sequence. -/
  | inputValid
  /-- RAIL_SEQUENCE_STEP (R521): The next row of the power-up sequence falls due and the regulator sequencer switches on the rails of that row. -/
  | railSequenceStep
  /-- RAIL_POWER_GOOD_MISS (R522): A rail misses power-good within 1 ms of its row, so the sequence stops and the rails are removed in reverse order. -/
  | railPowerGoodMiss (rail : Nat)
  /-- RAIL_POWER_GOOD_LOSS (R441): A rail loses power-good outside an operating-point step, so every rail but VAON is removed and the module enters SLEEP with cause rail fault. -/
  | railPowerGoodLoss (rail : Nat)
  /-- REFCLK_LOSS (R523): REFCLK_25 shows no edge for 1 µs outside SLEEP, which is treated as a rail fault. -/
  | refclkLoss
  /-- RESET_RELEASE (R463): The internal reset is released, and core 0 runs the mask ROM boot sequence that ends in TRAINING or RECOVERY. -/
  | resetRelease (b : BootEnv) (rtc t : Nat)
  /-- BOOT_TIMEOUT (R464): Step 10 has not been reached within 5 s of reset release, so BOOT ends in RECOVERY with BOOT_NVM_FAIL. -/
  | bootTimeout
  /-- TRAINING_COMPLETE (R480): Every stack, flash channel and enabled port has finished training, so the module enters READY. -/
  | trainingComplete (failed : List Nat)
  /-- TRAINING_TIMEOUT (R480): BT_TRAIN.TIMEOUT_MS elapses in TRAINING, so untrained units count as failed and the module enters READY. -/
  | trainingTimeout (failed : List Nat)
  /-- DRAIN_COMPLETE (R480): Every cohort admitted before DRAIN has left or aged out, so the generator stops and the module enters READY. -/
  | drainComplete
  /-- DRAIN (R480): The DRAIN state command takes the module from ACTIVE to DRAIN, after which stage 0 admits nothing. -/
  | drainCmd
  /-- RETAIN (R480): The RETAIN state command takes the module from READY to RETAIN: links go down, stacks self-refresh and strata are held at retention voltage. -/
  | retainCmd
  /-- RESUME (R480): The RESUME state command takes the module from RETAIN to TRAINING, which retrains the stacks, flash and fabric. -/
  | resumeCmd (t : Training) (lost : List Nat)
  /-- SLEEP (R480): The SLEEP state command takes the module to SLEEP in an orderly way, with a flash checkpoint when it leaves READY. -/
  | sleepCmd
  /-- RESET (R480): The RESET state command takes the module from any state but SLEEP to BOOT, and strata and stack contents are lost. -/
  | resetCmd
  /-- PERST_N_ASSERT (R480): PERST_N outside SLEEP resets only the host controller and the link. -/
  | perstNAssert
  /-- WAKE_N_WAKE (R526): WAKE_N is low for 4 samples in SLEEP with its WAKE bit set, so the module wakes. -/
  | wakeNWake (perst : Bool) (rtc : Nat)
  /-- PERST_N_WAKE (R526): A rising edge of PERST_N in SLEEP with WAKE bit 3 set wakes the module. -/
  | perstNWake (rtc : Nat)
  /-- COMPARATOR_WAKE (R436): In SLEEP, a comparator whose WAKE bit is set releases, and the module wakes. -/
  | comparatorWake (k rtc : Nat)
  /-- AON_CMP_VIN_TRIP (R436): The input voltage falls below the VIN level, so flash stops new programs, G goes to 63 and PWR_VIN_LOW is raised. -/
  | aonCmpVinTrip (vin t : Nat)
  /-- VIN_RECOVERY_TIMEOUT (R436): The input has not recovered within 50 µs of a VIN trip, so the module enters SLEEP with cause VIN. -/
  | vinRecoveryTimeout
  /-- AON_CMP_TEMP_TRIP (R436): The module thermistor rises above its level, which takes the module to SLEEP if TRIP_TEMP is set and otherwise raises PWR_AUX_EVENT. -/
  | aonCmpTempTrip (temp : Nat)
  /-- AON_CMP_AUX_TRIP (R436): AUX_SENSE crosses its level, which takes the module to SLEEP if TRIP_AUX is set and otherwise raises PWR_AUX_EVENT. -/
  | aonCmpAuxTrip (level : Nat)
  /-- POWER_SAMPLE (R417): Every 1 µs, the input voltage, current and power are sampled and the power controls are updated. -/
  | powerSample (x : PowerIn)
  /-- THERMAL_SAMPLE (R431): Every 1 µs, the thermal sensors are sampled, and warning, limit or trip actions are applied to each group. -/
  | thermalSample (j st r : List Int) (stuck : List (Nat × Nat))
  /-- DROOP_TRIP (R422): A droop detector trips, and the CORE clock is stretched by suppressing every second edge. -/
  | droopTrip
  /-- STRETCH_END (R422): Every detector has read clear for 8 cycles after at least 32 stretched cycles, so the stretch ends. -/
  | stretchEnd (edges : Nat)
  /-- OPP_STEP_DOWN_COMPLETE (R419): At 5.100 µs, a step down completes and PWR_STATUS.OPP is updated. -/
  | oppStepDownComplete (stuck : Option Nat)
  /-- OPP_STEP_UP_POWER_GOOD (R419): Power-good arrives during a step up, so the clock switches to the higher frequency and the step completes. -/
  | oppStepUpPowerGood
  /-- OPP_STEP_UP_ABANDON (R421): A step up has no power-good by 7.000 µs, so it is abandoned and PWR_STEP_FAIL is raised. -/
  | oppStepUpAbandon (rail : Nat)
  /-- EPOCH_BOUNDARY (R36): TIME reaches the next boundary, and the cairn actions run in their fixed order. -/
  | epochBoundary (x : CairnIn)
  /-- WEAR_CHECK (R297): At each cairn, or every 1 ms without epochs, each channel compares its erase-count spread with WEAR_SPREAD and may start one wear move. -/
  | wearCheck
  /-- CAIRN_OVERRUN (R37): A cairn action is unfinished at 9.500 µs, so slot 0 starts late and the epoch counts in LATE_EPOCHS. -/
  | cairnOverrun (excess : Nat)
  /-- PLAN_BANK_SWITCH (R43): At or after the armed switch epoch, the inactive bank becomes active if it is VALID and its coupled pair agrees. -/
  | planBankSwitch
  /-- SLOT_START (R49): A work slot begins, and the chamber sequencer issues its slot group in ascending INDEX order. -/
  | slotStart (m t : Nat) (work : IndexWork)
  /-- INGRESS_CUTOFF (R63): Slot INGRESS_CUTOFF starts, so the epoch's queries are sorted and admitted up to INGRESS_CAP, and any excess is carried. -/
  | ingressCutoff (sample : Bool) (plan : CutoffPlan)
  /-- EPOCH_SYNC_EDGE (R59): An active EPOCH_SYNC_IN edge is matched to the nearest boundary and, if accepted, changes the epoch length. -/
  | epochSyncEdge (t : Nat) (rising : Bool)
  /-- START_GENERATOR (R534): Writing 1 to EPC_CTRL.ENABLE in READY starts the epoch generator and the transition to ACTIVE, with a filler ramp. -/
  | startGenerator (t : Nat)
  /-- STOP_GENERATOR (R534): Writing 0 to EPC_CTRL.ENABLE commits a stop at the next boundary and returns the module to READY. -/
  | stopGenerator
  /-- PLAN_ARM (R43): Writing PLN_CTRL.ARM starts or ends an arming of the plan-bank switch. -/
  | planArm (v : Bool)
  /-- VERIFY (R42): PLN_LOAD.VERIFY starts the four checks on the inactive bank. -/
  | verify (bank : Nat)
  /-- PLAN_VERIFY_COMPLETE (R42): The checks on a bank finish, which sets its VALID bit or the status bit and fault of the first check that failed. -/
  | planVerifyComplete (bank : Nat)
  /-- INVALIDATE (R70): PLN_LOAD.INVALIDATE clears the VALID bit of the inactive bank. -/
  | invalidate (bank : Nat)
  /-- PLAN_BANK_WRITE (R42): A write to a bank area or header window clears that bank's VALID bit, and a write to the active bank is discarded with PLAN_WRITE_ACTIVE. -/
  | planBankWrite (bank : Nat) (chamber : Option Nat) (off : Nat) (bs : List Byte) (poison : Bool)
  /-- STEP_COMPLETE (R51): A step completes, and if it completes after its DEADLINE slot it is counted as a slot miss and the chamber becomes late. -/
  | stepComplete (c idx origin : Nat) (e : StepEnd)
  /-- SEQ_TIMEOUT (R101): A unit fails to stop within 1,024 cycles of an abandonment, and the chamber is reset at the next cairn. -/
  | seqTimeout (c unit' idx : Nat)
  /-- SUMP_ENTRY_EXPIRE (R54): At a cairn, a sump entry whose origin epoch plus EXPIRY is below the epoch number is removed with its dependants. -/
  | sumpEntryExpire (background : List (Nat × Nat × Nat))
  /-- SUMP (R56): A SUMP step runs queued sump entries in order within its span of the reserve slots. -/
  | sump (c : Nat) (h : Hdr) (p : SumpP) (us : List Upset)
  /-- BARRIER_FREE_NOTE (R58): A NOTE step completes at issue and marks its slots for filler of the kinds it allows. -/
  | barrierFreeNote (c : Nat) (h : Hdr) (p : NoteP) (us : List Upset)
  /-- SCAN (R141): A SCAN step looks up the codes of the probe entries' list parts in batches and writes records and runs. -/
  | scan (c : Nat) (h : Hdr) (p : ScanP) (us : List Upset)
  /-- LOOKUP_BUILD (R135): LOOKUP BUILD checks a quantiser descriptor and builds quantised distance tables into the LUT store. -/
  | lookupBuild (c : Nat) (h : Hdr) (p : BuildP) (us : List Upset)
  /-- LOOKUP_SCORE (R136): LOOKUP SCORE scores COUNT stored codes against one table and writes result records. -/
  | lookupScore (c : Nat) (h : Hdr) (p : ScoreP) (us : List Upset)
  /-- LOOKUP_SAVE (R137): LOOKUP SAVE writes one table to the strata as a table image. -/
  | lookupSave (c : Nat) (h : Hdr) (p : SaveP) (us : List Upset)
  /-- LOOKUP_LOAD (R137): LOOKUP LOAD reads a table image into the LUT store and sets its directory entry. -/
  | lookupLoad (c : Nat) (h : Hdr) (p : LoadP) (us : List Upset)
  /-- MATMUL (R84): MATMUL computes C = A × B in 64 × 64 tiles, with fixed-order accumulation and output conversion. -/
  | matmul (c : Nat) (h : Hdr) (p : MatmulP) (us : List Upset)
  /-- VECOP_ADD (R91): VECOP ADD writes a + b for each element. -/
  | vecopAdd (c : Nat) (h : Hdr) (p : VecopP) (us : List Upset)
  /-- VECOP_SUB (R91): VECOP SUB writes a − b for each element. -/
  | vecopSub (c : Nat) (h : Hdr) (p : VecopP) (us : List Upset)
  /-- VECOP_MUL (R91): VECOP MUL writes a × b for each element. -/
  | vecopMul (c : Nat) (h : Hdr) (p : VecopP) (us : List Upset)
  /-- VECOP_FMA (R91): VECOP FMA writes a × b + c for each element, with one rounding. -/
  | vecopFma (c : Nat) (h : Hdr) (p : VecopP) (us : List Upset)
  /-- VECOP_FMAS (R91): VECOP FMAS writes a × SCALAR + b for each element. -/
  | vecopFmas (c : Nat) (h : Hdr) (p : VecopP) (us : List Upset)
  /-- VECOP_MAX (R91): VECOP MAX writes max(a, b) for each element, propagating NaN. -/
  | vecopMax (c : Nat) (h : Hdr) (p : VecopP) (us : List Upset)
  /-- VECOP_MIN (R91): VECOP MIN writes min(a, b) for each element, propagating NaN. -/
  | vecopMin (c : Nat) (h : Hdr) (p : VecopP) (us : List Upset)
  /-- VECOP_ABS (R91): VECOP ABS writes |a| for each element. -/
  | vecopAbs (c : Nat) (h : Hdr) (p : VecopP) (us : List Upset)
  /-- VECOP_NEG (R91): VECOP NEG writes −a for each element. -/
  | vecopNeg (c : Nat) (h : Hdr) (p : VecopP) (us : List Upset)
  /-- VECOP_AND (R91): VECOP AND writes the bitwise AND of INT32 elements. -/
  | vecopAnd (c : Nat) (h : Hdr) (p : VecopP) (us : List Upset)
  /-- VECOP_OR (R91): VECOP OR writes the bitwise OR of INT32 elements. -/
  | vecopOr (c : Nat) (h : Hdr) (p : VecopP) (us : List Upset)
  /-- VECOP_XOR (R91): VECOP XOR writes the bitwise XOR of INT32 elements. -/
  | vecopXor (c : Nat) (h : Hdr) (p : VecopP) (us : List Upset)
  /-- VECOP_SHL (R91): VECOP SHL shifts each INT32 element left by b modulo 32. -/
  | vecopShl (c : Nat) (h : Hdr) (p : VecopP) (us : List Upset)
  /-- VECOP_SHRA (R91): VECOP SHRA shifts each INT32 element right arithmetically by b modulo 32. -/
  | vecopShra (c : Nat) (h : Hdr) (p : VecopP) (us : List Upset)
  /-- VECOP_SUMR (R91): VECOP SUMR writes the tree_sum of the first COUNT elements into element 0. -/
  | vecopSumr (c : Nat) (h : Hdr) (p : VecopP) (us : List Upset)
  /-- VECOP_MAXR (R91): VECOP MAXR writes the maximum of the first COUNT elements into element 0. -/
  | vecopMaxr (c : Nat) (h : Hdr) (p : VecopP) (us : List Upset)
  /-- VECOP_MINR (R91): VECOP MINR writes the minimum of the first COUNT elements into element 0. -/
  | vecopMinr (c : Nat) (h : Hdr) (p : VecopP) (us : List Upset)
  /-- VECOP_LOAD (R91): VECOP LOAD reads 4 × COUNT bytes from the store or the own column into a register. -/
  | vecopLoad (c : Nat) (h : Hdr) (p : VecopP) (us : List Upset)
  /-- VECOP_STORE (R91): VECOP STORE writes a register to 4 × COUNT bytes of the store or the own column. -/
  | vecopStore (c : Nat) (h : Hdr) (p : VecopP) (us : List Upset)
  /-- VECOP_BROADCAST (R91): VECOP BROADCAST writes SCALAR to each element. -/
  | vecopBroadcast (c : Nat) (h : Hdr) (p : VecopP) (us : List Upset)
  /-- VECOP_CMPGT (R91): VECOP CMPGT writes 1 where a > b and 0 otherwise, including for NaN operands. -/
  | vecopCmpgt (c : Nat) (h : Hdr) (p : VecopP) (us : List Upset)
  /-- VECOP_SELECT (R91): VECOP SELECT writes b where c is not 0 and a otherwise. -/
  | vecopSelect (c : Nat) (h : Hdr) (p : VecopP) (us : List Upset)
  /-- ACTIVATE_RELU (R92): ACTIVATE RELU applies max(x, +0) to each element. -/
  | activateRelu (c : Nat) (h : Hdr) (p : ActP) (us : List Upset)
  /-- ACTIVATE_CLAMP (R92): ACTIVATE CLAMP clamps each element to the range P0 to P1. -/
  | activateClamp (c : Nat) (h : Hdr) (p : ActP) (us : List Upset)
  /-- ACTIVATE_SIGN (R92): ACTIVATE SIGN writes −1, 0 or +1 for each element. -/
  | activateSign (c : Nat) (h : Hdr) (p : ActP) (us : List Upset)
  /-- ACTIVATE_GELU (R92): ACTIVATE GELU applies GELU, correctly rounded, to each element. -/
  | activateGelu (c : Nat) (h : Hdr) (p : ActP) (us : List Upset)
  /-- ACTIVATE_SILU (R92): ACTIVATE SILU applies SiLU, correctly rounded, to each element. -/
  | activateSilu (c : Nat) (h : Hdr) (p : ActP) (us : List Upset)
  /-- ACTIVATE_SIGMOID (R92): ACTIVATE SIGMOID applies the sigmoid, correctly rounded, to each element. -/
  | activateSigmoid (c : Nat) (h : Hdr) (p : ActP) (us : List Upset)
  /-- ACTIVATE_TANH (R92): ACTIVATE TANH applies tanh, correctly rounded, to each element. -/
  | activateTanh (c : Nat) (h : Hdr) (p : ActP) (us : List Upset)
  /-- ACTIVATE_EXP (R92): ACTIVATE EXP applies e^x, correctly rounded, to each element. -/
  | activateExp (c : Nat) (h : Hdr) (p : ActP) (us : List Upset)
  /-- ACTIVATE_RECIP (R92): ACTIVATE RECIP applies 1 / x, correctly rounded, to each element. -/
  | activateRecip (c : Nat) (h : Hdr) (p : ActP) (us : List Upset)
  /-- ACTIVATE_RSQRT (R92): ACTIVATE RSQRT applies 1 / √x, correctly rounded, to each element. -/
  | activateRsqrt (c : Nat) (h : Hdr) (p : ActP) (us : List Upset)
  /-- CONVERT (R93): CONVERT converts COUNT elements between formats and between memory and registers. -/
  | convert (c : Nat) (h : Hdr) (p : ConvertP) (us : List Upset)
  /-- SELECT_RECORDS (R160): SELECT with SOURCE RECORDS selects the top K distinct ids of one record area into one list. -/
  | selectRecords (c : Nat) (h : Hdr) (p : SelectP) (us : List Upset)
  /-- SELECT_RUNS (R161): SELECT with SOURCE RUNS forms one top-K list for each query ordinal from the runs of a scan. -/
  | selectRuns (c : Nat) (h : Hdr) (p : SelectP) (us : List Upset)
  /-- MERGE (R164): MERGE merges the present input lists into one top-K output list for each query. -/
  | merge (c : Nat) (h : Hdr) (p : MergeP) (us : List Upset)
  /-- GATHER_FETCH (R217): GATHER FETCH reads local rows by index, coalescing duplicate indices. -/
  | gatherFetch (c : Nat) (h : Hdr) (p : GatherP) (us : List Upset)
  /-- GATHER_SPLIT (R221): GATHER SPLIT reads local rows and places the remote indices in the siphon outbox batches of their owners. -/
  | gatherSplit (c : Nat) (h : Hdr) (p : GatherP) (us : List Upset)
  /-- GATHER_SERVE (R223): GATHER SERVE reads the rows of an inbound siphon request at its snapshot and forms the reply batch. -/
  | gatherServe (c : Nat) (h : Hdr) (p : GatherP) (us : List Upset)
  /-- GATHER_FILL (R224): GATHER FILL writes the rows and statuses of a siphon reply to their positions, or marks them LOST. -/
  | gatherFill (c : Nat) (h : Hdr) (p : GatherP) (us : List Upset)
  /-- SCATTER (R220): SCATTER writes rows of a MUTABLE table to spill rows and stages their redirect entries. -/
  | scatter (c : Nat) (h : Hdr) (p : ScatterP) (us : List Upset)
  /-- SEND (R339): SEND reads its data and queues its fragments at S0 on a port or on the gallery network. -/
  | send (c : Nat) (h : Hdr) (p : SendP) (us : List Upset)
  /-- RECV (R341): RECV issues, and fragments held in the landing buffer are written to its destination. -/
  | recv (c : Nat) (h : Hdr) (p : RecvP) (us : List Upset)
  /-- RECV_COMPLETE (R342): A RECV completes when its message is complete or at the end of its DEADLINE slot, and it writes its result and MERGE entry. -/
  | recvComplete (c : Nat) (e : RecvEnd)
  /-- PIM_RUN (R270): A PIM RUN step is checked by its stack controller and then admitted to the per-stack program queue, or refused. -/
  | pimRun (c : Nat) (h : Hdr) (p : PimRunP) (us : List Upset)
  /-- PIM_QUEUE_ADMIT (R271): A PIM step held because the queue was full is admitted once queue space frees. -/
  | pimQueueAdmit (st : Nat)
  /-- PIM_CHUNK_END (R274): A chunk of a run ends after n groups or at a due refresh, and postponed refreshes are issued. -/
  | pimChunkEnd (st die groups idle : Nat) (bad : List Nat)
  /-- PIM_SEAL (R279): PIM SEAL makes the PIM stripes of its range SEALING and writes their outer code atom by atom. -/
  | pimSeal (c : Nat) (h : Hdr) (p : PimSealP) (us : List Upset)
  /-- SEAL_STRIPE_COMPLETE (R279): At the first cairn after all of a stripe's atoms are written, the stripe becomes OUTER. -/
  | sealStripeComplete (st r : Nat)
  /-- STACK_REFRESH_DUE (R275): A die's refresh falls due, and it is issued, postponed to the end of a chunk, or forced when 8 are outstanding. -/
  | stackRefreshDue (st die : Nat) (running : Bool)
  /-- DIE_TEMP_SAMPLE (R276): Each stack die's temperature is sampled every 1 µs, and its refresh rate, throttle and halt are set. -/
  | dieTempSample (st die : Nat) (t : Int)
  /-- STK_MODE_WRITE (R278): A write to STK_MODE requests a stripe mode change, which is accepted only from OUTER to PIM and otherwise sets MODE_REJECT. -/
  | stkModeWrite (st j v : Nat)
  /-- FLASHREAD (R307): FLASHREAD issues reads for a list of flash extents to the channel sequencers. -/
  | flashread (c : Nat) (h : Hdr) (p : FlashReadP) (us : List Upset)
  /-- FLASHREAD_DEADLINE (R250): A deadline-mode FLASHREAD completes at the end of its DEADLINE slot, and undelivered rows become LATE. -/
  | flashreadDeadline (c idx : Nat)
  /-- FLASHWRITE (R310): FLASHWRITE writes pages of a logical block through the SLC buffer or a log block, or is refused. -/
  | flashwrite (c : Nat) (h : Hdr) (p : FlashWriteP) (us : List Upset)
  /-- FLASH_READ_COMPLETE (R300): A NAND read returns its codewords, which are LDPC-decoded, with retries, before the requested bytes are delivered. -/
  | flashReadComplete (k : Nat) (cws : List Codeword)
  /-- FLASH_PROGRAM_COMPLETE (R305): A page program ends with its status read, and a failure retires the block as grown bad. -/
  | flashProgramComplete (k : Nat) (ok : Bool)
  /-- FLASH_ERASE_COMPLETE (R304): An erase ends, and a failure retires the block as grown bad. -/
  | flashEraseComplete (ch pb : Nat) (ok : Bool)
  /-- FOLD (R293): A full buffer set, or the oldest open set when SLC is low, is folded into one native block. -/
  | fold (lbn fails : Nat) (bad : List (Nat × Nat))
  /-- LOG_MERGE (R294): A full merge builds a new native block from the newest copies of a logical block's pages. -/
  | logMerge (lbn fails : Nat) (bad : List (Nat × Nat))
  /-- GC_MERGE (R296): With fewer than GC_LOW free native blocks, the controller merges the victim with the fewest unsuperseded pages. -/
  | gcMerge (ch fails : Nat) (bad : List (Nat × Nat))
  /-- RELOCATION (R301): A logical block queued after a retry or heavy correction is moved to a fresh native block. -/
  | relocation (lbn fails : Nat) (bad : List (Nat × Nat))
  /-- MAP_CHECKPOINT (R305): Every CKPT_EPOCHS epochs, or when the journal fills, a mirrored map checkpoint is written. -/
  | mapCheckpoint
  /-- CHECK_RANGE (R324): CHECK in RANGE mode computes a folded CRC over a range and compares it with the expected value. -/
  | checkRange (c : Nat) (h : Hdr) (p : CheckRangeP) (us : List Upset)
  /-- CHECK_TAPVAL (R324): CHECK in TAPVAL mode compares a tap-table entry with an expected value. -/
  | checkTapval (c : Nat) (h : Hdr) (p : CheckTapvalP) (us : List Upset)
  /-- CHECK_WEIGHT (R118): CHECK in WEIGHT mode applies the weight-block tests to the named slices, and a failure raises WEIGHT_DAMAGED. -/
  | checkWeight (c : Nat) (h : Hdr) (p : CheckWeightP) (us : List Upset)
  /-- WEIGHT_RELOAD (R120): After WEIGHT_DAMAGED, Lantern marks the block reloading, rewrites it from its flash copy and checks it, retrying up to three times. -/
  | weightReload (c a copy : Nat)
  /-- MAP_TAKE_EFFECT (R381): At the cairn of EFFECTIVE, the pending composition map becomes current if the member's entry agrees with the active plan. -/
  | mapTakeEffect (gone : List (Nat × Nat × Nat))
  /-- STATE_CLAIM (R384): At the cairn of F + 2, a member claims disclaimed cohort state from the handoff, the shadow or the replica. -/
  | stateClaim (cohort shard kind : Nat) (shadow replica : Bool) (steps : List (Nat × Step))
  /-- DOWN_SET_APPLY (R455): At the cairn of EFFECTIVE, the down set changes routing to replicas and repoints peers, and a named member enters DRAIN. -/
  | downSetApply
  /-- HEARTBEAT_SEND (R452): Once its stage-6 SENDs are queued, and no later than slot 32, a member sends its HEARTBEAT. -/
  | heartbeatSend
  /-- HEARTBEAT_SET_SEND (R453): By slot 40, each relay and deputy relay sends a HEARTBEAT_SET for its group. -/
  | heartbeatSetSend
  /-- DOWN_DECLARE (R454): At the end of slot 63, the coordinator declares down a member that is silent, withdrawn, reported lost or straggling, and sends DOWN. -/
  | downDeclare
  /-- COHORT_AGE_OUT (R191): At the cairn of n, a cohort whose snapshot is below n − 16 is abandoned and becomes missing. -/
  | cohortAgeOut
  /-- OVERLAY_ENTRY_FOLDABLE (R192): An overlay entry with COMMIT ≤ n − 16 becomes foldable, its tombstone bit is set, and the entry is removed at the next cairn. -/
  | overlayEntryFoldable (list k : Nat)
  /-- PREV_VERSION_FREE (R195): At FREE_AT, a previous segment version is freed and its segment number returns to the pool. -/
  | prevVersionFree (list ord : Nat)
  /-- SIDE_START_ADVANCE (R195): At MERGE_AT + 16, SIDE_START advances to MERGE_END. -/
  | sideStartAdvance (list : Nat)
  /-- FLOWSTONE_PASS (R193): Lantern starts a flowstone pass that rebuilds a list's rewritten ordinals from base epoch B. -/
  | flowstonePass (list flipAt : Nat) (code : Encoding) (bad : List Nat)
  /-- FLOWSTONE_FLIP (R194): At the armed cairn F, the new segment versions of a list are installed, or the pass is discarded or postponed. -/
  | flowstoneFlip (list : Nat)
  /-- TABLE_VERSION_FLIP (R211): At cairn F, a checked row-table version becomes current, or its flip is deferred or discarded. -/
  | tableVersionFlip (t home tier present base expect : Nat)
  /-- TABLE_VERSION_FREE (R211): At FREE_AT, a row table's previous version is freed. -/
  | tableVersionFree (t : Nat)
  /-- REDIRECT_FOLD (R213): A redirect entry with COMMIT ≤ n − 16 is folded into its version, and its spill row is freed. -/
  | redirectFold (t bucket k : Nat)
  /-- DRIPLINE_REFRESH (R226): At an epoch that is a multiple of DRIP_PERIOD, Lantern builds the inactive hot index of a DRIP table. -/
  | driplineRefresh (t : Nat) (build : HotBuild)
  /-- HOT_INDEX_FLIP (R226): At the first cairn after a refresh's build completes, HOT_ACTIVE flips. -/
  | hotIndexFlip (t : Nat)
  /-- TIER_MOVE_REQUEST (R242): A move or replacement is charged, its destination is allocated, and the record enters COPYING. -/
  | tierMoveRequest (datum tier dest arm : Nat) (written : Bool)
  /-- MOVE_CHUNK_COPY (R242): A controller copies or loads up to TIER_MOVE_RATE 4 KiB chunks of a move in unnamed cycles. -/
  | moveChunkCopy (datum n retries : Nat)
  /-- MOVE_CHECK_COMPLETE (R242): After the last chunk, a CHECK verifies the destination, and the record becomes COPIED or the move is abandoned. -/
  | moveCheckComplete (datum : Nat)
  /-- HOME_FLIP (R242): At the first cairn at or after ARM with STATE COPIED and MOVES_EN set, HOME and DEST exchange and the record becomes RELEASING. -/
  | homeFlip (datum : Nat) (refs : List (Nat × List Byte))
  /-- HOME_RANGE_FREE (R242): At FREE_AT, the old range of a move is freed and credited, and the record returns to HOME. -/
  | homeRangeFree (datum : Nat)
  /-- MOVE_CANCEL (R244): A move is cancelled before its flip, and its destination is freed at the next cairn. -/
  | moveCancel (datum : Nat)
  /-- SCRUB_ATOM_READ (R511): Scrub reads a strata atom in unnamed cycles, writes back a correction, and counts errors toward row repair. -/
  | scrubAtomRead (a row : Nat) (out : AtomRead)
  /-- ROW_REPAIR_SWAP (R511): At the next cairn after its copy, a spare row replaces a strata row queued for repair. -/
  | rowRepairSwap (row : Nat)
  /-- WATCHDOG_EXPIRE (R450): A Lantern core's watchdog expires, so the core is reset and its services restart. -/
  | watchdogExpire (core : Nat)
  /-- PLAN (R341): A PLAN fragment arrives and is written, held, or discarded according to its epoch and the matching RECV. -/
  | planFrame (p t : Nat) (fr : List Byte) (fcs : Bool)
  /-- SIPHON (R341): A SIPHON batch fragment arrives and is delivered to its matching RECV like a plan transfer. -/
  | siphonFrame (p t : Nat) (fr : List Byte) (fcs : Bool)
  /-- QUERY_MESSAGE (R345): A client's QUERY message is complete and is assigned an ingress epoch as a query or an operation. -/
  | queryMessage (p t : Nat) (fr : List Byte) (fcs : Bool)
  /-- REPLY (R406): A REPLY message for a host-submitted query arrives at its ingress module and is written to the host. -/
  | reply (p t : Nat) (fr : List Byte) (fcs : Bool)
  /-- BULK (R335): A BULK message arrives reliably and is carried out as a bulk load. -/
  | bulk (r : Rx) (p : Place)
  /-- ACK (R347): An ACK is received and releases the acknowledged reliable frames of that peer. -/
  | ackFrame (p t : Nat) (fr : List Byte) (fcs : Bool)
  /-- ECHO_REQ (R351): An ECHO_REQ is received and answered with an ECHO_RSP carrying t1, t2 and t3. -/
  | echoReq (p t : Nat) (fr : List Byte) (fcs : Bool)
  /-- ECHO_RSP (R351): An ECHO_RSP is received and gives one path-delay measurement for PORT_PATH_DELAY. -/
  | echoRsp (p t : Nat) (fr : List Byte) (fcs : Bool)
  /-- TIME (R352): A TIME frame from the time source disciplines TIME by a step or a slew. -/
  | timeFrame (p t : Nat) (fr : List Byte) (fcs : Bool)
  /-- MAP_ANNOUNCE (R380): A COORD MAP_ANNOUNCE is written to the pending half and checked, then accepted or refused. -/
  | mapAnnounce (p t : Nat) (fr : List Byte) (fcs : Bool)
  /-- STATE_PROBE (R384): A STATE_PROBE makes the member keep the named cohort state as a read-only shadow and send a handoff. -/
  | stateProbe (p t : Nat) (fr : List Byte) (fcs : Bool)
  /-- STATE_HANDOFF (R384): A STATE_HANDOFF delivers disclaimed state to the claiming member. -/
  | stateHandoff (p t : Nat) (fr : List Byte) (fcs : Bool)
  /-- HEARTBEAT (R452): A member's HEARTBEAT reaches the coordinator, the deputy or a relay. -/
  | heartbeat (p t : Nat) (fr : List Byte) (fcs : Bool)
  /-- HEARTBEAT_SET (R453): A HEARTBEAT_SET from a relay reaches the coordinator or the deputy. -/
  | heartbeatSet (p t : Nat) (fr : List Byte) (fcs : Bool)
  /-- DOWN (R454): A DOWN message is received and its down set is scheduled for its EFFECTIVE cairn. -/
  | downMessage (p t : Nat) (fr : List Byte) (fcs : Bool)
  /-- TAGS (R451): A TAGS message gives a member's failure-domain tags. -/
  | tagsMessage (p t : Nat) (fr : List Byte) (fcs : Bool)
  /-- GET_VERSION (R486): The SPDM request GET_VERSION is answered. -/
  | getVersion (v : Via) (opened : Option (List Byte))
  /-- GET_CAPABILITIES (R486): The SPDM request GET_CAPABILITIES is answered. -/
  | getCapabilities (v : Via) (opened : Option (List Byte))
  /-- NEGOTIATE_ALGORITHMS (R486): The SPDM request NEGOTIATE_ALGORITHMS is answered. -/
  | negotiateAlgorithms (v : Via) (opened : Option (List Byte))
  /-- GET_DIGESTS (R486): The SPDM request GET_DIGESTS returns the slot 0 certificate chain digest. -/
  | getDigests (v : Via) (opened : Option (List Byte))
  /-- GET_CERTIFICATE (R486): The SPDM request GET_CERTIFICATE returns the root and device certificates. -/
  | getCertificate (v : Via) (opened : Option (List Byte))
  /-- CHALLENGE (R486): The SPDM request CHALLENGE is signed with the identity key. -/
  | challenge (v : Via) (opened : Option (List Byte))
  /-- GET_MEASUREMENTS (R487): The SPDM request GET_MEASUREMENTS returns the measurement indices of one snapshot point. -/
  | getMeasurements (v : Via) (opened : Option (List Byte))
  /-- KEY_EXCHANGE (R486): The SPDM request KEY_EXCHANGE starts a secured session. -/
  | keyExchange (v : Via) (opened : Option (List Byte))
  /-- FINISH (R486): The SPDM request FINISH completes session establishment. -/
  | finish (v : Via) (opened : Option (List Byte)) (ok : Bool)
  /-- SPDM_HEARTBEAT (R486): The SPDM request HEARTBEAT keeps a session alive. -/
  | spdmHeartbeat (v : Via) (opened : Option (List Byte))
  /-- KEY_UPDATE (R486): The SPDM request KEY_UPDATE updates the session keys. -/
  | keyUpdate (v : Via) (opened : Option (List Byte))
  /-- END_SESSION (R486): The SPDM request END_SESSION ends a session. -/
  | endSession (v : Via) (opened : Option (List Byte))
  /-- VENDOR_DEFINED_REQUEST (R410): A VENDOR_DEFINED_REQUEST carries IDE_KM to key IDE streams over the DOE. -/
  | vendorDefinedRequest (opened : Option (List Byte)) (object : List Byte)
  /-- ACK_TIMER (R347): Every ACK_US, the receiver sends an ACK carrying its highest contiguous SEQUENCE. -/
  | ackTimer (t : Nat)
  /-- RETRANSMIT_TIMER (R347): An unacknowledged reliable frame is resent after RETX_US, or its message is dropped after RETX_MAX resends. -/
  | retransmitTimer (t : Nat)
  /-- TIME_FRAME_SEND (R350): Every TIME_PERIOD, a time master sends a TIME frame on every UP port. -/
  | timeFrameSend (t : Nat)
  /-- ECHO_EXCHANGE (R351): Once per TIME_PERIOD, each UP port starts an ECHO exchange with the time source. -/
  | echoExchange (t : Nat)
  /-- TIME_LOSS (R352): LOSS_PERIODS pass without a TIME frame, so TIME is held at the last rate and FAB_TIME_LOST is raised. -/
  | timeLoss (t : Nat)
  /-- PORT_TRAINING_TIMEOUT (R353): A 500 ms training attempt fails, so the port tries again, falls back to 400 Gb/s, or becomes FAILED. -/
  | portTrainingTimeout (p : Nat)
  /-- PORT_PHY_UP (R353): PCS alignment and FEC lock are reached, and the port enters PHY_UP. -/
  | portPhyUp (p : Nat)
  /-- PORT_UP (R353): Alignment and lock have held for 1 ms with no uncorrectable codeword, and the port becomes UP. -/
  | portUp (p : Nat)
  /-- PORT_ALIGNMENT_LOSS (R353): An UP port loses alignment, so it goes DOWN, raises FAB_LINK_DOWN, discards its queues and retrains. -/
  | portAlignmentLoss (p : Nat)
  /-- FEC_WINDOW (R353): At the end of each 1 ms window, the port's uncorrectable FEC codewords set FEC_DEGRADED or take the port DOWN. -/
  | fecWindow (p good bad t : Nat)
  /-- PORT_ENABLE_WRITE (R355): A write to FAB_CTRL.PORT_EN enables ports, which start training, or takes ports DOWN. -/
  | portEnableWrite (v : Nat)
  /-- EGRESS_CHOICE (R360): A port's transmitter falls idle, and the scheduler picks the next frame in strict, urgent or weighted order. -/
  | egressChoice (p t : Nat) (parity : Option (Bool × Nat))
  /-- TOKEN_REFILL (R362): Every 64 ns, each token bucket refills up to its burst, and RATE and BURST writes take effect. -/
  | tokenRefill (t : Nat)
  /-- QUEUE_URGENT (R366): A W queue's oldest conforming frame waits more than AGE_US, so the queue becomes urgent for S3 service. -/
  | queueUrgent (p w t : Nat)
  /-- EGRESS_SAMPLE (R369): Every SAMPLE period, the depth and delay of each egress queue are sampled. -/
  | egressSample (t : Nat)
  /-- SQ_TAIL_DOORBELL (R409): An SQ tail doorbell write makes the new entries arrive and starts their fetch, or sets the ring's ERROR. -/
  | sqTailDoorbell (fn ring v : Nat)
  /-- CQ_HEAD_DOORBELL (R409): A CQ head doorbell write frees completion space and releases held completions. -/
  | cqHeadDoorbell (fn ring v t : Nat)
  /-- QUERY (R404): A host QUERY entry is fetched and its query record is admitted under ingress ordering. -/
  | hostQuery (fn ring : Nat) (entry record : List Byte) (x : Dma)
  /-- OPERATION (R404): A host OPERATION entry is fetched and its operation body is admitted. -/
  | hostOperation (fn ring : Nat) (entry record : List Byte) (x : Dma)
  /-- BULK_LOAD (R404): A BULK_LOAD entry loads content into a datum's home as a REPLACE or a new allocation. -/
  | bulkLoad (fn ring : Nat) (entry list content : List Byte) (x : Dma) (p : Place)
  /-- PLAN_SUPPLY (R404): A PLAN_SUPPLY entry passes a plan to Lantern, which loads it into the inactive bank and arms the switch. -/
  | planSupply (fn ring : Nat) (entry list content : List Byte) (x : Dma)
  /-- IMAGE_SUPPLY (R476): An IMAGE_SUPPLY entry stages and checks a new image and writes it to the NOR. -/
  | imageSupply (fn ring t : Nat) (entry list content : List Byte) (x : Dma) (bad : Option (Nat × Nat))
  /-- COMPLETION_POST (R406): An entry's work ends, and its completion is posted to the CQ or held, or discarded when the hold is full. -/
  | completionPost (k t : Nat) (x : Dma)
  /-- CQ_INTERRUPT (R409): INT_COUNT entries are pending, or INT_US has passed since the oldest, so the CQ raises its MSI-X vector. -/
  | cqInterrupt (fn ring t : Nat)
  /-- FUNCTION_LEVEL_RESET (R401): A function-level reset, or clearing VF Enable, disables the function's rings and discards its later completions. -/
  | functionLevelReset (fn : Nat)
  /-- IDE_TLP_FAIL (R410): A TLP fails its IDE check, so it is dropped and its stream becomes Insecure. -/
  | ideTlpFail (stream : Nat)
  /-- HOST_LINK_TRAINED (R398): The PCI Express link trains, and HOST_LINK_DEGRADED is raised if it is below 64 GT/s or ×16. -/
  | hostLinkTrained (rate width : Nat)
  /-- RING_ENABLE_WRITE (R412): A write to RING_CTRL.ENABLE enables a ring pair, or disables it and clears its ERROR and pointers. -/
  | ringEnableWrite (fn ring : Nat) (v : Bool)
  /-- BAR4_READ (R399): A BAR4 read returns strata contents when debug is enabled, and otherwise returns 0 and is counted. -/
  | bar4Read (a n : Nat)
  /-- REGISTER_WRITE (R9): A write to a register field that has no row of its own takes effect at the field's apply point. -/
  | registerWrite (off size v : Nat) (e : WriteEnv)
  /-- LOWER_HALF_WRITE (R504): A 32-bit write to the lower register of a 64-bit quantity loads the agent's write latch. -/
  | lowerHalfWrite (agent off v : Nat)
  /-- COUNTER_LOWER_READ (R6): A read of the lower register of a 64-bit quantity latches its upper half for the next read. -/
  | counterLowerRead (agent : Nat) (read : RegRead)
  /-- SUMP_PEAK_READ (R71): A read of the RC register SUMP_PEAK returns the peak depth and clears it. -/
  | sumpPeakRead (agent c : Nat)
  /-- BAD_ACCESS (R503): A BAR0 access of a bad size or alignment, or to an unlisted offset, reads 0 or is discarded, and is counted. -/
  | badAccess (write : Bool) (off size : Nat)
  /-- RD (R494): The monitor command RD reads and prints BAR0 registers. -/
  | rd (line : List Char)
  /-- WR (R495): The monitor command WR writes one BAR0 register as a host write would. -/
  | wr (line : List Char) (e : WriteEnv)
  /-- CNT (R494): The monitor command CNT prints counter pairs from one snapshot point. -/
  | cnt (line : List Char)
  /-- MEM (R496): The monitor command MEM reads and prints device memory through Lantern direct accesses. -/
  | memCmd (line : List Char)
  /-- FAULTS (R494): The monitor command FAULTS prints the newest fault records. -/
  | faults (line : List Char)
  /-- STATE (R494): The monitor command STATE prints the device state and boot status. -/
  | stateCmd (line : List Char)
  /-- SENSORS (R494): The monitor command SENSORS prints temperatures, input and rails. -/
  | sensors (line : List Char)
  /-- LINKS (R494): The monitor command LINKS prints the port, host link, stack and channel training states. -/
  | links (line : List Char)
  /-- LOAD (R498): The monitor command LOAD opens a block transfer of an image into staging. -/
  | loadCmd (line : List Char)
  /-- LOAD_BLOCK (R498): A LOAD block and its CRC arrive and are acknowledged, and after the last block the staged image is checked. -/
  | loadBlock (data : List Byte) (crc : Nat)
  /-- LOAD_TIMEOUT (R498): 5 s pass without a byte during LOAD, so the load ends with ERR TIMEOUT and staging is emptied. -/
  | loadTimeout
  /-- NORWRITE (R499): The monitor command NORWRITE writes the staged image to the NOR and verifies it. -/
  | norwrite (line : List Char) (t : Nat) (bad : Option (Nat × Nat))
  /-- BOOTSTAGED (R494): The monitor command BOOTSTAGED enters BOOT from the staged image without writing the NOR. -/
  | bootstaged (line : List Char)
  /-- STEP (R500): The monitor command STEP runs one epoch in READY under the active bank. -/
  | stepCmd (line : List Char) (t : Nat)
  /-- DEBUG_ON (R497): The monitor command DEBUG ON enables BAR4 and the debug windows. -/
  | debugOn (line : List Char)
  /-- DEBUG_OFF (R497): The monitor command DEBUG OFF disables BAR4. -/
  | debugOff (line : List Char)
  /-- LINE_TOO_LONG (R492): A monitor line longer than 255 characters is discarded whole and answered with ERR LONG. -/
  | lineTooLong (n : Nat)
  /-- RECEIVED_FRAME_DISCARD (R333): A received Ethernet frame that no type-specific step takes (FCS failure, non-ZFT EtherType including PAUSE and PFC, bad version or reserved type, reserved MGMT subtype or COORD kind) is discarded and counted. -/
  | receivedFrameDiscard (p t : Nat) (fr : List Byte) (fcs : Bool)
  /-- COMPARATOR_RELEASE (R435): Outside SLEEP, an always-on comparator crosses back beyond its level plus hysteresis, which clears its TRIPPED bit and, for VIN within 50 µs, lets the module carry on. -/
  | comparatorRelease (k t : Nat)
  /-- VAON_FAIL (R520): The input falls below 30 V, so VAON fails and the always-on domain loses its contents, including BOOTS and the always-on counters. -/
  | vaonFail
  /-- CRYSTAL_STABLE (R521): The 32.768 kHz crystal reaches its first stable cycle, up to 500 ms after it starts, and AON_RTC begins to count. -/
  | crystalStable
  /-- APPLY_POINT (R483): While no epochs run, a 1 µs boundary of TIME applies pending next-cairn and next-plan-bank-switch fields and checks written coupled sets. -/
  | applyPoint (t : Nat)
  /-- SNAPSHOT_POINT (R483): Every 1 ms while no epochs run, the counters are snapshotted, and this instant serves as the snapshot point for counter reads and measurements. -/
  | snapshotPoint (t : Nat)
  /-- DOE_DISCOVERY (R410): A DOE Discovery data object on the PF mailbox is answered with the supported data object types. -/
  | doeDiscovery (object : List Byte)
  /-- CONFIGURATION_REQUEST (R411): A PCI Express configuration request receives Request Retry Status until step 4 of BOOT, and is served after it. -/
  | configurationRequest
  /-- UNKNOWN_COMMAND (R493): A monitor line whose keyword is unknown is answered with ERR BADCMD and the prompt. -/
  | unknownCommand (line : List Char)
  /-- HOST_LINK_DOWN (R413): The PCI Express link goes down outside a PERST_N reset, so HST_STATUS.WIDTH reads 0 until the link retrains. -/
  | hostLinkDown
  deriving DecidableEq, Repr

end Sys2Proof
end

