-- ==== Sys2Proof/Config.lean ====
section
/-! DEFINITION. What the spec leaves open: constants without a body, so that no proof can see a value. Each has a
row in notes/assumptions. -/

namespace Sys2Proof.Config

/-- INT32 ABS and NEG of -2^31 (R90 and R91 state no result): one value for each of the two (log entry 13). -/
opaque intNegMin (neg : Bool) : BitVec 32

/-- Bytes of a selection's scratch area after SELECT or MERGE: no rule states them (R160, R163; log entry 14). -/
opaque scratchByte (draw i : Nat) : Byte

/-- QORD of a merged list all of whose inputs are absent: no rule states it (R164; log entry 14). -/
opaque mergeQord (draw : Nat) : BitVec 16

/-- Bytes 0 to 7 of the result of CHECK WEIGHT: R324 names one computed value and the mode computes many (log entry 15). -/
opaque weightValue (draw : Nat) : BitVec 64

/-- The state that a STATE_HANDOFF carries: R384 and R385 give it no layout (log entry 21). -/
opaque handoffState (draw : Nat) : List Byte

/-- The epoch field of a reply or completion of a request that was never admitted: it has none (R346, R406; log entry 22). -/
opaque noEpoch (draw : Nat) : BitVec 64

/-- CLIENT_SEQ in the completion of an entry whose own fetch failed: no part of it was read (R405; log entry 22). -/
opaque unreadSeq (draw : Nat) : BitVec 64

/-- The source address of a reply buffer, with which tap 5 folds: no rule says where a reply is put together (R320; log entry 23). -/
opaque replySource (draw : Nat) : BitVec 64

/-- The root key hash in mask ROM, with which check 2 of R474 compares: the spec gives no value (log entry 25). -/
opaque rootKeyHash : List Byte

/-- The SHA-256 of the mask ROM, measurement 1 of R487: the spec gives no value (log entry 25). -/
opaque romDigest : List Byte

/-- Bytes of SPDM replies that no rule of the spec states: nonces, key shares, HMACs, signatures (R486; log entry 26). -/
opaque spdmBytes (draw n : Nat) : List Byte

/-- What the AEAD makes of a message of a secured session: the spec gives no key (R486; log entry 26). -/
opaque spdmSealed (draw : Nat) (plain : List Byte) : List Byte

/-- What a read of a debug window returns while DEBUG_EN is set (R508; log entry 27). -/
opaque debugView (draw : Nat) : BitVec 32

end Sys2Proof.Config
end

