-- ==== Sys2Proof/Machine/Fp.lean ====
section
/-! DEFINITION. Number formats and their arithmetic (03_chamber_arithmetic.md R74 to R83): exact values as
dyadic numbers, one rounding to nearest with ties to even, and the correctly rounded functions of R92 by
enclosing the exact value between two rationals that round alike. -/

namespace Sys2Proof.Fp

/-- A floating-point format of R74. -/
structure Fmt where
  ebits : Nat
  mbits : Nat
  bias : Nat
  /-- The greatest finite encoding without its sign. -/
  maxBits : Nat
  /-- The encoding of infinity without its sign, if the format has one. -/
  infBits : Option Nat
  /-- The canonical quiet NaN of R80, if the format has one. -/
  nanBits : Option Nat
  deriving DecidableEq, Repr

def fp32 : Fmt := ⟨8, 23, 127, 0x7F7FFFFF, some 0x7F800000, some 0x7FC00000⟩
def bf16 : Fmt := ⟨8, 7, 127, 0x7F7F, some 0x7F80, some 0x7FC0⟩
def fp16 : Fmt := ⟨5, 10, 15, 0x7BFF, some 0x7C00, some 0x7E00⟩
def e4m3 : Fmt := ⟨4, 3, 7, 0x7E, none, some 0x7F⟩
def e5m2 : Fmt := ⟨5, 2, 15, 0x7B, some 0x7C, some 0x7E⟩
def fp4 : Fmt := ⟨2, 1, 1, 0x7, none, none⟩

/-- A value: NaN, an infinity, or ± `m` × 2^`e` (zeros keep their sign). -/
inductive Value where
  | nan
  | inf (neg : Bool)
  | fin (neg : Bool) (m : Nat) (e : Int)
  deriving DecidableEq, Repr

def Value.zero : Value := .fin false 0 0
def Value.isNan : Value → Bool | .nan => true | _ => false
def Value.isNeg : Value → Bool | .nan => false | .inf n => n | .fin n _ _ => n
def Value.isZero : Value → Bool | .fin _ m _ => m == 0 | _ => false
def Value.neg : Value → Value | .nan => .nan | .inf n => .inf (!n) | .fin n m e => .fin (!n) m e
def Value.abs : Value → Value | .nan => .nan | .inf _ => .inf false | .fin _ m e => .fin false m e

/-- The value of an encoding (R74). -/
def decode (f : Fmt) (b : Nat) : Value :=
  let neg := bit b (f.ebits + f.mbits)
  let mag := b % 2 ^ (f.ebits + f.mbits)
  let e := mag / 2 ^ f.mbits
  let m := mag % 2 ^ f.mbits
  if mag ≤ f.maxBits then
    (if e = 0 then .fin neg m (1 - (f.bias : Int) - f.mbits) else .fin neg (2 ^ f.mbits + m) ((e : Int) - f.bias - f.mbits))
  else if f.infBits = some mag then .inf neg else .nan

/-- `n` × 2^`e` as a quotient of naturals. -/
def dyadic (m : Nat) (e : Int) : Nat × Nat :=
  if 0 ≤ e then (m * 2 ^ e.toNat, 1) else (m, 2 ^ (-e).toNat)

/-- The quotient `p / q` rounded to the nearest integer, ties to even (R79). -/
def roundDiv (p q : Nat) : Nat :=
  let n := p / q
  let r := p % q
  if q < 2 * r then n + 1 else if 2 * r = q then n + n % 2 else n

/-- ⌊log2 (p / q)⌋ for positive `p` and `q`. -/
def log2Rat (p q : Nat) : Int :=
  let g : Int := (Nat.log2 p : Int) - Nat.log2 q
  let fits (k : Int) : Bool := if 0 ≤ k then decide (q * 2 ^ k.toNat ≤ p) else decide (q ≤ p * 2 ^ (-k).toNat)
  if fits g then g else g - 1

/-- The magnitude encoding of `p / q` rounded to the format, with no upper limit. Subnormals are kept (R81). -/
def roundMag (f : Fmt) (p q : Nat) : Nat :=
  if p = 0 then 0 else
  let emin : Int := 1 - (f.bias : Int)
  let e := log2Rat p q
  let u := (if e < emin then emin else e) - f.mbits
  let n := if 0 ≤ u then roundDiv p (q * 2 ^ u.toNat) else roundDiv (p * 2 ^ (-u).toNat) q
  (u - (emin - f.mbits)).toNat * 2 ^ f.mbits + n

def signBit (f : Fmt) (neg : Bool) : Nat := boolNat neg * 2 ^ (f.ebits + f.mbits)

/-- An encoding with what R82 counts: `sat` when it saturated, `nan` when it is a produced NaN. -/
structure Enc where
  bits : Nat
  sat : Bool := false
  nan : Bool := false
  deriving DecidableEq, Repr

/-- Overflow past the greatest finite value: infinity in the wide formats, saturation in FP8 and FP4 (R82). -/
def overflow (f : Fmt) (neg : Bool) : Enc :=
  if f.ebits + f.mbits ≤ 7 then ⟨signBit f neg + f.maxBits, true, false⟩
  else ⟨signBit f neg + f.infBits.getD f.maxBits, false, false⟩

/-- ± `p / q` rounded once to the format. -/
def encodeRat (f : Fmt) (neg : Bool) (p q : Nat) : Enc :=
  let b := roundMag f p q
  if b ≤ f.maxBits then { bits := signBit f neg + b } else overflow f neg

/-- A value rounded once to the format (R79, R80, R82). -/
def encode (f : Fmt) : Value → Enc
  | .nan => ⟨f.nanBits.getD 0, false, true⟩
  | .inf neg => overflow f neg
  | .fin neg m e => encodeRat f neg (dyadic m e).1 (dyadic m e).2

/-! ### Exact operations on values -/

/-- The signed numerator of a finite value at exponent `e₀` ≤ its own. -/
def scaled (neg : Bool) (m : Nat) (e e₀ : Int) : Int :=
  let v : Int := (m : Int) * 2 ^ (e - e₀).toNat
  if neg then -v else v

/-- Exact sum; the sign of an exact zero follows R81. -/
def add : Value → Value → Value
  | .nan, _ => .nan
  | _, .nan => .nan
  | .inf a, .inf b => if a = b then .inf a else .nan
  | .inf a, _ => .inf a
  | _, .inf b => .inf b
  | .fin n₁ m₁ e₁, .fin n₂ m₂ e₂ =>
    let e := min e₁ e₂
    let v := scaled n₁ m₁ e₁ e + scaled n₂ m₂ e₂ e
    if v = 0 then .fin (n₁ && n₂) 0 0 else .fin (decide (v < 0)) v.natAbs e

def sub (a b : Value) : Value := add a b.neg

def mul : Value → Value → Value
  | .nan, _ => .nan
  | _, .nan => .nan
  | .inf a, .inf b => .inf (a != b)
  | .inf a, .fin n m _ => if m = 0 then .nan else .inf (a != n)
  | .fin n m _, .inf b => if m = 0 then .nan else .inf (n != b)
  | .fin n₁ m₁ e₁, .fin n₂ m₂ e₂ => .fin (n₁ != n₂) (m₁ * m₂) (e₁ + e₂)

/-- -1, 0 or 1 as the first value is below, equal to or above the second; zeros of either sign are equal. -/
def cmp : Value → Value → Int
  | .nan, _ => 0
  | _, .nan => 0
  | .inf a, .inf b => if a = b then 0 else if a then -1 else 1
  | .inf a, _ => if a then -1 else 1
  | _, .inf b => if b then 1 else -1
  | .fin n₁ m₁ e₁, .fin n₂ m₂ e₂ =>
    let e := min e₁ e₂
    let v := scaled n₁ m₁ e₁ e - scaled n₂ m₂ e₂ e
    if v = 0 then 0 else if v < 0 then -1 else 1

/-- A finite value rounded to an integer, ties to even. -/
def toInt (neg : Bool) (m : Nat) (e : Int) : Int :=
  let n := roundDiv (dyadic m e).1 (dyadic m e).2
  if neg then -(n : Int) else n

def ofInt (i : Int) : Value := .fin (decide (i < 0)) i.natAbs 0

/-! ### FP32 operations on bit patterns -/

def f32 (b : Nat) : Value := decode fp32 b
def to32 (x : Value) : Nat := (encode fp32 x).bits

def fadd (a b : Nat) : Nat := to32 (add (f32 a) (f32 b))
def fsub (a b : Nat) : Nat := to32 (sub (f32 a) (f32 b))
def fmul (a b : Nat) : Nat := to32 (mul (f32 a) (f32 b))

/-- a × b + c with one rounding (R90). -/
def ffma (a b c : Nat) : Nat := to32 (add (mul (f32 a) (f32 b)) (f32 c))

/-- MAX and MIN: NaN if either is NaN, and -0 orders below +0 (R90). -/
def less (a b : Value) : Bool := decide (cmp a b < 0) || (a.isZero && b.isZero && a.isNeg && !b.isNeg)
def fmax (a b : Nat) : Nat :=
  if (f32 a).isNan || (f32 b).isNan then 0x7FC00000 else if less (f32 a) (f32 b) then b else a
def fmin (a b : Nat) : Nat :=
  if (f32 a).isNan || (f32 b).isNan then 0x7FC00000 else if less (f32 b) (f32 a) then b else a

def isNan32 (b : Nat) : Bool := (f32 b).isNan

/-- One round of the pairwise tree: neighbours are added, each sum rounded. -/
def pairSums : List Nat → List Nat
  | a :: b :: rest => fadd a b :: pairSums rest
  | xs => xs

/-- tree_sum of R89 on a list whose length is 2^k. -/
def treeRounds : Nat → List Nat → Nat
  | 0, xs => xs.headD 0
  | k + 1, xs => treeRounds k (pairSums xs)

/-- The least k with n ≤ 2^k. -/
def ceilLog2 (n : Nat) : Nat := if n ≤ 1 then 0 else Nat.log2 (n - 1) + 1

def treeSum (xs : List Nat) : Nat :=
  let k := ceilLog2 xs.length
  treeRounds k (xs ++ List.replicate (2 ^ k - xs.length) 0)

/-! ### Correctly rounded functions

An enclosure at precision `k` is a pair of naturals (lo, hi) with lo ≤ value × 2^k ≤ hi. -/

/-- Both ends rounded alike at some precision of the list settle the result; the exact value never is a
rounding boundary where these are used, so a precision suffices. -/
def settleAt (f : Fmt) (enc : Nat → Nat × Nat) : List Nat → Nat
  | [] => 0
  | [k] => roundMag f (enc k).1 (2 ^ k)
  | k :: ks =>
    let lo := roundMag f (enc k).1 (2 ^ k)
    if lo = roundMag f (enc k).2 (2 ^ k) then lo else settleAt f enc ks

def precisions : List Nat := [320, 640, 1280]

/-- Taylor terms of e^r at scale 2^k, `fuel` of them from term `i` on, where 0 ≤ r ≤ 1/2. -/
def expTerms (k r : Nat) (up : Bool) : Nat → Nat → Nat → Nat
  | 0, _, t => if up then 2 * t + 1 else 0
  | fuel + 1, i, t =>
    let next := if up then ceilDiv (t * r) (2 ^ k * (i + 1)) else t * r / (2 ^ k * (i + 1))
    t + expTerms k r up fuel (i + 1) next

def squareTimes (k : Nat) (up : Bool) : Nat → Nat → Nat
  | 0, v => v
  | j + 1, v => squareTimes k up j (if up then ceilDiv (v * v) (2 ^ k) else v * v / 2 ^ k)

/-- e^x for x = p / q with 0 ≤ x ≤ 512: the argument is halved ten times and the result squared back. -/
def expUp (k p q : Nat) : Nat × Nat :=
  let lo := p * 2 ^ k / (q * 1024)
  let hi := ceilDiv (p * 2 ^ k) (q * 1024)
  (squareTimes k false 10 (expTerms k lo false (k / 3) 0 (2 ^ k)), squareTimes k true 10 (expTerms k hi true (k / 3) 0 (2 ^ k)))

/-- e^(-x) for the same x. -/
def expDown (k p q : Nat) : Nat × Nat :=
  let (lo, hi) := expUp k p q
  (2 ^ (2 * k) / hi, ceilDiv (2 ^ (2 * k)) lo)

/-- arctan (1 / n) at scale 2^k, to within `fuel` units: floors of the alternating series. -/
def arctanInv (k n : Nat) : Nat → Nat → Nat → Int
  | 0, _, _ => 0
  | fuel + 1, i, t =>
    let term : Int := (t / (2 * i + 1) : Nat)
    (if i % 2 = 0 then term else -term) + arctanInv k n fuel (i + 1) (t / (n * n))

/-- π × 2^k within the stated slack (Machin: π = 16 arctan 1/5 - 4 arctan 1/239). -/
def piBounds (k : Nat) : Nat × Nat :=
  let v := (16 * arctanInv k 5 k 0 (2 ^ k / 5) - 4 * arctanInv k 239 k 0 (2 ^ k / 239)).toNat
  (v - 40 * k, v + 40 * k)

/-- ⌊√n⌋ by bits, from bit `b` downwards. -/
def isqrtBits (n : Nat) : Nat → Nat → Nat
  | 0, r => r
  | b + 1, r => isqrtBits n b (if (r + 2 ^ b) * (r + 2 ^ b) ≤ n then r + 2 ^ b else r)

def isqrt (n : Nat) : Nat := isqrtBits n (Nat.log2 n / 2 + 1) 0

/-- The sum over n of x^(2n+1) / (2n+1)!! at scale 2^k for x = p / q. -/
def phiTerms (k p q : Nat) (up : Bool) : Nat → Nat → Nat → Nat
  | 0, _, t => if up then 2 * t + 1 else 0
  | fuel + 1, i, t =>
    let d := q * q * (2 * i + 3)
    t + phiTerms k p q up fuel (i + 1) (if up then ceilDiv (t * p * p) d else t * p * p / d)

/-- Φ(x) - 1/2 for x = p / q with 0 < x < 16: φ(x) × that sum, with φ(x) = e^(-x²/2) / √(2π). -/
def phiHalf (k p q : Nat) : Nat × Nat :=
  let (elo, ehi) := expDown k (p * p) (2 * q * q)
  let (plo, phi) := piBounds k
  let rlo := isqrt (2 * plo * 2 ^ k)
  let rhi := isqrt (2 * phi * 2 ^ k) + 1
  let slo := phiTerms k p q false (2 * k) 0 (p * 2 ^ k / q)
  let shi := phiTerms k p q true (2 * k) 0 (ceilDiv (p * 2 ^ k) q)
  (elo * slo / rhi, ceilDiv (ehi * shi) rlo)

/-- Is p / q at least n? -/
def atLeast (p q n : Nat) : Bool := decide (n * q ≤ p)

/-- The magnitude of e^x, as encoding bits, for a finite x that is not 0. -/
def expMag (neg : Bool) (p q : Nat) : Nat :=
  if neg then (if atLeast p q 104 then 0 else settleAt fp32 (fun k => expDown k p q) precisions)
  else if atLeast p q 89 then 0x7F800000 else min 0x7F800000 (settleAt fp32 (fun k => expUp k p q) precisions)

/-- 1 / (1 + e^(-x)) enclosed. -/
def sigmoidBounds (neg : Bool) (p q k : Nat) : Nat × Nat :=
  let (lo, hi) := expDown k p q
  let one := 2 ^ k
  if neg then (lo * one / (one + lo), ceilDiv (hi * one) (one + hi))
  else (one * one / (one + hi), ceilDiv (one * one) (one + lo))

def sigmoidMag (neg : Bool) (p q : Nat) : Nat :=
  if atLeast p q 104 then (if neg then 0 else 0x3F800000) else settleAt fp32 (sigmoidBounds neg p q) precisions

/-- tanh of p / q: between x - x³/3 and x for small x, else (1 - E) / (1 + E) with E = e^(-2x). -/
def tanhBounds (p q k : Nat) : Nat × Nat :=
  if atLeast (p * 4096) q 1 then
    let (lo, hi) := expDown k (2 * p) q
    let one := 2 ^ k
    ((one - hi) * one / (one + hi), ceilDiv ((one - lo) * one) (one + lo))
  else
    ((p * 2 ^ k * (3 * q * q - p * p)) / (3 * q * q * q), ceilDiv (p * 2 ^ k) q)

def tanhMag (p q : Nat) : Nat :=
  if atLeast p q 64 then 0x3F800000 else settleAt fp32 (tanhBounds p q) precisions

/-- |x| × 1 / (1 + e^(-x)) enclosed. -/
def siluMag (neg : Bool) (p q : Nat) : Nat :=
  if atLeast p q 120 then (if neg then 0 else roundMag fp32 p q)
  else settleAt fp32 (fun k => ((sigmoidBounds neg p q k).1 * p / q, ceilDiv ((sigmoidBounds neg p q k).2 * p) q)) precisions

/-- |x| × Φ(x) enclosed. -/
def geluMag (neg : Bool) (p q : Nat) : Nat :=
  if atLeast p q 16 then (if neg then 0 else roundMag fp32 p q)
  else settleAt fp32 (fun k =>
    let (lo, hi) := phiHalf k p q
    let half := 2 ^ (k - 1)
    if neg then ((half - hi) * p / q, ceilDiv ((half - lo) * p) q) else ((half + lo) * p / q, ceilDiv ((half + hi) * p) q)) precisions

/-- 1 / √(p / q): the integer root of q / p at 2^(2t) scale, with a half unit where it is not exact, so that
one rounding of it is the rounding of the exact value. -/
def rsqrtMag (p q : Nat) : Nat :=
  let t := 128
  let n := q * 2 ^ (2 * t)
  let r := isqrt (n / p)
  if r * r * p = n then roundMag fp32 r (2 ^ t) else roundMag fp32 (2 * r + 1) (2 ^ (t + 1))

/-- The sign and magnitude bits of an FP32 result. -/
def signed32 (neg : Bool) (mag : Nat) : Nat := boolNat neg * 2 ^ 31 + mag

def nan32 : Nat := 0x7FC00000
def inf32 : Nat := 0x7F800000
def one32 : Nat := 0x3F800000

def gelu (x : Nat) : Nat :=
  match f32 x with
  | .nan => nan32
  | .inf neg => if neg then signed32 true 0 else inf32
  | .fin neg m e => if m = 0 then signed32 neg 0 else signed32 neg (geluMag neg (dyadic m e).1 (dyadic m e).2)

def silu (x : Nat) : Nat :=
  match f32 x with
  | .nan => nan32
  | .inf neg => if neg then signed32 true 0 else inf32
  | .fin neg m e => if m = 0 then signed32 neg 0 else signed32 neg (siluMag neg (dyadic m e).1 (dyadic m e).2)

def sigmoid (x : Nat) : Nat :=
  match f32 x with
  | .nan => nan32
  | .inf neg => if neg then 0 else one32
  | .fin neg m e => if m = 0 then 0x3F000000 else sigmoidMag neg (dyadic m e).1 (dyadic m e).2

def tanh (x : Nat) : Nat :=
  match f32 x with
  | .nan => nan32
  | .inf neg => signed32 neg one32
  | .fin neg m e => if m = 0 then signed32 neg 0 else signed32 neg (tanhMag (dyadic m e).1 (dyadic m e).2)

def exp (x : Nat) : Nat :=
  match f32 x with
  | .nan => nan32
  | .inf neg => if neg then 0 else inf32
  | .fin neg m e => if m = 0 then one32 else expMag neg (dyadic m e).1 (dyadic m e).2

def recip (x : Nat) : Nat :=
  match f32 x with
  | .nan => nan32
  | .inf neg => signed32 neg 0
  | .fin neg m e =>
    if m = 0 then signed32 neg inf32 else (encodeRat fp32 neg (dyadic m e).2 (dyadic m e).1).bits

def rsqrt (x : Nat) : Nat :=
  match f32 x with
  | .nan => nan32
  | .inf neg => if neg then nan32 else 0
  | .fin neg m e =>
    if m = 0 then signed32 neg inf32 else if neg then nan32 else rsqrtMag (dyadic m e).1 (dyadic m e).2

def relu (x : Nat) : Nat := if isNan32 x then nan32 else fmax x 0

def clamp (p0 p1 x : Nat) : Nat := if isNan32 x then nan32 else fmin (fmax x p0) p1

def sign (x : Nat) : Nat :=
  match f32 x with
  | .nan => nan32
  | .inf neg => signed32 neg one32
  | .fin neg m _ => if m = 0 then 0 else signed32 neg one32

end Sys2Proof.Fp
end

