-- ==== Sys2Proof/Machine/Fields.lean ====
section
/-! DEFINITION. The register fields of BAR0, one definition per named field of the spec's register tables
(21_register_map.md R502 to R512; each table's own rule stands above its fields), and the table that finds
the fields at an offset. Reset values, access codes and apply points are those of the tables (R8, R9). -/

namespace Sys2Proof.Machine

/-- The access codes of R8. -/
inductive Acc where | ro | rw | w1c | wo | rc
  deriving DecidableEq, Repr

/-- The apply points of R9. -/
inductive Apply where | now | refill | cairn | bank
  deriving DecidableEq, Repr

/-- The coupled pairs and sets of R513; fields that are in none carry `none`. -/
inductive Couple where
  | none | epcLen | itemMap | seg | home | stkThermal (s : Nat) | flsGc | cvuCfg | fabReliable
  | egsPort (p : Nat) | poolMap | pwrOpp | pwrTj | fltLog
  deriving DecidableEq, Repr

/-- Conditions a row sets on a write beside its range: START_* only while ENABLE is 0 (R69), NODE_ID only
while PORT_EN is 0 (R355), ring fields only while the ring is disabled (R412), a VF's tenant only while its
rings are disabled (R413), FLT_LOG_READ not above FLT_SEQ (R459), OVERHEAD a signed value (R372). -/
inductive Gate where
  | free | epcStopped | portsOff | ring (f r : Nat) | vfRings (v : Nat) | fltRead | signed9
  deriving DecidableEq, Repr

/-- One register field: its BAR0 offset, place, access, apply point and reset value; `range` is the row's
range of legal values as (least, greatest, multiple of). -/
structure Field where
  off : Nat
  lsb : Nat
  width : Nat
  acc : Acc
  app : Apply
  reset : Nat
  range : Option (Nat × Nat × Nat) := none
  couple : Couple := .none
  gate : Gate := .free
  deriving DecidableEq, Repr

/-- The key a field's value is held under: offsets are multiples of 4 and a field starts below bit 64. -/
def Field.key (f : Field) : Nat := f.off * 64 + f.lsb

/-- The window of chamber `c` (R502, R509). -/
def chamberBase (c : Nat) : Nat := 0x400000 + 0x100000 * (c / 64) + 0x1000 * (c % 64)

namespace Reg

def ro (off lsb width : Nat) (reset : Nat := 0) : Field := { off, lsb, width, acc := .ro, app := .now, reset }
def w1c (off lsb width : Nat) : Field := { off, lsb, width, acc := .w1c, app := .now, reset := 0 }
def wo (off lsb width : Nat) : Field := { off, lsb, width, acc := .wo, app := .now, reset := 0 }
def rc (off lsb width : Nat) : Field := { off, lsb, width, acc := .rc, app := .now, reset := 0 }
def rw (off lsb width : Nat) (app : Apply) (reset : Nat) : Field := { off, lsb, width, acc := .rw, app, reset }

/-! 02_epochs_and_plans.md R69 -/
def epcCtrlEnable : Field := rw 0x10000 0 1 .now 0
def epcCtrlSyncEn : Field := rw 0x10000 1 1 .cairn 0
def epcCtrlSyncEdge : Field := rw 0x10000 2 1 .cairn 0
def epcCtrlStartOnSync : Field := { rw 0x10000 3 1 .now 0 with gate := .epcStopped }
def epcLenLength : Field := { rw 0x10004 0 7 .bank 25 with range := some (10, 100, 1), couple := .epcLen }
def epcStatusRunning : Field := ro 0x10008 0 1
def epcStatusLate : Field := ro 0x10008 1 1
def epcStatusCouplePending : Field := ro 0x10008 2 1
def epcStatusLenReject : Field := w1c 0x10008 3 1
def epcStatusSyncSeen : Field := ro 0x10008 4 1
def epcSyncOffset : Field := ro 0x1000C 0 32
def epcNumber : Field := ro 0x10010 0 64
def epcStartTime : Field := { rw 0x10018 0 64 .now 0 with gate := .epcStopped }
def epcStartNum : Field := { rw 0x10020 0 64 .now 0 with gate := .epcStopped }
def epcTime : Field := ro 0x10028 0 64
def epcBoundary : Field := ro 0x10030 0 64

/-! 02_epochs_and_plans.md R70 -/
def plnCtrlActiveBank : Field := ro 0x20000 0 1
def plnCtrlArm : Field := rw 0x20000 1 1 .now 0
def plnLoadBank : Field := wo 0x20004 0 1
def plnLoadVerify : Field := wo 0x20004 1 1
def plnLoadInvalidate : Field := wo 0x20004 2 1
def plnStatusValid (b : Nat) : Field := ro (0x20008 + 0x4 * b) 0 1
def plnStatusVerifying (b : Nat) : Field := ro (0x20008 + 0x4 * b) 1 1
def plnStatusHdrFail (b : Nat) : Field := ro (0x20008 + 0x4 * b) 2 1
def plnStatusStepFail (b : Nat) : Field := ro (0x20008 + 0x4 * b) 3 1
def plnStatusDigestFail (b : Nat) : Field := ro (0x20008 + 0x4 * b) 4 1
def plnStatusSigFail (b : Nat) : Field := ro (0x20008 + 0x4 * b) 5 1
def plnStatusSlotCount (b : Nat) : Field := ro (0x20008 + 0x4 * b) 16 9
def plnSwitchEpoch : Field := rw 0x20010 0 64 .now 0
def plnFailIndex : Field := ro 0x20018 0 32

/-! 02_epochs_and_plans.md R71 -/
def sumpDepth (c : Nat) : Field := ro (chamberBase c + 0x800) 0 13
def sumpPeak (c : Nat) : Field := rc (chamberBase c + 0x804) 0 13

/-! 03_chamber_arithmetic.md R98 -/
def arithCtrlFtzFp8In (c : Nat) : Field := rw (chamberBase c + 0x400) 0 1 .bank 0
def arithCtrlNanFault (c : Nat) : Field := rw (chamberBase c + 0x400) 1 1 .cairn 0
def arithStatusIntSat (c : Nat) : Field := w1c (chamberBase c + 0x404) 0 1
def arithStatusFpSat (c : Nat) : Field := w1c (chamberBase c + 0x404) 1 1
def arithStatusNanOut (c : Nat) : Field := w1c (chamberBase c + 0x404) 2 1
def arithStatusPoisoned (c : Nat) : Field := w1c (chamberBase c + 0x404) 3 1
def storeErrAddr (c : Nat) : Field := ro (chamberBase c + 0x408) 0 21

/-! 05_lookup_distance_engine.md R147 -/
def ldeCtrlNonfiniteFault (c : Nat) : Field := rw (chamberBase c + 0x480) 0 1 .cairn 0
def ldeStatusBusy (c : Nat) : Field := ro (chamberBase c + 0x484) 0 1
def ldeStatusNonfinite (c : Nat) : Field := w1c (chamberBase c + 0x484) 1 1
def ldeStatusNoTable (c : Nat) : Field := w1c (chamberBase c + 0x484) 2 1
def ldeStatusOutFull (c : Nat) : Field := w1c (chamberBase c + 0x484) 3 1
def ldeStatusParity (c : Nat) : Field := w1c (chamberBase c + 0x484) 4 1
def ldeTables (c : Nat) : Field := ro (chamberBase c + 0x488) 0 64
def ldeScalesId (c : Nat) : Field := ro (chamberBase c + 0x490) 0 64
def ldeErrTid (c : Nat) : Field := ro (chamberBase c + 0x498) 0 6
def ldeErrPage (c : Nat) : Field := ro (chamberBase c + 0x498) 8 6

/-! 06_selection.md R168 -/
def selCtrlNanFault (c : Nat) : Field := rw (chamberBase c + 0x500) 0 1 .cairn 0
def selStatusBusy (c : Nat) : Field := ro (chamberBase c + 0x504) 0 1
def selStatusNanSeen (c : Nat) : Field := w1c (chamberBase c + 0x504) 1 1
def selStatusBadInput (c : Nat) : Field := w1c (chamberBase c + 0x504) 2 1
def selStatusOversize (c : Nat) : Field := w1c (chamberBase c + 0x504) 3 1

/-! 07_lists_updates_visibility.md R202 -/
def idxCtrlOpsEn : Field := rw 0x480000 0 1 .cairn 0
def idxCtrlFlowEn : Field := rw 0x480000 1 1 .cairn 0
def idxCtrlSampleEn : Field := rw 0x480000 2 1 .bank 0
def idxLists : Field := { rw 0x480004 0 21 .bank 0 with range := some (1, 1048576, 1) }
def idxCodeCodeBytes : Field := { rw 0x480008 0 13 .bank 0 with range := some (4, 4096, 4) }
def idxOpCap : Field := { rw 0x48000C 0 17 .cairn 4096 with range := some (1, 65536, 1) }
def idxSampleSampleLog2 : Field := { rw 0x480010 0 5 .bank 12 with range := some (0, 16, 1) }
def idxSampleExactCap : Field := { rw 0x480010 8 7 .cairn 0 with range := some (0, 64, 1) }
def idxFlowCompactPct : Field := { rw 0x480014 0 7 .cairn 25 with range := some (1, 100, 1) }
def idxStatusCouplePending : Field := ro 0x480018 0 1
def idxStatusListsReject : Field := w1c 0x480018 1 1
def idxStatusFlowBusy : Field := ro 0x480018 2 1
def idxDirBase : Field := { rw 0x480020 0 64 .cairn 0 with range := some (0, 2 ^ 64 - 1, 4096) }
def itemMapBase : Field := { rw 0x480028 0 64 .cairn 0 with couple := .itemMap }
def itemMapItems : Field := { rw 0x480030 0 64 .cairn 0 with couple := .itemMap }
def segBase : Field := { rw 0x480038 0 64 .cairn 0 with couple := .seg }
def segMax : Field := { rw 0x480040 0 64 .cairn 0 with range := some (0, 4294967295, 1), couple := .seg }
def tombBase : Field := rw 0x480048 0 64 .cairn 0
def sampleBase : Field := rw 0x480050 0 64 .cairn 0
def headBaseOffset : Field := { rw 0x480058 0 26 .cairn 0 with range := some (0, 67108863, 64) }

/-! 08_row_tables_and_siphon.md R228 -/
def rowCtrlRowsEn : Field := rw 0x490000 0 1 .cairn 0
def rowCtrlDripEn : Field := rw 0x490000 1 1 .cairn 0
def rowStatusDripBusy : Field := ro 0x490004 0 1
def rowStatusRedirectFull : Field := w1c 0x490004 1 1
def rowStatusSiphonLoss : Field := w1c 0x490004 2 1
def dripPeriod : Field := { rw 0x490008 0 11 .cairn 64 with range := some (1, 1024, 1) }
def rowDescBase : Field := { rw 0x490010 0 64 .cairn 0 with range := some (0, 2 ^ 64 - 1, 128) }
def hotCfgHotMin (t : Nat) : Field := rw (0x490200 + 0x10 * t) 0 16 .cairn 16
def hotCfgDecayShift (t : Nat) : Field := rw (0x490200 + 0x10 * t) 16 4 .cairn 1
def hotStrataRows (t : Nat) : Field := rw (0x490204 + 0x10 * t) 0 21 .cairn 0
def hotStackRows (t : Nat) : Field := rw (0x490208 + 0x10 * t) 0 24 .cairn 0

/-! 09_memory_tiers_and_homes.md R254 -/
def tierCtrlMovesEn : Field := rw 0x4A0000 0 1 .cairn 0
def tierStatusCouplePending : Field := ro 0x4A0004 0 1
def tierStatusMoveBusy : Field := ro 0x4A0004 1 1
def tierStatusAddrFault : Field := w1c 0x4A0004 2 1
def tierStatusQuotaRefused : Field := w1c 0x4A0004 3 1
def tierMoveRateChunks : Field := { rw 0x4A0008 0 16 .cairn 4096 with range := some (1, 65535, 1) }
def homeBase : Field := { rw 0x4A0010 0 64 .cairn 0 with couple := .home }
def homeCount : Field := { rw 0x4A0018 0 64 .cairn 0 with range := some (1, 1028096, 1), couple := .home }
def tierAddrFault : Field := ro 0x4A0020 0 64

/-! 09_memory_tiers_and_homes.md R256 -/
def tntStrataLimit (t : Nat) : Field := rw (0x190000 + 0x40 * t) 0 64 .cairn 0
def tntStackLimit (t : Nat) : Field := rw (0x190008 + 0x40 * t) 0 64 .cairn 0
def tntFlashLimit (t : Nat) : Field := rw (0x190010 + 0x40 * t) 0 64 .cairn 0
def tntItemLimit (t : Nat) : Field := rw (0x190018 + 0x40 * t) 0 64 .cairn 0
def tntStrataUsed (t : Nat) : Field := ro (0x190020 + 0x40 * t) 0 64
def tntStackUsed (t : Nat) : Field := ro (0x190028 + 0x40 * t) 0 64
def tntFlashUsed (t : Nat) : Field := ro (0x190030 + 0x40 * t) 0 64
def tntItemsLive (t : Nat) : Field := ro (0x190038 + 0x40 * t) 0 64
def sysUsed (tier : Nat) : Field := ro (0x191000 + 0x8 * tier) 0 64

/-! 10_in_stack_processing.md R283 -/
def stkCtrlPimEn (s : Nat) : Field := rw (0x200000 + 0x10000 * s) 0 1 .cairn 0
def stkCtrlRateFloor (s : Nat) : Field := { rw (0x200000 + 0x10000 * s) 1 2 .cairn 0 with range := some (0, 2, 1) }
def stkStatusTrained (s : Nat) : Field := ro (0x200004 + 0x10000 * s) 0 1
def stkStatusPimBusy (s : Nat) : Field := ro (0x200004 + 0x10000 * s) 1 1
def stkStatusSealBusy (s : Nat) : Field := ro (0x200004 + 0x10000 * s) 2 1
def stkStatusThrottled (s : Nat) : Field := ro (0x200004 + 0x10000 * s) 3 1
def stkStatusHalted (s : Nat) : Field := ro (0x200004 + 0x10000 * s) 4 1
def stkStatusCouplePending (s : Nat) : Field := ro (0x200004 + 0x10000 * s) 5 1
def stkStatusModeReject (s : Nat) : Field := w1c (0x200004 + 0x10000 * s) 6 1
def stkThermalThrottleC (s : Nat) : Field := { rw (0x200008 + 0x10000 * s) 0 8 .cairn 95 with couple := .stkThermal s }
def stkThermalHaltC (s : Nat) : Field := { rw (0x200008 + 0x10000 * s) 8 8 .cairn 98 with couple := .stkThermal s }
def stkThermalResumeC (s : Nat) : Field := { rw (0x200008 + 0x10000 * s) 16 8 .cairn 93 with couple := .stkThermal s }
def stkThermalThrottlePct (s : Nat) : Field := { rw (0x200008 + 0x10000 * s) 24 7 .cairn 25 with range := some (1, 100, 1) }
def stkRate (s : Nat) : Field := ro (0x20000C + 0x10000 * s) 0 32
def stkTemp (s i : Nat) : Field := ro (0x200010 + 0x10000 * s + 0x4 * i) 0 32
def stkPostponed (s : Nat) : Field := ro (0x200020 + 0x10000 * s) 0 64
def stkErrAddr (s : Nat) : Field := ro (0x200028 + 0x10000 * s) 0 64
def stkQueueDepth (s : Nat) : Field := ro (0x200030 + 0x10000 * s) 0 5
def stkMode (s j : Nat) : Field := rw (0x204000 + 0x10000 * s + 0x4 * j) 0 32 .cairn 0

/-! 11_flash_translation.md R313 -/
def flsCtrlBgEn : Field := rw 0x140000 0 1 .cairn 1
def flsCtrlWriteEn : Field := rw 0x140000 1 1 .cairn 0
def flsStatusReady : Field := ro 0x140004 0 1
def flsStatusReadOnly : Field := ro 0x140004 1 1
def flsStatusCouplePending : Field := ro 0x140004 2 1
def flsStatusReserveLow : Field := w1c 0x140004 3 1
def flsStatusMapRebuilt : Field := w1c 0x140004 4 1
def flsStatusOffline : Field := ro 0x140004 5 1
def flsGeomCell : Field := ro 0x140008 0 2
def flsGeomCes : Field := ro 0x140008 2 3
def flsGeomLuns : Field := ro 0x140008 5 2
def flsGeomPlanes : Field := ro 0x140008 7 2
def flsBlocksBlocksPerLun : Field := ro 0x14000C 0 16
def flsBlocksSlcPages : Field := ro 0x14000C 16 16
def flsPoolsSlcPct : Field := ro 0x140010 0 5
def flsPoolsOpPct : Field := ro 0x140010 8 6
def flsWearWearSpread : Field := { rw 0x140014 0 16 .cairn 200 with range := some (16, 65535, 1) }
def flsGcGcLow : Field := { rw 0x140018 0 16 .cairn 64 with couple := .flsGc }
def flsGcGcCrit : Field := { rw 0x140018 16 16 .cairn 16 with couple := .flsGc }
def flsReadRetryMax : Field := { rw 0x14001C 0 4 .cairn 8 with range := some (1, 15, 1) }
def flsReadSuspendMax : Field := rw 0x14001C 4 4 .cairn 4
def flsReadRelocatePct : Field := { rw 0x14001C 8 7 .cairn 75 with range := some (10, 100, 1) }
def flsCkptCkptEpochs : Field := { rw 0x140020 0 16 .cairn 4096 with range := some (64, 65535, 1) }
def flsLbCount : Field := ro 0x140028 0 64
def flsLbBytes : Field := ro 0x140030 0 64
def flsMapBase : Field := ro 0x140038 0 64
def flsPbtBase : Field := ro 0x140040 0 64
def flsErr : Field := ro 0x140048 0 64
def chStatusTrained (c : Nat) : Field := ro (0x141000 + 0x20 * c) 0 1
def chStatusReadOnly (c : Nat) : Field := ro (0x141000 + 0x20 * c) 1 1
def chStatusOffline (c : Nat) : Field := ro (0x141000 + 0x20 * c) 2 1
def chStatusRate (c : Nat) : Field := ro (0x141000 + 0x20 * c) 3 2
def chFreeCount (c : Nat) : Field := ro (0x141004 + 0x20 * c) 0 20
def chSpareCount (c : Nat) : Field := ro (0x141008 + 0x20 * c) 0 20
def chSlcFreeCount (c : Nat) : Field := ro (0x14100C + 0x20 * c) 0 20
def chEcMinCount (c : Nat) : Field := ro (0x141010 + 0x20 * c) 0 24
def chEcMaxCount (c : Nat) : Field := ro (0x141014 + 0x20 * c) 0 24
def chLogsCount (c : Nat) : Field := ro (0x141018 + 0x20 * c) 0 5

/-! 12_check_value_units.md R326 -/
def cvuStatusCouplePending : Field := ro 0x60000 0 1
def cvuStatusDisagree : Field := w1c 0x60000 1 1
def cvuSelftestFail : Field := ro 0x60004 0 16
def cvuCfgEnable (u : Nat) : Field := { rw (0x60100 + 0x40 * u) 0 1 .cairn (if u < 8 then 1 else 0) with couple := .cvuCfg }
def cvuCfgTap (u : Nat) : Field := { rw (0x60100 + 0x40 * u) 1 3 .cairn (u % 8) with couple := .cvuCfg }
def cvuCfgPoly (u : Nat) : Field := { rw (0x60100 + 0x40 * u) 4 2 .cairn 2 with couple := .cvuCfg }
def cvuLast (u : Nat) : Field := ro (0x60108 + 0x40 * u) 0 64

/-! 13_fabric_links_and_transport.md R355 -/
def fabCtrlPortEn : Field := rw 0xC0000 0 8 .now 255
def fabCtrlTagEn : Field := rw 0xC0000 8 1 .cairn 0
def fabCtrlTimeEn : Field := rw 0xC0000 9 1 .cairn 0
def fabCtrlTimeMaster : Field := rw 0xC0000 10 1 .cairn 0
def fabNodeNodeId : Field := { rw 0xC0004 0 16 .now 0 with gate := .portsOff }
def fabVlanVid : Field := rw 0xC0008 0 12 .cairn 0
def fabVlanPcp : Field := rw 0xC0008 12 3 .cairn 0
def fabStatusPortUp : Field := ro 0xC000C 0 8
def fabStatusTimeLocked : Field := ro 0xC000C 8 1
def fabStatusCouplePending : Field := ro 0xC000C 9 1
def fabReliableRetxUs : Field := { rw 0xC0010 0 8 .cairn 40 with range := some (1, 255, 1), couple := .fabReliable }
def fabReliableRetxMax : Field := { rw 0xC0010 8 4 .cairn 8 with range := some (1, 15, 1) }
def fabReliableAckUs : Field := { rw 0xC0010 12 8 .cairn 4 with range := some (1, 255, 1), couple := .fabReliable }
def fabTimeCfgStepNs : Field := { rw 0xC0014 0 16 .cairn 1000 with range := some (1, 65535, 1) }
def fabTimeCfgTimePeriod : Field := { rw 0xC0014 16 8 .cairn 10 with range := some (1, 255, 1) }
def fabTimeCfgLossPeriods : Field := { rw 0xC0014 24 8 .cairn 8 with range := some (1, 255, 1) }
def fabTimeSourcePeer : Field := rw 0xC0018 0 12 .cairn 0
def fabTimeOffset : Field := ro 0xC0020 0 64
def fabTimeRate : Field := ro 0xC0028 0 32
def portStatusState (p : Nat) : Field := ro (0xC1000 + 0x40 * p) 0 3
def portStatusSpeed (p : Nat) : Field := ro (0xC1000 + 0x40 * p) 3 2
def portStatusFecDegraded (p : Nat) : Field := w1c (0xC1000 + 0x40 * p) 5 1
def portPathDelay (p : Nat) : Field := ro (0xC1004 + 0x40 * p) 0 32
def portDelayAdj (p : Nat) : Field := rw (0xC1008 + 0x40 * p) 0 32 .cairn 0
def peerCfgNode (i : Nat) : Field := rw (0xE0000 + 0x10 * i) 0 16 .cairn 0
def peerCfgPort (i : Nat) : Field := rw (0xE0000 + 0x10 * i) 16 3 .cairn 0
def peerCfgValid (i : Nat) : Field := rw (0xE0000 + 0x10 * i) 19 1 .cairn 0
def peerMacLo (i : Nat) : Field := rw (0xE0004 + 0x10 * i) 0 32 .cairn 0
def peerMacHiMac (i : Nat) : Field := rw (0xE0008 + 0x10 * i) 0 16 .cairn 0
def peerStatusReachable (i : Nat) : Field := ro (0xE000C + 0x10 * i) 0 1
def peerStatusLoss (i : Nat) : Field := w1c (0xE000C + 0x10 * i) 1 1

/-! 14_egress_scheduling.md R371 -/
def egsStatusCouplePending : Field := ro 0x80000 0 8
def egsStatusS0Drop : Field := w1c 0x80000 8 1
def egsSamplePeriod : Field := { rw 0x80004 0 8 .cairn 8 with range := some (1, 255, 1) }
def egsTenantMapQr (t : Nat) : Field := { rw (0x80040 + 0x4 * t) 0 4 .cairn 0 with range := some (0, 11, 1) }
def egsTenantMapBulk (t : Nat) : Field := { rw (0x80040 + 0x4 * t) 4 4 .cairn 8 with range := some (0, 11, 1) }

/-! 14_egress_scheduling.md R372 -/
def egsPortCfgOverhead (p : Nat) : Field := { rw (0x81000 + 0x1000 * p) 0 9 .cairn 20 with couple := .egsPort p, gate := .signed9 }
def egsQlimitKib (p q : Nat) : Field := { rw (0x81040 + 0x1000 * p + 0x4 * q) 0 13 .cairn (if q = 0 then 1024 else if q = 1 then 64 else if q = 2 then 256 else if q = 3 then 64 else 224) with couple := .egsPort p }
def egsWCfgQuantum (p w : Nat) : Field := { rw (0x81080 + 0x1000 * p + 0x4 * w) 0 16 .cairn 9216 with couple := .egsPort p }
def egsWCfgAgeUs (p w : Nat) : Field := { rw (0x81080 + 0x1000 * p + 0x4 * w) 16 16 .cairn 200 with range := some (1, 65535, 1) }
def egsRate (p k : Nat) : Field := { rw (0x810C0 + 0x1000 * p + 0x8 * k) 0 20 .refill (if k = 0 then 8000 else 40000) with range := some (0, 800000, 1) }
def egsBurst (p k : Nat) : Field := { rw (0x810C4 + 0x1000 * p + 0x8 * k) 0 25 .refill 65536 with range := some (16384, 16777216, 1) }
def tntRate (p t : Nat) : Field := { rw (0x81100 + 0x1000 * p + 0x8 * t) 0 20 .refill 0 with range := some (0, 800000, 1) }
def tntBurst (p t : Nat) : Field := { rw (0x81104 + 0x1000 * p + 0x8 * t) 0 25 .refill 1048576 with range := some (16384, 16777216, 1) }

/-! 15_pools_tenants_metering.md R393 -/
def tntCtrlMeterEn : Field := rw 0x180000 0 1 .cairn 1
def tntCtrlPoolEn : Field := rw 0x180000 1 1 .cairn 0
def tntStatusCouplePending : Field := ro 0x180004 0 1
def tntStatusMapPending : Field := ro 0x180004 1 1
def tntStatusRoleMismatch : Field := w1c 0x180004 2 1
def tntStatusFallback : Field := ro 0x180004 3 1
def tntStatusMapHalf : Field := ro 0x180004 4 1
def poolMapVersionCurrent : Field := ro 0x180008 0 16
def poolMapVersionPending : Field := ro 0x180008 16 16
def poolRole : Field := ro 0x18000C 0 2
def poolMapEffective : Field := ro 0x180010 0 64
def poolMapBase : Field := { rw 0x180018 0 64 .cairn 0 with couple := .poolMap }
def poolMapLenBytes : Field := { rw 0x180020 0 24 .cairn 0 with couple := .poolMap }
def poolSelfMember : Field := ro 0x180024 0 16
def tenantCfgEnable (t : Nat) : Field := rw (0x180040 + 0x4 * t) 0 1 .cairn 0
def tenantCfgOpsEn (t : Nat) : Field := rw (0x180040 + 0x4 * t) 1 1 .cairn 0
def tenantCfgTokensEn (t : Nat) : Field := rw (0x180040 + 0x4 * t) 2 1 .cairn 0
def tenantCfgQueryCap (t : Nat) : Field := rw (0x180040 + 0x4 * t) 16 16 .cairn 0
def energyCoef (i : Nat) : Field := ro (0x180180 + 0x4 * i) 0 32

/-! 16_host_attachment.md R412 -/
def ringCtrlEnable (f r : Nat) : Field := rw (0x110000 + 0x1000 * f + 0x40 * r) 0 1 .now 0
def ringCtrlClass (f r : Nat) : Field := { rw (0x110000 + 0x1000 * f + 0x40 * r) 1 2 .now 0 with range := some (0, 2, 1), gate := .ring f r }
def ringCtrlSqSize (f r : Nat) : Field := { rw (0x110000 + 0x1000 * f + 0x40 * r) 3 5 .now 4 with range := some (4, 16, 1), gate := .ring f r }
def ringCtrlCqSize (f r : Nat) : Field := { rw (0x110000 + 0x1000 * f + 0x40 * r) 8 5 .now 4 with range := some (4, 16, 1), gate := .ring f r }
def ringCtrlVector (f r : Nat) : Field := { rw (0x110000 + 0x1000 * f + 0x40 * r) 13 6 .now 0 with gate := .ring f r }
def ringStatusError (f r : Nat) : Field := ro (0x110004 + 0x1000 * f + 0x40 * r) 0 1
def ringIntIntCount (f r : Nat) : Field := { rw (0x110008 + 0x1000 * f + 0x40 * r) 0 16 .now 1 with range := some (1, 65535, 1), gate := .ring f r }
def ringIntIntUs (f r : Nat) : Field := { rw (0x110008 + 0x1000 * f + 0x40 * r) 16 16 .now 10 with gate := .ring f r }
def sqBase (f r : Nat) : Field := { rw (0x110010 + 0x1000 * f + 0x40 * r) 0 64 .now 0 with range := some (0, 2 ^ 64 - 1, 4096), gate := .ring f r }
def cqBase (f r : Nat) : Field := { rw (0x110018 + 0x1000 * f + 0x40 * r) 0 64 .now 0 with range := some (0, 2 ^ 64 - 1, 4096), gate := .ring f r }
def ringPtrsSqHead (f r : Nat) : Field := ro (0x110020 + 0x1000 * f + 0x40 * r) 0 16
def ringPtrsCqTail (f r : Nat) : Field := ro (0x110020 + 0x1000 * f + 0x40 * r) 16 16

/-! 16_host_attachment.md R413 -/
def hstStatusRate : Field := ro 0x100000 0 3
def hstStatusWidth : Field := ro 0x100000 3 5
def hstStatusIdeSecure : Field := ro 0x100000 8 1
def hstStatusDebugEn : Field := ro 0x100000 9 1
def hstMirrorMirrorEn : Field := rw 0x100004 0 1 .now 0
def hstMirrorSize : Field := { rw 0x100004 1 5 .now 8 with range := some (4, 16, 1) }
def hstMirrorBase : Field := { rw 0x100008 0 64 .now 0 with range := some (0, 2 ^ 64 - 1, 4096) }
def hstMirrorHead : Field := rw 0x100010 0 16 .now 0
def hstMirrorHeadTail : Field := ro 0x100010 16 16
def hstVfTenant (v : Nat) : Field := { rw (0x100104 + 0x4 * v) 0 6 .now 0 with gate := .vfRings (v + 1) }

/-! 17_power_droop_thermal.md R437 -/
def pwrCtrlFillerEn : Field := rw 0x40000 0 1 .cairn 1
def pwrCtrlStepReqEn : Field := rw 0x40000 1 1 .cairn 1
def pwrStatusOpp : Field := ro 0x40004 0 3
def pwrStatusStepping : Field := ro 0x40004 3 1
def pwrStatusCapping : Field := ro 0x40004 4 1
def pwrStatusStepReq : Field := ro 0x40004 5 1
def pwrStatusThermalWarn : Field := ro 0x40004 6 1
def pwrStatusCouplePending : Field := ro 0x40004 7 1
def pwrStatusOvercurrent : Field := w1c 0x40004 8 1
def pwrCapCapW : Field := { rw 0x40008 0 11 .cairn 1200 with range := some (450, 1400, 1) }
def pwrOppCmdTarget : Field := { rw 0x4000C 0 3 .cairn 0 with couple := .pwrOpp }
def pwrOppStart : Field := { rw 0x40010 0 64 .cairn 0 with couple := .pwrOpp }
def pwrFillerFloorPct : Field := { rw 0x40018 0 7 .cairn 80 with range := some (0, 100, 1) }
def pwrFillerSlope : Field := { rw 0x40018 8 4 .cairn 10 with range := some (1, 10, 1) }
def pwrFillerRampEpochs : Field := { rw 0x40018 16 16 .cairn 64 with range := some (64, 65535, 1) }
def pwrFillerKinds : Field := rw 0x4001C 0 3 .cairn 7
def pwrRampTargetTargetCa : Field := rw 0x40020 0 16 .now 0
def pwrDroopDroopMv : Field := { rw 0x40024 0 6 .cairn 30 with range := some (10, 60, 1) }
def pwrThermalTjWarn : Field := { rw 0x40028 0 8 .cairn 100 with couple := .pwrTj }
def pwrThermalTjResume : Field := { rw 0x40028 8 8 .cairn 97 with couple := .pwrTj }
def pwrThermalStrataWarn : Field := { rw 0x40028 16 8 .cairn 90 with range := some (80, 94, 1) }
def pwrStepreqReqG : Field := { rw 0x4002C 0 6 .cairn 8 with range := some (1, 63, 1) }
def pwrStepreqReqEpochs : Field := { rw 0x4002C 8 8 .cairn 8 with range := some (1, 255, 1) }
def pwrGateG : Field := ro 0x40030 0 6
def pwrInputVinMv : Field := ro 0x40034 0 16
def pwrInputIinCa : Field := ro 0x40034 16 16
def pwrPowerPinDw : Field := ro 0x40038 0 16
def pwrTempMax : Field := ro 0x4003C 0 32
def pwrTempJ (i : Nat) : Field := ro (0x40040 + 0x4 * i) 0 32
def pwrTempS (i : Nat) : Field := ro (0x40060 + 0x4 * i) 0 32
def pwrRailsGood : Field := ro 0x40070 0 11

/-! 17_power_droop_thermal.md R439 -/
def aonCtrlWake : Field := rw 0x50000 0 5 .now 24
def aonCtrlTripTemp : Field := rw 0x50000 5 1 .now 1
def aonCtrlTripAux : Field := rw 0x50000 6 1 .now 0
def aonStatusWakeCause : Field := ro 0x50004 0 3
def aonStatusSleepCause : Field := ro 0x50004 4 3
def aonStatusTripped : Field := ro 0x50004 8 3
def aonCmpVinLevelMv : Field := { rw 0x50008 0 16 .now 34000 with range := some (30000, 40000, 1) }
def aonCmpVinHyst : Field := rw 0x50008 16 8 .now 10
def aonCmpTempLevelC : Field := rw 0x5000C 0 8 .now 85
def aonCmpTempHystC : Field := rw 0x5000C 8 8 .now 5
def aonCmpAuxLevel : Field := { rw 0x50010 0 11 .now 900 with range := some (0, 1800, 1) }
def aonCmpAuxHyst : Field := rw 0x50010 11 8 .now 50
def aonCmpAuxPol : Field := rw 0x50010 19 1 .now 0
def aonRtc : Field := ro 0x50018 0 64
def aonTimeHold : Field := ro 0x50020 0 64

/-! 18_faults_and_failover.md R459 -/
def fltCtrlWithdrawEn : Field := rw 0x2000 0 1 .cairn 1
def fltStatusStraggler : Field := ro 0x2004 0 1
def fltStatusWithdrawn : Field := ro 0x2004 1 1
def fltStatusOverflow : Field := w1c 0x2004 2 1
def fltStatusCouplePending : Field := ro 0x2004 3 1
def fltStatusPairs : Field := ro 0x2004 4 4 15
def fltStraggleStraggleMisses : Field := { rw 0x2008 0 8 .cairn 8 with range := some (1, 255, 1) }
def fltStraggleStraggleWindow : Field := { rw 0x2008 8 8 .cairn 64 with range := some (8, 255, 1) }
def fltStraggleSwapPeriod : Field := { rw 0x2008 16 16 .cairn 64 with range := some (1, 65535, 1) }
def fltRepeatRepeatN : Field := { rw 0x200C 0 8 .cairn 4 with range := some (2, 255, 1) }
def fltRepeatRepeatEpochs : Field := { rw 0x200C 8 16 .cairn 64 with range := some (1, 65535, 1) }
def fltLogBase : Field := { rw 0x2010 0 64 .cairn 0 with couple := .fltLog }
def fltLogSize : Field := { rw 0x2018 0 5 .cairn 12 with range := some (8, 20, 1), couple := .fltLog }
def fltWdtWdtUs : Field := { rw 0x201C 0 16 .now 10000 with range := some (100, 65535, 1) }
def fltSeq : Field := ro 0x2020 0 64
def fltDomainATray : Field := rw 0x2028 0 16 .cairn 0
def fltDomainAShelf : Field := rw 0x2028 16 16 .cairn 0
def fltDomainBLoop : Field := rw 0x202C 0 16 .cairn 0
def fltDomainBSwitch : Field := rw 0x202C 16 16 .cairn 0
def fltLogRead : Field := { rw 0x2030 0 64 .now 0 with gate := .fltRead }

/-! 19_start_configuration_identity.md R488 -/
def btStateCmd : Field := wo 0x3000 0 4
def btStatusImageValid : Field := ro 0x3004 0 1
def btStatusOperator : Field := ro 0x3004 1 1
def btStatusIdValid : Field := ro 0x3004 2 1
def btStatusStaged : Field := ro 0x3004 3 1
def btStatusFromStaging : Field := ro 0x3004 4 1
def btStatusIneligible : Field := ro 0x3004 5 1
def btStatusStateRefused : Field := w1c 0x3004 6 1
def btFailCheck : Field := ro 0x3008 0 4
def btFailStep : Field := ro 0x3008 4 4
def btFailSection : Field := ro 0x3008 8 5
def btFailCode : Field := ro 0x3008 16 16
def btTrainTimeoutMs : Field := { rw 0x300C 0 16 .now 10000 with range := some (1000, 65535, 1) }
def btImageVersion : Field := ro 0x3010 0 64
def btBuildId : Field := ro 0x3018 0 64
def btNorSizeLog2 : Field := ro 0x3020 0 5
def btNorRequireImage : Field := ro 0x3020 5 1
def btNorLockKey : Field := ro 0x3020 6 1
def btSerial (i : Nat) : Field := ro (0x3030 + 0x4 * i) 0 32
def btIdHash (i : Nat) : Field := ro (0x3040 + 0x4 * i) 0 32

/-! 21_register_map.md R507 -/
def glbIdPart : Field := ro 0x0 0 16 0x9120
def glbIdLine : Field := ro 0x0 16 16 0x0A4B
def glbRevDieStep : Field := ro 0x4 0 8 0x01
def glbRevPkgStep : Field := ro 0x4 8 8 0x01
def glbRevRomVer : Field := ro 0x4 16 8 0x01
def glbCapsChambers : Field := ro 0x8 0 9 256
def glbCapsStacks : Field := ro 0x8 9 4 12
def glbCapsChannels : Field := ro 0x8 13 6 32
def glbCapsPorts : Field := ro 0x8 19 4 8
def glbMemStrataMib : Field := ro 0xC 0 16 16384
def glbMemStackGib : Field := ro 0xC 16 16 576
def glbState : Field := ro 0x10 0 4 1
def glbStatePrevious : Field := ro 0x10 4 4
def glbStateChanging : Field := ro 0x10 8 1
def glbStateSince : Field := ro 0x18 0 64
def glbScratch (i : Nat) : Field := rw (0x20 + 0x4 * i) 0 32 .now 0
def glbAccessBadAccess : Field := w1c 0x30 0 1
def glbAccessUnmapped : Field := w1c 0x30 1 1
def glbAccessAddrOffset : Field := ro 0x34 0 26

/-! 21_register_map.md R510 -/
def strCtrlScrubEn : Field := rw 0x1000000 0 1 .cairn 1
def strStatusScrubBusy : Field := ro 0x1000004 0 1
def strStatusRepairPending : Field := ro 0x1000004 1 1
def strStatusSparesLow : Field := w1c 0x1000004 2 1
def strScrubPassEpochs : Field := { rw 0x1000008 0 16 .cairn 4096 with range := some (64, 65535, 1) }
def strScrubRepairAfter : Field := { rw 0x1000008 16 8 .cairn 4 with range := some (1, 255, 1) }
def strSpares : Field := ro 0x100000C 0 32 0xFFFFFFFF
def strErrAddr : Field := ro 0x1000010 0 64
/-- Observation registers of queue `q` of port `p` (R372, R375): `k` = 0 to 5 for DEPTH_MIN to DELAY_MEAN. -/
def egsObs (p q k : Nat) : Field := ro (0x81400 + 0x1000 * p + 0x20 * q + 0x4 * k) 0 32
/-- The RATE and BURST of peer `i`'s bucket (R373). -/
def egsPeerRate (i : Nat) : Field := { rw (0x90000 + 0x8 * i) 0 20 .refill 0 with range := some (0, 800000, 1) }
def egsPeerBurst (i : Nat) : Field := { rw (0x90004 + 0x8 * i) 0 25 .refill 1048576 with range := some (16384, 16777216, 1) }

/-- One line of the address table: where its first instance lies, the strides and counts of its
repetitions, and the field of given indices. -/
structure Row where
  base : Nat
  dims : List (Nat × Nat)
  field : List Nat → Field

def row0 (f : Field) : Row := { base := f.off, dims := [], field := fun _ => f }
def row1 (stride count : Nat) (f : Nat → Field) : Row :=
  { base := (f 0).off, dims := [(stride, count)], field := fun i => f (i.getD 0 0) }
def row2 (s₁ c₁ s₂ c₂ : Nat) (f : Nat → Nat → Field) : Row :=
  { base := (f 0 0).off, dims := [(s₁, c₁), (s₂, c₂)], field := fun i => f (i.getD 0 0) (i.getD 1 0) }
def rowCh (f : Nat → Field) : Row :=
  { base := (f 0).off, dims := [(0x100000, 4), (0x1000, 64)], field := fun i => f (64 * i.getD 0 0 + i.getD 1 0) }

/-- The indices that place offset `o` (relative to a base) exactly, if any. -/
def indices : List (Nat × Nat) → Nat → Option (List Nat)
  | [], o => if o = 0 then some [] else none
  | (s, c) :: rest, o => if o / s < c then (indices rest (o % s)).map (o / s :: ·) else none

/-- The field of this row that starts at BAR0 offset `o`. -/
def Row.find (r : Row) (o : Nat) : Option Field :=
  if o < r.base then none else (indices r.dims (o - r.base)).map r.field

def rowsR69 : List Row := [
  row0 epcCtrlEnable, row0 epcCtrlSyncEn, row0 epcCtrlSyncEdge,
  row0 epcCtrlStartOnSync, row0 epcLenLength, row0 epcStatusRunning,
  row0 epcStatusLate, row0 epcStatusCouplePending, row0 epcStatusLenReject,
  row0 epcStatusSyncSeen, row0 epcSyncOffset, row0 epcNumber,
  row0 epcStartTime, row0 epcStartNum, row0 epcTime,
  row0 epcBoundary]

def rowsR70 : List Row := [
  row0 plnCtrlActiveBank, row0 plnCtrlArm, row0 plnLoadBank,
  row0 plnLoadVerify, row0 plnLoadInvalidate, row1 0x4 2 plnStatusValid,
  row1 0x4 2 plnStatusVerifying, row1 0x4 2 plnStatusHdrFail, row1 0x4 2 plnStatusStepFail,
  row1 0x4 2 plnStatusDigestFail, row1 0x4 2 plnStatusSigFail, row1 0x4 2 plnStatusSlotCount,
  row0 plnSwitchEpoch, row0 plnFailIndex]

def rowsR71 : List Row := [
  rowCh sumpDepth, rowCh sumpPeak]

def rowsR98 : List Row := [
  rowCh arithCtrlFtzFp8In, rowCh arithCtrlNanFault, rowCh arithStatusIntSat,
  rowCh arithStatusFpSat, rowCh arithStatusNanOut, rowCh arithStatusPoisoned,
  rowCh storeErrAddr]

def rowsR147 : List Row := [
  rowCh ldeCtrlNonfiniteFault, rowCh ldeStatusBusy, rowCh ldeStatusNonfinite,
  rowCh ldeStatusNoTable, rowCh ldeStatusOutFull, rowCh ldeStatusParity,
  rowCh ldeTables, rowCh ldeScalesId, rowCh ldeErrTid,
  rowCh ldeErrPage]

def rowsR168 : List Row := [
  rowCh selCtrlNanFault, rowCh selStatusBusy, rowCh selStatusNanSeen,
  rowCh selStatusBadInput, rowCh selStatusOversize]

def rowsR202 : List Row := [
  row0 idxCtrlOpsEn, row0 idxCtrlFlowEn, row0 idxCtrlSampleEn,
  row0 idxLists, row0 idxCodeCodeBytes, row0 idxOpCap,
  row0 idxSampleSampleLog2, row0 idxSampleExactCap, row0 idxFlowCompactPct,
  row0 idxStatusCouplePending, row0 idxStatusListsReject, row0 idxStatusFlowBusy,
  row0 idxDirBase, row0 itemMapBase, row0 itemMapItems,
  row0 segBase, row0 segMax, row0 tombBase,
  row0 sampleBase, row0 headBaseOffset]

def rowsR228 : List Row := [
  row0 rowCtrlRowsEn, row0 rowCtrlDripEn, row0 rowStatusDripBusy,
  row0 rowStatusRedirectFull, row0 rowStatusSiphonLoss, row0 dripPeriod,
  row0 rowDescBase, row1 0x10 64 hotCfgHotMin, row1 0x10 64 hotCfgDecayShift,
  row1 0x10 64 hotStrataRows, row1 0x10 64 hotStackRows]

def rowsR254 : List Row := [
  row0 tierCtrlMovesEn, row0 tierStatusCouplePending, row0 tierStatusMoveBusy,
  row0 tierStatusAddrFault, row0 tierStatusQuotaRefused, row0 tierMoveRateChunks,
  row0 homeBase, row0 homeCount, row0 tierAddrFault]

def rowsR256 : List Row := [
  row1 0x40 64 tntStrataLimit, row1 0x40 64 tntStackLimit, row1 0x40 64 tntFlashLimit,
  row1 0x40 64 tntItemLimit, row1 0x40 64 tntStrataUsed, row1 0x40 64 tntStackUsed,
  row1 0x40 64 tntFlashUsed, row1 0x40 64 tntItemsLive, row1 0x8 3 sysUsed]

def rowsR283 : List Row := [
  row1 0x10000 12 stkCtrlPimEn, row1 0x10000 12 stkCtrlRateFloor, row1 0x10000 12 stkStatusTrained,
  row1 0x10000 12 stkStatusPimBusy, row1 0x10000 12 stkStatusSealBusy, row1 0x10000 12 stkStatusThrottled,
  row1 0x10000 12 stkStatusHalted, row1 0x10000 12 stkStatusCouplePending, row1 0x10000 12 stkStatusModeReject,
  row1 0x10000 12 stkThermalThrottleC, row1 0x10000 12 stkThermalHaltC, row1 0x10000 12 stkThermalResumeC,
  row1 0x10000 12 stkThermalThrottlePct, row1 0x10000 12 stkRate, row2 0x10000 12 0x4 4 stkTemp,
  row1 0x10000 12 stkPostponed, row1 0x10000 12 stkErrAddr, row1 0x10000 12 stkQueueDepth,
  row2 0x10000 12 0x4 3072 stkMode]

def rowsR313 : List Row := [
  row0 flsCtrlBgEn, row0 flsCtrlWriteEn, row0 flsStatusReady,
  row0 flsStatusReadOnly, row0 flsStatusCouplePending, row0 flsStatusReserveLow,
  row0 flsStatusMapRebuilt, row0 flsStatusOffline, row0 flsGeomCell,
  row0 flsGeomCes, row0 flsGeomLuns, row0 flsGeomPlanes,
  row0 flsBlocksBlocksPerLun, row0 flsBlocksSlcPages, row0 flsPoolsSlcPct,
  row0 flsPoolsOpPct, row0 flsWearWearSpread, row0 flsGcGcLow,
  row0 flsGcGcCrit, row0 flsReadRetryMax, row0 flsReadSuspendMax,
  row0 flsReadRelocatePct, row0 flsCkptCkptEpochs, row0 flsLbCount,
  row0 flsLbBytes, row0 flsMapBase, row0 flsPbtBase,
  row0 flsErr, row1 0x20 32 chStatusTrained, row1 0x20 32 chStatusReadOnly,
  row1 0x20 32 chStatusOffline, row1 0x20 32 chStatusRate, row1 0x20 32 chFreeCount,
  row1 0x20 32 chSpareCount, row1 0x20 32 chSlcFreeCount, row1 0x20 32 chEcMinCount,
  row1 0x20 32 chEcMaxCount, row1 0x20 32 chLogsCount]

def rowsR326 : List Row := [
  row0 cvuStatusCouplePending, row0 cvuStatusDisagree, row0 cvuSelftestFail,
  row1 0x40 16 cvuCfgEnable, row1 0x40 16 cvuCfgTap, row1 0x40 16 cvuCfgPoly,
  row1 0x40 16 cvuLast]

def rowsR355 : List Row := [
  row0 fabCtrlPortEn, row0 fabCtrlTagEn, row0 fabCtrlTimeEn,
  row0 fabCtrlTimeMaster, row0 fabNodeNodeId, row0 fabVlanVid,
  row0 fabVlanPcp, row0 fabStatusPortUp, row0 fabStatusTimeLocked,
  row0 fabStatusCouplePending, row0 fabReliableRetxUs, row0 fabReliableRetxMax,
  row0 fabReliableAckUs, row0 fabTimeCfgStepNs, row0 fabTimeCfgTimePeriod,
  row0 fabTimeCfgLossPeriods, row0 fabTimeSourcePeer, row0 fabTimeOffset,
  row0 fabTimeRate, row1 0x40 8 portStatusState, row1 0x40 8 portStatusSpeed,
  row1 0x40 8 portStatusFecDegraded, row1 0x40 8 portPathDelay, row1 0x40 8 portDelayAdj,
  row1 0x10 4096 peerCfgNode, row1 0x10 4096 peerCfgPort, row1 0x10 4096 peerCfgValid,
  row1 0x10 4096 peerMacLo, row1 0x10 4096 peerMacHiMac, row1 0x10 4096 peerStatusReachable,
  row1 0x10 4096 peerStatusLoss]

def rowsR371 : List Row := [
  row0 egsStatusCouplePending, row0 egsStatusS0Drop, row0 egsSamplePeriod,
  row1 0x4 64 egsTenantMapQr, row1 0x4 64 egsTenantMapBulk]

def rowsR372 : List Row := [
  row1 0x1000 8 egsPortCfgOverhead, row2 0x1000 8 0x4 16 egsQlimitKib, row2 0x1000 8 0x4 12 egsWCfgQuantum,
  row2 0x1000 8 0x4 12 egsWCfgAgeUs, row2 0x1000 8 0x8 2 egsRate, row2 0x1000 8 0x8 2 egsBurst,
  row2 0x1000 8 0x8 64 tntRate, row2 0x1000 8 0x8 64 tntBurst]

def rowsR393 : List Row := [
  row0 tntCtrlMeterEn, row0 tntCtrlPoolEn, row0 tntStatusCouplePending,
  row0 tntStatusMapPending, row0 tntStatusRoleMismatch, row0 tntStatusFallback,
  row0 tntStatusMapHalf, row0 poolMapVersionCurrent, row0 poolMapVersionPending,
  row0 poolRole, row0 poolMapEffective, row0 poolMapBase,
  row0 poolMapLenBytes, row0 poolSelfMember, row1 0x4 64 tenantCfgEnable,
  row1 0x4 64 tenantCfgOpsEn, row1 0x4 64 tenantCfgTokensEn, row1 0x4 64 tenantCfgQueryCap,
  row1 0x4 11 energyCoef]

def rowsR412 : List Row := [
  row2 0x1000 32 0x40 16 ringCtrlEnable, row2 0x1000 32 0x40 16 ringCtrlClass, row2 0x1000 32 0x40 16 ringCtrlSqSize,
  row2 0x1000 32 0x40 16 ringCtrlCqSize, row2 0x1000 32 0x40 16 ringCtrlVector, row2 0x1000 32 0x40 16 ringStatusError,
  row2 0x1000 32 0x40 16 ringIntIntCount, row2 0x1000 32 0x40 16 ringIntIntUs, row2 0x1000 32 0x40 16 sqBase,
  row2 0x1000 32 0x40 16 cqBase, row2 0x1000 32 0x40 16 ringPtrsSqHead, row2 0x1000 32 0x40 16 ringPtrsCqTail]

def rowsR413 : List Row := [
  row0 hstStatusRate, row0 hstStatusWidth, row0 hstStatusIdeSecure,
  row0 hstStatusDebugEn, row0 hstMirrorMirrorEn, row0 hstMirrorSize,
  row0 hstMirrorBase, row0 hstMirrorHead, row0 hstMirrorHeadTail,
  row1 0x4 31 hstVfTenant]

def rowsR437 : List Row := [
  row0 pwrCtrlFillerEn, row0 pwrCtrlStepReqEn, row0 pwrStatusOpp,
  row0 pwrStatusStepping, row0 pwrStatusCapping, row0 pwrStatusStepReq,
  row0 pwrStatusThermalWarn, row0 pwrStatusCouplePending, row0 pwrStatusOvercurrent,
  row0 pwrCapCapW, row0 pwrOppCmdTarget, row0 pwrOppStart,
  row0 pwrFillerFloorPct, row0 pwrFillerSlope, row0 pwrFillerRampEpochs,
  row0 pwrFillerKinds, row0 pwrRampTargetTargetCa, row0 pwrDroopDroopMv,
  row0 pwrThermalTjWarn, row0 pwrThermalTjResume, row0 pwrThermalStrataWarn,
  row0 pwrStepreqReqG, row0 pwrStepreqReqEpochs, row0 pwrGateG,
  row0 pwrInputVinMv, row0 pwrInputIinCa, row0 pwrPowerPinDw,
  row0 pwrTempMax, row1 0x4 8 pwrTempJ, row1 0x4 4 pwrTempS,
  row0 pwrRailsGood]

def rowsR439 : List Row := [
  row0 aonCtrlWake, row0 aonCtrlTripTemp, row0 aonCtrlTripAux,
  row0 aonStatusWakeCause, row0 aonStatusSleepCause, row0 aonStatusTripped,
  row0 aonCmpVinLevelMv, row0 aonCmpVinHyst, row0 aonCmpTempLevelC,
  row0 aonCmpTempHystC, row0 aonCmpAuxLevel, row0 aonCmpAuxHyst,
  row0 aonCmpAuxPol, row0 aonRtc, row0 aonTimeHold]

def rowsR459 : List Row := [
  row0 fltCtrlWithdrawEn, row0 fltStatusStraggler, row0 fltStatusWithdrawn,
  row0 fltStatusOverflow, row0 fltStatusCouplePending, row0 fltStatusPairs,
  row0 fltStraggleStraggleMisses, row0 fltStraggleStraggleWindow, row0 fltStraggleSwapPeriod,
  row0 fltRepeatRepeatN, row0 fltRepeatRepeatEpochs, row0 fltLogBase,
  row0 fltLogSize, row0 fltWdtWdtUs, row0 fltSeq,
  row0 fltDomainATray, row0 fltDomainAShelf, row0 fltDomainBLoop,
  row0 fltDomainBSwitch, row0 fltLogRead]

def rowsR488 : List Row := [
  row0 btStateCmd, row0 btStatusImageValid, row0 btStatusOperator,
  row0 btStatusIdValid, row0 btStatusStaged, row0 btStatusFromStaging,
  row0 btStatusIneligible, row0 btStatusStateRefused, row0 btFailCheck,
  row0 btFailStep, row0 btFailSection, row0 btFailCode,
  row0 btTrainTimeoutMs, row0 btImageVersion, row0 btBuildId,
  row0 btNorSizeLog2, row0 btNorRequireImage, row0 btNorLockKey,
  row1 0x4 4 btSerial, row1 0x4 8 btIdHash]

def rowsR507 : List Row := [
  row0 glbIdPart, row0 glbIdLine, row0 glbRevDieStep,
  row0 glbRevPkgStep, row0 glbRevRomVer, row0 glbCapsChambers,
  row0 glbCapsStacks, row0 glbCapsChannels, row0 glbCapsPorts,
  row0 glbMemStrataMib, row0 glbMemStackGib, row0 glbState,
  row0 glbStatePrevious, row0 glbStateChanging, row0 glbStateSince,
  row1 0x4 4 glbScratch, row0 glbAccessBadAccess, row0 glbAccessUnmapped,
  row0 glbAccessAddrOffset]

def rowsR510 : List Row := [
  row0 strCtrlScrubEn, row0 strStatusScrubBusy, row0 strStatusRepairPending,
  row0 strStatusSparesLow, row0 strScrubPassEpochs, row0 strScrubRepairAfter,
  row0 strSpares, row0 strErrAddr]

def rowsObs : List Row := [
  { base := 0x81400, dims := [(0x1000, 8), (0x20, 16), (0x4, 6)], field := fun i => egsObs (i.getD 0 0) (i.getD 1 0) (i.getD 2 0) },
  row1 0x8 4096 egsPeerRate, row1 0x8 4096 egsPeerBurst]

/-- Every row of the register tables. -/
def rows : List Row :=
  rowsR69 ++ rowsR70 ++ rowsR71 ++ rowsR98 ++ rowsR147 ++ rowsR168 ++ rowsR202 ++ rowsR228 ++ rowsR254 ++ rowsR256 ++ rowsR283 ++ rowsR313 ++ rowsR326 ++ rowsR355 ++ rowsR371 ++ rowsR372 ++ rowsR393 ++ rowsR412 ++ rowsR413 ++ rowsR437 ++ rowsR439 ++ rowsR459 ++ rowsR488 ++ rowsR507 ++ rowsR510 ++ rowsObs

/-- Registers the tables list as reserved whole: they read 0, ignore writes and are not counted (R7, R503). -/
def reservedRegs : List (Nat × List (Nat × Nat)) := [
  (0x40040c, [(0x100000, 4), (0x1000, 64)]),
  (0x40049c, [(0x100000, 4), (0x1000, 64)]),
  (0x400508, [(0x100000, 4), (0x1000, 64)]),
  (0x40050c, [(0x100000, 4), (0x1000, 64)]),
  (0x48001c, []),
  (0x49000c, []),
  (0x49020c, [(0x10, 64)]),
  (0x4a000c, []),
  (0x140024, []),
  (0x14101c, [(0x20, 32)]),
  (0xc001c, []),
  (0xc100c, [(0x40, 8)]),
  (0x11000c, [(0x1000, 32), (0x40, 16)]),
  (0x14, []),
  (0x81418, [(0x1000, 8), (0x20, 16)]),
  (0x8141C, [(0x1000, 8), (0x20, 16)])]

end Reg

end Sys2Proof.Machine
end

