-- ==== Sys2Proof/Machine/Counters.lean ====
section
/-! DEFINITION. The 64-bit counters of BAR0 (R6, R38), each named by the offset of its lower register
as its chapter's counter rule lays them out; a counter repeated per unit takes the unit's number. -/

namespace Sys2Proof.Machine.Ctr

/-! 02_epochs_and_plans.md R73 -/
def epcEpochs : Nat := 0x10100
def epcLateEpochs : Nat := 0x10108
def epcSyncAccepted : Nat := 0x10110
def epcSyncOutOfWindow : Nat := 0x10118
def epcSyncExtra : Nat := 0x10120
def epcPlanSwitches : Nat := 0x10128
def epcIngressAdmitted : Nat := 0x10130
def epcIngressCarried : Nat := 0x10138
def epcSumpExpired : Nat := 0x10140
def epcSumpOverflows : Nat := 0x10148

/-! 03_chamber_arithmetic.md R99 -/
def chMatrixBusy (c : Nat) : Nat := chamberBase c + 0x410
def chVectorBusy (c : Nat) : Nat := chamberBase c + 0x418
def chIntSat (c : Nat) : Nat := chamberBase c + 0x420
def chFpSat (c : Nat) : Nat := chamberBase c + 0x428
def chNanOut (c : Nat) : Nat := chamberBase c + 0x430
def chFtzIn (c : Nat) : Nat := chamberBase c + 0x438
def chStoreCorrected (c : Nat) : Nat := chamberBase c + 0x440
def chBankWait (c : Nat) : Nat := chamberBase c + 0x448
def chResidueRetry (c : Nat) : Nat := chamberBase c + 0x450
def chStoreUncorrected (c : Nat) : Nat := chamberBase c + 0x458

/-! 04_models_and_low_rank_weights.md R123 -/
def chWeightChecks (c : Nat) : Nat := chamberBase c + 0x460
def chWeightFailed (c : Nat) : Nat := chamberBase c + 0x468
def chWeightReloads (c : Nat) : Nat := chamberBase c + 0x470
def chTokensTruncated (c : Nat) : Nat := chamberBase c + 0x478

/-! 05_lookup_distance_engine.md R148 -/
def chLookups (c : Nat) : Nat := chamberBase c + 0x4a0
def chCodesScanned (c : Nat) : Nat := chamberBase c + 0x4a8
def chSegmentsRead (c : Nat) : Nat := chamberBase c + 0x4b0
def chSegmentsSkipped (c : Nat) : Nat := chamberBase c + 0x4b8
def chSideEntries (c : Nat) : Nat := chamberBase c + 0x4c0
def chSharedReads (c : Nat) : Nat := chamberBase c + 0x4c8
def chTablesBuilt (c : Nat) : Nat := chamberBase c + 0x4d0
def chTableLoads (c : Nat) : Nat := chamberBase c + 0x4d8
def chTableNonfinite (c : Nat) : Nat := chamberBase c + 0x4e0
def chRecordsOut (c : Nat) : Nat := chamberBase c + 0x4e8
def chScanContinuations (c : Nat) : Nat := chamberBase c + 0x4f0
def chLutParity (c : Nat) : Nat := chamberBase c + 0x4f8

/-! 06_selection.md R169 -/
def chListsOut (c : Nat) : Nat := chamberBase c + 0x510
def chCandidatesIn (c : Nat) : Nat := chamberBase c + 0x518
def chKeyPasses (c : Nat) : Nat := chamberBase c + 0x520
def chIdPasses (c : Nat) : Nat := chamberBase c + 0x528
def chNanExcluded (c : Nat) : Nat := chamberBase c + 0x530
def chDuplicatesRemoved (c : Nat) : Nat := chamberBase c + 0x538
def chTieLists (c : Nat) : Nat := chamberBase c + 0x540
def chPaddedEntries (c : Nat) : Nat := chamberBase c + 0x548
def chInputsAbsent (c : Nat) : Nat := chamberBase c + 0x550
def chSelectContinuations (c : Nat) : Nat := chamberBase c + 0x558

/-! 02_epochs_and_plans.md R71 -/
def chSumpIn (c : Nat) : Nat := chamberBase c + 0x808
def chSumpOut (c : Nat) : Nat := chamberBase c + 0x810
def chSlotMiss (c : Nat) : Nat := chamberBase c + 0x818

/-! 07_lists_updates_visibility.md R204 -/
def idxOpsAdmitted : Nat := 0x480100
def idxOpsCarried : Nat := 0x480108
def idxInserts : Nat := 0x480110
def idxReplaces : Nat := 0x480118
def idxDeletes : Nat := 0x480120
def idxDeletesAbsent : Nat := 0x480128
def idxMembershipUpdates : Nat := 0x480130
def idxOpsRefused : Nat := 0x480138
def idxTombstonesSet : Nat := 0x480140
def idxFlips : Nat := 0x480148
def idxFlowStale : Nat := 0x480150
def idxFlowPostponed : Nat := 0x480158
def idxSegmentsFreed : Nat := 0x480160
def idxWidenedLooks : Nat := 0x480168
def idxFilterShortReplies : Nat := 0x480170
def idxCohortsAgedOut : Nat := 0x480178
def idxExactQueries : Nat := 0x480180

/-! 08_row_tables_and_siphon.md R229 -/
def rowGatherIndices : Nat := 0x490100
def rowDupIndex : Nat := 0x490108
def rowHotHits : Nat := 0x490110
def rowRedirectHits : Nat := 0x490118
def rowHomeReads : Nat := 0x490120
def rowRowsLate : Nat := 0x490128
def rowSiphonRequested : Nat := 0x490130
def rowSiphonServed : Nat := 0x490138
def rowSiphonOverflowRows : Nat := 0x490140
def rowSiphonLostRows : Nat := 0x490148
def rowScatterRows : Nat := 0x490150
def rowScatterSuperseded : Nat := 0x490158
def rowRedirectsFolded : Nat := 0x490160
def rowTableFlips : Nat := 0x490168
def rowFlipsDeferred : Nat := 0x490170
def rowFlipsStale : Nat := 0x490178
def rowDripRefreshes : Nat := 0x490180
def rowGatherContinuations : Nat := 0x490188
def tabReads (i : Nat) : Nat := 0x490800 + 0x20 * i
def tabInvalid (i : Nat) : Nat := 0x490808 + 0x20 * i
def tabMissing (i : Nat) : Nat := 0x490810 + 0x20 * i
def tabLost (i : Nat) : Nat := 0x490818 + 0x20 * i
def rowTntInvalid (i : Nat) : Nat := 0x491000 + 0x10 * i
def rowTntMissing (i : Nat) : Nat := 0x491008 + 0x10 * i

/-! 09_memory_tiers_and_homes.md R257 -/
def tierMovesStarted : Nat := 0x4a0100
def tierMovesFlipped : Nat := 0x4a0108
def tierMovesAbandoned : Nat := 0x4a0110
def tierChunksCopied : Nat := 0x4a0118
def tierChunkRetries : Nat := 0x4a0120
def tierQuotaRefusals : Nat := 0x4a0128
def tierItemRefusals : Nat := 0x4a0130
def tierEstimatedSq8 : Nat := 0x4a0138
def tierEstimatedPq : Nat := 0x4a0140
def tierLateArrivals : Nat := 0x4a0148
def tierAddrFaults : Nat := 0x4a0150
def tierHomesLost : Nat := 0x4a0158

/-! 10_in_stack_processing.md R285 -/
def stkPimPrograms (i : Nat) : Nat := 0x200100 + 0x10000 * i
def stkPimGroups (i : Nat) : Nat := 0x200108 + 0x10000 * i
def stkPimChunks (i : Nat) : Nat := 0x200110 + 0x10000 * i
def stkPimOps (i : Nat) : Nat := 0x200118 + 0x10000 * i
def stkPimSat (i : Nat) : Nat := 0x200120 + 0x10000 * i
def stkPimRefused (i : Nat) : Nat := 0x200128 + 0x10000 * i
def stkPimHolds (i : Nat) : Nat := 0x200130 + 0x10000 * i
def stkRefreshes (i : Nat) : Nat := 0x200138 + 0x10000 * i
def stkRefreshesPostponed (i : Nat) : Nat := 0x200140 + 0x10000 * i
def stkThrottledCycles (i : Nat) : Nat := 0x200148 + 0x10000 * i
def stkThermalHalts (i : Nat) : Nat := 0x200150 + 0x10000 * i
def stkSealStripes (i : Nat) : Nat := 0x200158 + 0x10000 * i
def stkInnerCorrected (i : Nat) : Nat := 0x200160 + 0x10000 * i
def stkInnerUncorrected (i : Nat) : Nat := 0x200168 + 0x10000 * i
def stkOuterCorrected (i : Nat) : Nat := 0x200170 + 0x10000 * i
def stkOuterUncorrected (i : Nat) : Nat := 0x200178 + 0x10000 * i

/-! 11_flash_translation.md R315 -/
def flsCodewordsRead : Nat := 0x140100
def flsPagesProgrammed : Nat := 0x140108
def flsBlocksErased : Nat := 0x140110
def flsReadRetries : Nat := 0x140118
def flsCorrectedBits : Nat := 0x140120
def flsUncorrectable : Nat := 0x140128
def flsFolds : Nat := 0x140130
def flsLogMerges : Nat := 0x140138
def flsGcMerges : Nat := 0x140140
def flsWearMoves : Nat := 0x140148
def flsRelocations : Nat := 0x140150
def flsGrownBad : Nat := 0x140158
def flsSuspends : Nat := 0x140160
def flsPlanBytesWritten : Nat := 0x140168
def flsNandBytesWritten : Nat := 0x140170
def flsTornPages : Nat := 0x140178

/-! 12_check_value_units.md R328 -/
def cvuTransfers (i : Nat) : Nat := 0x60110 + 0x40 * i
def cvuBytes (i : Nat) : Nat := 0x60118 + 0x40 * i
def cvuMismatches (i : Nat) : Nat := 0x60120 + 0x40 * i
def cvuPoisoned (i : Nat) : Nat := 0x60128 + 0x40 * i
def cvuCheckSteps : Nat := 0x60010
def cvuCheckFails : Nat := 0x60018

/-! 13_fabric_links_and_transport.md R357 -/
def fabTransfersSent : Nat := 0xc0100
def fabTransfersReceived : Nat := 0xc0108
def fabTransfersLost : Nat := 0xc0110
def fabLateFrames : Nat := 0xc0118
def fabEpochMismatch : Nat := 0xc0120
def fabNoRecvFrames : Nat := 0xc0128
def fabLandingDrops : Nat := 0xc0130
def fabDuplicateFrames : Nat := 0xc0138
def fabUnknownPeer : Nat := 0xc0140
def fabMalformed : Nat := 0xc0148
def fabRetransmissions : Nat := 0xc0150
def fabDownDrops : Nat := 0xc0158
def fabTimeFrames : Nat := 0xc0160
def fabTimeSteps : Nat := 0xc0168
def portFramesIn (i : Nat) : Nat := 0xc3000 + 0x80 * i
def portFramesOut (i : Nat) : Nat := 0xc3008 + 0x80 * i
def portBytesIn (i : Nat) : Nat := 0xc3010 + 0x80 * i
def portBytesOut (i : Nat) : Nat := 0xc3018 + 0x80 * i
def portFcsErrors (i : Nat) : Nat := 0xc3020 + 0x80 * i
def portNonZft (i : Nat) : Nat := 0xc3028 + 0x80 * i
def portCheckFails (i : Nat) : Nat := 0xc3030 + 0x80 * i
def portFecCorrected (i : Nat) : Nat := 0xc3038 + 0x80 * i
def portFecUncorrected (i : Nat) : Nat := 0xc3040 + 0x80 * i
def portLinkDowns (i : Nat) : Nat := 0xc3048 + 0x80 * i

/-! 14_egress_scheduling.md R375 -/
def egsFrames (i j : Nat) : Nat := 0x81800 + 0x1000 * i + 0x20 * j
def egsBytes (i j : Nat) : Nat := 0x81808 + 0x1000 * i + 0x20 * j
def egsDrops (i j : Nat) : Nat := 0x81810 + 0x1000 * i + 0x20 * j
def egsUrgent (i j : Nat) : Nat := 0x81818 + 0x1000 * i + 0x20 * j
def egsDownDrops (i : Nat) : Nat := 0x81a00 + 0x1000 * i
def egsStateParity (i : Nat) : Nat := 0x81a08 + 0x1000 * i

/-! 15_pools_tenants_metering.md R391 -/
def mtrChamberCycles (i : Nat) : Nat := 0x1a0000 + 0x80 * i
def mtrLookups (i : Nat) : Nat := 0x1a0008 + 0x80 * i
def mtrMatrixOps (i : Nat) : Nat := 0x1a0010 + 0x80 * i
def mtrStackBytesRead (i : Nat) : Nat := 0x1a0018 + 0x80 * i
def mtrStackBytesWritten (i : Nat) : Nat := 0x1a0020 + 0x80 * i
def mtrStrataByteEpochs (i : Nat) : Nat := 0x1a0028 + 0x80 * i
def mtrStackByteEpochs (i : Nat) : Nat := 0x1a0030 + 0x80 * i
def mtrFlashByteEpochs (i : Nat) : Nat := 0x1a0038 + 0x80 * i
def mtrFlashReads (i : Nat) : Nat := 0x1a0040 + 0x80 * i
def mtrFlashWrites (i : Nat) : Nat := 0x1a0048 + 0x80 * i
def mtrFabricBytesIn (i : Nat) : Nat := 0x1a0050 + 0x80 * i
def mtrFabricBytesOut (i : Nat) : Nat := 0x1a0058 + 0x80 * i
def mtrHostBytes (i : Nat) : Nat := 0x1a0060 + 0x80 * i
def mtrPimOps (i : Nat) : Nat := 0x1a0068 + 0x80 * i
def mtrQueries (i : Nat) : Nat := 0x1a0070 + 0x80 * i
def mtrEnergyMj (i : Nat) : Nat := 0x1a0078 + 0x80 * i

/-! 15_pools_tenants_metering.md R395 -/
def poolMapChanges : Nat := 0x180200
def poolStaleRequests : Nat := 0x180208
def poolStateHandoffs : Nat := 0x180210
def poolStateClaims : Nat := 0x180218
def poolStateFromReplica : Nat := 0x180220
def poolFallbackCandidates : Nat := 0x180228
def poolTenantRefusals : Nat := 0x180230
def poolTenantCarried : Nat := 0x180238

/-! 16_host_attachment.md R414 -/
def fnSubmitted (i : Nat) : Nat := 0x108000 + 0x40 * i
def fnCompleted (i : Nat) : Nat := 0x108008 + 0x40 * i
def fnDiscarded (i : Nat) : Nat := 0x108010 + 0x40 * i
def fnBytesIn (i : Nat) : Nat := 0x108018 + 0x40 * i
def fnBytesOut (i : Nat) : Nat := 0x108020 + 0x40 * i
def hstFetchLate : Nat := 0x100200
def hstDoorbellsBad : Nat := 0x100208
def hstPoisonedTlps : Nat := 0x100210
def hstIdeFails : Nat := 0x100218
def hstDebugReadsBlocked : Nat := 0x100220
def hstLinkTrainings : Nat := 0x100228

/-! 17_power_droop_thermal.md R440 -/
def pwrEpochsCapped : Nat := 0x40100
def pwrGatedCycles : Nat := 0x40108
def pwrStretchEvents : Nat := 0x40110
def pwrStretchCycles : Nat := 0x40118
def pwrOppSteps : Nat := 0x40120
def pwrStepFails : Nat := 0x40128
def pwrStepRequests : Nat := 0x40130
def pwrFillerScrubUs : Nat := 0x40138
def pwrFillerFlowUs : Nat := 0x40140
def pwrFillerDummyUs : Nat := 0x40148
def pwrFloorMisses : Nat := 0x40150
def pwrSlopeLimited : Nat := 0x40158
def pwrOvercurrentEvents : Nat := 0x40160
def pwrThermalWarnEpochs : Nat := 0x40168
def pwrThermalLimitEpochs : Nat := 0x40170
def pwrEnergyMj : Nat := 0x40178

/-! 18_faults_and_failover.md R461 -/
def fltRecordsOverwritten : Nat := 0x2100
def fltWatchdogResets : Nat := 0x2108
def fltCommitMismatches : Nat := 0x2110
def fltStragglerEpochs : Nat := 0x2118
def fltWithdrawals : Nat := 0x2120
def fltDownApplied : Nat := 0x2128
def fltSwaps : Nat := 0x2130
def fltPoisonedReplies : Nat := 0x2138

/-! 19_start_configuration_identity.md R489 -/
def btBoots : Nat := 0x3100
def btRecoveries : Nat := 0x3108
def btImageWrites : Nat := 0x3110
def btStateRefusals : Nat := 0x3118
def btSpdmRequests : Nat := 0x3120
def btSpdmSessions : Nat := 0x3128

/-! 21_register_map.md R507 -/
def glbStateChanges : Nat := 0x100
def glbBadAccesses : Nat := 0x108
def glbUnmappedAccesses : Nat := 0x110

/-! 21_register_map.md R511 -/
def strScrubAtoms : Nat := 0x1000100
def strCorrected : Nat := 0x1000108
def strUncorrected : Nat := 0x1000110
def strRowsRepaired : Nat := 0x1000118
def strScrubPasses : Nat := 0x1000120
def strMapParity : Nat := 0x1000128

/-- The counters as (offset of the first, how many follow 8 apart, repetitions as stride and count). -/
def table : List (Nat × Nat × List (Nat × Nat)) := [
  (0x10100, 10, []),
  (0x400410, 14, [(0x100000, 4), (0x1000, 64)]),
  (0x4004a0, 12, [(0x100000, 4), (0x1000, 64)]),
  (0x400510, 10, [(0x100000, 4), (0x1000, 64)]),
  (0x400808, 3, [(0x100000, 4), (0x1000, 64)]),
  (0x480100, 17, []),
  (0x490100, 18, []),
  (0x490800, 4, [(0x20, 64)]),
  (0x491000, 2, [(0x10, 64)]),
  (0x4a0100, 12, []),
  (0x200100, 16, [(0x10000, 12)]),
  (0x140100, 16, []),
  (0x60110, 4, [(0x40, 16)]),
  (0x60010, 2, []),
  (0xc0100, 14, []),
  (0xc3000, 10, [(0x80, 8)]),
  (0x81800, 4, [(0x1000, 8), (0x20, 16)]),
  (0x81a00, 2, [(0x1000, 8)]),
  (0x1a0000, 16, [(0x80, 64)]),
  (0x180200, 8, []),
  (0x108000, 5, [(0x40, 32)]),
  (0x100200, 6, []),
  (0x40100, 16, []),
  (0x2100, 8, []),
  (0x3100, 6, []),
  (0x100, 3, []),
  (0x1000100, 6, [])]

/-- Does a counter's lower register lie at BAR0 offset `o`? -/
def isCounter (o : Nat) : Bool :=
  table.any fun (b, k, dims) => b ≤ o && (Reg.indices (dims ++ [(8, k)]) (o - b)).isSome

end Sys2Proof.Machine.Ctr
end

