-- ==== Sys2Proof/Machine/FaultCodes.lean ====
section
/-! DEFINITION. The fault codes of the spec's chapters and their classes (R442, R444, R447). -/

namespace Sys2Proof.Machine

/-- The fault codes, one constructor per code that a chapter's fault table gives. -/
inductive FaultCode where
  | planHdrFail | planBadStep | planDigestFail | planSigFail | planWriteActive
  | planNotReady | planLenMismatch | cairnOverrun | slotOverrun | sumpExpired
  | sumpOverflow | syncOutOfWindow | ingressDuplicate | storeUncorrectable | regfileParity
  | matrixResidue | seqTimeout | arithNan | lookupNoTable | lookupTableMismatch
  | lookupBadQuant | lookupNonfinite | lookupLutParity | lookupProbeBad | lookupImageCheck
  | lookupOutFull | selectBadRun | mergeBadInput | mergeOversize | selectNan
  | indexHeadBad | indexMapMismatch | indexFilterBad | indexStageFailed | indexFlowCheck
  | indexAgedOut | indexOverlayFull | indexSideFull | rowTableRefused | rowImmutable
  | rowRedirectFull | rowVersionCheck | siphonLost | siphonOverflow | siphonBadBatch
  | rowHotCheck | tierAddrRange | tierHomeBad | tierHomeOverlap | tierMoveCheck
  | tierQuotaExceeded | tierHomeLost | tierMapParity | pimModeFault | pimBadProgram
  | pimRange | pimUncorrectable | pimSealFail | pimThermalHalt | stkOuterUncorrectable
  | stkRefreshOverdue | flashUncorrectable | flashProgramFail | flashEraseFail | flashReserveLow
  | flashReadOnly | flashWriteRefused | flashMapRebuilt | flashTrainFail | flashMapBad
  | weightDamaged | cvuSelftestFail | cvuDisagree | fabLinkDown | fabLinkTrainFail
  | fabTransferLost | fabNoRecv | fabPeerUnreachable | fabTimeOffset | fabTimeLost
  | fabPeerDup | fabLandingFull | fabFecDegraded | egsS0Drop | egsStateParity
  | poolMapBad | poolMapLate | poolRoleMismatch | poolStaleRequest | poolStateClaimed
  | poolStateLost | hostLinkDegraded | hostDmaError | hostDoorbellBad | hostCqOverflow
  | hostIdeFail | hostFlr | pwrOvercurrent | pwrCapSustained | pwrStepFail
  | pwrThermalWarn | pwrThermalLimit | pwrThermalTrip | pwrVinLow | pwrRailFault
  | pwrSensorFail | pwrAuxEvent | bootNvmFail | bootImageBad | bootVendorSigFail
  | bootOperatorFail | bootConfigBad | bootCalBad | bootPufFail | bootTrainTimeout
  | bootStateRefused | imageWriteFail | spdmSecureFail | fltWatchdog | fltCommitMismatch
  | fltCoreRetired | fltStraggler | fltDomainShared | fltMemberDown | fltReplyPoisoned
  | fltNoReplica | fltLogOverflow
  deriving DecidableEq, Repr

/-- The 16-bit code of the record (R442). -/
def FaultCode.code : FaultCode → Nat
  | .planHdrFail => 0x0101
  | .planBadStep => 0x0102
  | .planDigestFail => 0x0103
  | .planSigFail => 0x0104
  | .planWriteActive => 0x0105
  | .planNotReady => 0x0106
  | .planLenMismatch => 0x0107
  | .cairnOverrun => 0x0108
  | .slotOverrun => 0x0109
  | .sumpExpired => 0x010A
  | .sumpOverflow => 0x010B
  | .syncOutOfWindow => 0x010C
  | .ingressDuplicate => 0x010D
  | .storeUncorrectable => 0x0201
  | .regfileParity => 0x0202
  | .matrixResidue => 0x0203
  | .seqTimeout => 0x0204
  | .arithNan => 0x0205
  | .lookupNoTable => 0x0301
  | .lookupTableMismatch => 0x0302
  | .lookupBadQuant => 0x0303
  | .lookupNonfinite => 0x0304
  | .lookupLutParity => 0x0305
  | .lookupProbeBad => 0x0306
  | .lookupImageCheck => 0x0307
  | .lookupOutFull => 0x0308
  | .selectBadRun => 0x0401
  | .mergeBadInput => 0x0402
  | .mergeOversize => 0x0403
  | .selectNan => 0x0404
  | .indexHeadBad => 0x0501
  | .indexMapMismatch => 0x0502
  | .indexFilterBad => 0x0503
  | .indexStageFailed => 0x0504
  | .indexFlowCheck => 0x0505
  | .indexAgedOut => 0x0506
  | .indexOverlayFull => 0x0507
  | .indexSideFull => 0x0508
  | .rowTableRefused => 0x0601
  | .rowImmutable => 0x0602
  | .rowRedirectFull => 0x0603
  | .rowVersionCheck => 0x0604
  | .siphonLost => 0x0605
  | .siphonOverflow => 0x0606
  | .siphonBadBatch => 0x0607
  | .rowHotCheck => 0x0608
  | .tierAddrRange => 0x0701
  | .tierHomeBad => 0x0702
  | .tierHomeOverlap => 0x0703
  | .tierMoveCheck => 0x0704
  | .tierQuotaExceeded => 0x0705
  | .tierHomeLost => 0x0706
  | .tierMapParity => 0x0707
  | .pimModeFault => 0x0801
  | .pimBadProgram => 0x0802
  | .pimRange => 0x0803
  | .pimUncorrectable => 0x0804
  | .pimSealFail => 0x0805
  | .pimThermalHalt => 0x0806
  | .stkOuterUncorrectable => 0x0807
  | .stkRefreshOverdue => 0x0808
  | .flashUncorrectable => 0x0901
  | .flashProgramFail => 0x0902
  | .flashEraseFail => 0x0903
  | .flashReserveLow => 0x0904
  | .flashReadOnly => 0x0905
  | .flashWriteRefused => 0x0906
  | .flashMapRebuilt => 0x0907
  | .flashTrainFail => 0x0908
  | .flashMapBad => 0x0909
  | .weightDamaged => 0x0A01
  | .cvuSelftestFail => 0x0A02
  | .cvuDisagree => 0x0A03
  | .fabLinkDown => 0x0B01
  | .fabLinkTrainFail => 0x0B02
  | .fabTransferLost => 0x0B03
  | .fabNoRecv => 0x0B04
  | .fabPeerUnreachable => 0x0B05
  | .fabTimeOffset => 0x0B06
  | .fabTimeLost => 0x0B07
  | .fabPeerDup => 0x0B08
  | .fabLandingFull => 0x0B09
  | .fabFecDegraded => 0x0B0A
  | .egsS0Drop => 0x0C01
  | .egsStateParity => 0x0C02
  | .poolMapBad => 0x0D01
  | .poolMapLate => 0x0D02
  | .poolRoleMismatch => 0x0D03
  | .poolStaleRequest => 0x0D04
  | .poolStateClaimed => 0x0D05
  | .poolStateLost => 0x0D06
  | .hostLinkDegraded => 0x0E01
  | .hostDmaError => 0x0E02
  | .hostDoorbellBad => 0x0E03
  | .hostCqOverflow => 0x0E04
  | .hostIdeFail => 0x0E05
  | .hostFlr => 0x0E06
  | .pwrOvercurrent => 0x0F01
  | .pwrCapSustained => 0x0F02
  | .pwrStepFail => 0x0F03
  | .pwrThermalWarn => 0x0F04
  | .pwrThermalLimit => 0x0F05
  | .pwrThermalTrip => 0x0F06
  | .pwrVinLow => 0x0F07
  | .pwrRailFault => 0x0F08
  | .pwrSensorFail => 0x0F09
  | .pwrAuxEvent => 0x0F0A
  | .bootNvmFail => 0x1001
  | .bootImageBad => 0x1002
  | .bootVendorSigFail => 0x1003
  | .bootOperatorFail => 0x1004
  | .bootConfigBad => 0x1005
  | .bootCalBad => 0x1006
  | .bootPufFail => 0x1007
  | .bootTrainTimeout => 0x1008
  | .bootStateRefused => 0x1009
  | .imageWriteFail => 0x100A
  | .spdmSecureFail => 0x100B
  | .fltWatchdog => 0x1101
  | .fltCommitMismatch => 0x1102
  | .fltCoreRetired => 0x1103
  | .fltStraggler => 0x1104
  | .fltDomainShared => 0x1105
  | .fltMemberDown => 0x1106
  | .fltReplyPoisoned => 0x1107
  | .fltNoReplica => 0x1108
  | .fltLogOverflow => 0x1109

/-- The classes of R444. -/
inductive FaultClass where | note | contained | degraded | repair | withdraw | halt
  deriving DecidableEq, Repr

def FaultClass.code : FaultClass → Nat
  | .note => 0 | .contained => 1 | .degraded => 2 | .repair => 3 | .withdraw => 4 | .halt => 5

/-- The class R447 gives a code, where it gives one that does not depend on the case. -/
def FaultCode.fixedClass : FaultCode → Option FaultClass
  | .storeUncorrectable | .regfileParity | .matrixResidue | .lookupLutParity | .pimUncorrectable
  | .pimSealFail | .stkOuterUncorrectable | .flashUncorrectable => some .contained
  | .seqTimeout | .indexHeadBad | .indexMapMismatch | .tierMapParity | .flashTrainFail => some .withdraw
  | .flashReadOnly | .fabTimeLost | .fabLinkTrainFail | .pwrCapSustained | .pwrThermalLimit | .pwrStepFail => some .degraded
  | .pwrThermalTrip | .pwrRailFault => some .halt
  | _ => none

/-- The class R447 gives a code once it is repeated (R446): SOME codes change class only then. -/
def FaultCode.repeatedClass : FaultCode → Option FaultClass
  | .storeUncorrectable | .regfileParity | .matrixResidue | .lookupLutParity | .pwrStepFail => some .withdraw
  | .cvuDisagree | .egsS0Drop | .egsStateParity | .hostIdeFail => some .degraded
  | .siphonLost | .fabTransferLost | .fabPeerUnreachable => some .note
  | _ => none

end Sys2Proof.Machine
end

