-- ==== Sys2Proof/Machine/State.lean ====
section
/-! DEFINITION. The state of the block: registers, counters, memories, sequencers, queues and the queue of
waiting commands, all plain data, with the value each has at reset. INVENTORY.md lists every piece with the rule
of spec/ that names it. -/

namespace Sys2Proof.Machine

/-- The machine stops with a fault: never, because the spec reports every error through fault records and
status bits (R442, R447), and the block goes on. The one constructor is raised by no meaning. -/
inductive Fault where
  /-- Raised by no meaning; safe. -/
  | stopped
  deriving DecidableEq, Repr

/-- Commands the model gives no meaning. -/
inductive Refusal where
  /-- The dispatch of a command that has no meaning yet; safe: the run stops. -/
  | notModelled (mnemonic : String)
  deriving DecidableEq, Repr

/-- The memories of the block. Each has its own range of keys in `Mem.cells`. -/
inductive Space where
  /-- Strata and stacks, at their device addresses (R231). -/
  | dram
  /-- Chamber stores: chamber × 2^21 + offset (R94). -/
  | store
  /-- LUT stores: chamber × 2^18 + offset (R130). -/
  | lut
  /-- Vector registers: ((chamber × 16 + register) × 1024 + element) × 4 (R89). -/
  | vreg
  /-- Plan header windows: bank × 512 + offset (R41, R70). -/
  | hdr
  /-- NAND pages of the physical blocks (R286). -/
  | nand
  /-- The configuration NOR (R467). -/
  | nor
  deriving DecidableEq, Repr

/-- The memories as one list of bytes in canonical form: keys strictly rising, no listed byte 0. `poison`
holds the first keys of the poisoned granules (R94), strictly rising. -/
structure Mem where
  cells : List Host.Cell := []
  poison : List Nat := []
  deriving DecidableEq, Repr

/-- Register values by `Field.key`: `held` is what a read returns, `eff` what is in effect for the fields
that do not apply at once; `waiting` the fields written since their last apply point, `touched` the coupled
sets written since their last check and `pendingCouples` those that disagree (R9, R483, R484). -/
structure Regs where
  held : List (Nat × BitVec 64) := []
  eff : List (Nat × BitVec 64) := []
  waiting : List Field := []
  touched : List Couple := []
  pendingCouples : List Couple := []
  deriving DecidableEq, Repr

/-- Counter values by offset, live and at the last snapshot point (R38). -/
structure Counters where
  live : List (Nat × BitVec 64) := []
  snap : List (Nat × BitVec 64) := []
  deriving DecidableEq, Repr

/-- The latches of R6 and R504: for each agent and offset of a lower register, the half that the next access of the
upper register uses. -/
structure Latches where
  read : List (Nat × Nat × Nat) := []
  write : List (Nat × Nat × Nat) := []
  deriving DecidableEq, Repr

/-- A fault record (R442). -/
structure FaultRec where
  code : FaultCode
  cls : FaultClass
  lostBefore : Bool
  source : Nat
  time : Nat
  detail : List Byte
  deriving DecidableEq, Repr

/-- What the repeat test of R446 looks at in a record. -/
structure FaultMark where
  code : FaultCode
  source : Nat
  first : Nat
  epoch : Nat
  deriving DecidableEq, Repr

/-- The fault log's hidden state: writes to the strata that are made as the command ends (records for the ring of R445 and
entries for the sump areas of R40, as device address and bytes), records held before the ring exists (R465), the marks of R446, the LOST_BEFORE flag of the next record (R445),
and the latest records for FAULTS. -/
structure FaultLog where
  ring : List (Nat × List Byte) := []
  boot : List FaultRec := []
  marks : List FaultMark := []
  lostNext : Bool := false
  recent : List FaultRec := []
  deriving DecidableEq, Repr

/-- A step in flight in a chamber (R49 to R52): its origin epoch, whether it has issued (a held step has
not), whether its work is done, and, for an entry a SUMP step started, that step's last slot (R57). -/
structure InFlight where
  chamber : Nat
  step : Step
  origin : Nat
  issued : Bool
  executed : Bool
  sumpLast : Option Nat
  /-- The first work unit not yet done, of a continuation (R50). -/
  resume : List Nat
  /-- The member that the step stands for (R455). -/
  stands : Option Nat := none
  /-- Where the continuation resumes that the step appends as it completes (R50, R57). -/
  rest : Option (List Nat) := none
  deriving DecidableEq, Repr

/-- An entry of a chamber's sump (R53): the step, its origin epoch, the reason code, where a continuation
resumes, and the place in the sump area that holds its 64 bytes (R40). -/
structure SumpEntry where
  chamber : Nat
  step : Step
  origin : Nat
  reason : Nat
  resume : List Nat
  pos : Nat := 0
  deriving DecidableEq, Repr

/-- A BARRIER-FREE NOTE in force (R58). -/
structure NoteInForce where
  chamber : Nat
  first : Nat
  span : Nat
  kinds : Nat
  currentPct : Nat
  deriving DecidableEq, Repr

/-- The epoch generator and the plan banks beside their registers (R34, R43 to R45, R59, R60). -/
structure EpochGen where
  /-- Length in ns of the present epoch, with its accepted sync offset. -/
  lenNs : Nat := 250000
  /-- ENABLE was written 1 and the first boundary is awaited, at `firstAt` once that is known. -/
  startPending : Bool := false
  firstAt : Option Nat := none
  /-- A stop is committed for the next boundary (R534). -/
  stopPending : Bool := false
  /-- Boundaries a monitor STEP still has to see (R500). -/
  monStep : Nat := 0
  /-- Slot misses of all chambers before that step; and the writes of ENABLE and BT_STATE_CMD held back, as (code, value), by it or by a transition
  in progress (R480, R500, R501). -/
  missBase : Nat := 0
  heldWrites : List (Nat × Nat) := []
  /-- Offset accepted for the next boundary. -/
  syncNext : Option Int := none
  /-- No ignored edge is to be reported: none was accepted since the last report, or none at all (R59). -/
  syncReported : Bool := true
  /-- The cairn's actions may take place: a boundary has been passed and no work slot has begun (R36); after the closing
  boundary of a run, until its cairn window has ended (R35). -/
  inCairn : Bool := false
  /-- The epoch in which ARM was written (R43). -/
  armedIn : Option Nat := none
  /-- The slot that runs, once slot 0 has started. -/
  slot : Option Nat := none
  /-- Reserve slots removed from the end of the reserve run in this epoch (R60). -/
  removed : Nat := 0
  /-- The epoch at whose cairn a plan-bank switch last completed. -/
  switchedAt : Option Nat := none
  /-- By how many ns slot 0 of this epoch starts late, if it does (R37). -/
  slotLate : Option Nat := none
  /-- Reasons already recorded in this arming (R45). -/
  saidNotReady : Bool := false
  saidMismatch : Bool := false
  deriving DecidableEq, Repr

/-- The chamber sequencers (R49 to R58, R100, R101). -/
structure Sequencers where
  inflight : List InFlight := []
  sump : List SumpEntry := []
  late : List Nat := []
  notes : List NoteInForce := []
  /-- Cohorts (by ingress epoch) missing on this module (R52). -/
  missing : List Nat := []
  /-- Chambers that raised ARITH_NAN, SELECT_NAN or LOOKUP_NONFINITE in this epoch, by fault code. -/
  nanSaid : List (Nat × Nat) := []
  /-- Steps abandoned in the present epoch, as (chamber, INDEX, origin epoch): what depends on them is abandoned too. -/
  abandoned : List (Nat × Nat × Nat) := []
  /-- Chambers to reset at the next cairn (R447). -/
  resetDue : List Nat := []
  /-- Chambers powered down (R23, R24). -/
  off : List Nat := []
  /-- Tables whose lookup met a parity error in this epoch, as (chamber, TID) (R447). -/
  lutDue : List (Nat × Nat) := []
  deriving DecidableEq, Repr

/-- What the block has sent outwards, newest last: the model's own record, which no rule reads. -/
inductive Output where
  /-- A frame left on a port (R328 to R350): destination MAC and EtherType are the peer's; the bytes are the ZFT frame. -/
  | frame (port : Nat) (peer : Nat) (queue : Nat) (data : List Byte)
  /-- A write to host memory by a function, with the poison mark of R448. -/
  | hostWrite (fn : Nat) (addr : Nat) (data : List Byte) (poisoned : Bool)
  /-- An MSI-X interrupt of a function (R409). -/
  | msix (fn vector : Nat)
  /-- Characters of the monitor port. -/
  | line (text : String)
  /-- One byte of the monitor port: the acknowledgement of a LOAD block (R498). -/
  | byte (b : Byte)
  /-- A reply object on the DOE mailbox or the management transport (R410, R486). -/
  | object (transport : Nat) (data : List Byte)
  /-- The completion of a configuration request (R411): served, or Request Retry Status. -/
  | config (served : Bool)
  /-- Read data of a BAR access (R399, R503). -/
  | readData (addr : Nat) (data : Nat)
  deriving DecidableEq, Repr

/-- A host ring entry: its function, ring, CLIENT_SEQ and tenant (R403). -/
structure HostRef where
  fn : Nat
  ring : Nat
  seq : Nat
  tenant : Nat
  /-- Its function has been reset since (R401). -/
  gone : Bool := false
  deriving DecidableEq, Repr

/-- A move or replacement under way beside its home record: the check value the destination must meet
(of the load, for REPLACE), and whether the check has been asked for by a bulk load's completion (R242). -/
structure MoveWork where
  datum : Nat
  /-- For REPLACE: the check value of the load and its algorithm, if the request carried one. -/
  expect : Option (Nat × Nat)
  /-- For REPLACE: the bytes that have arrived and are not yet written. -/
  content : List Byte
  /-- The host ring entry that asked, if any. -/
  entry : Option HostRef
  /-- NOTIFY_FLIP was set (R406). -/
  notify : Bool
  /-- Elements of the weight block that is loaded, 0 for none (R102), and the datum of its reload copy (R121). -/
  weight : Nat := 0
  copy : Nat := 0
  /-- Its entry has completed, and its flip is awaited. -/
  done : Bool := false
  deriving DecidableEq, Repr

/-- The part of a MOVE's source that its destination holds already: from `home` on, `copied` bytes, at `dest` (R243). -/
structure Mirror where
  datum : Nat
  home : Nat
  dest : Nat
  copied : Nat
  deriving DecidableEq, Repr

/-- A loaded weight block: its datum, the address that readers use, its elements at full size (R102), the datum of its reload copy, and its home
record's fields, by which a home lost in SLEEP is allocated again (R121). -/
structure WeightBlock where
  datum : Nat
  base : Nat
  elements : Nat
  copy : Nat
  owner : Nat
  tier : Nat
  home : Nat
  length : Nat
  referrer : Nat
  deriving DecidableEq, Repr

/-- The tier block beside its registers and the home records in memory (R237 to R253). -/
structure Tier where
  /-- Live charges by owner × 4 + tier; owner 64 is the system account (R245, R256). -/
  used : List (Nat × Nat) := []
  /-- Live ITEMS_LIVE by tenant (R249). -/
  items : List (Nat × Nat) := []
  moves : List MoveWork := []
  mirrors : List Mirror := []
  /-- Bytes of the home table, charged to the system account (R252). -/
  table : Nat := 0
  /-- Ranges freed and credited at the next cairn, of abandoned moves and reload copies: (datum, owner, tier, first, length) (R244). -/
  freeDue : List (Nat × Nat × Nat × Nat × Nat) := []
  /-- Granules whose home-map entry failed its parity check, until the map is rewritten (R258). -/
  badMap : List Nat := []
  /-- Controllers whose MAPPED flips are stopped until the map is rewritten: 21 strata, 5 to 16 stacks (R258). -/
  mapStop : List Nat := []
  /-- Refusals of this epoch already recorded, by owner × 4 + tier (R247). -/
  quotaSaid : List Nat := []
  /-- Chunks copied in this epoch by controller (R242). -/
  copied : List (Nat × Nat) := []
  /-- LOST data whose referrers are set invalid at the next cairn (R253). -/
  lostDue : List Nat := []
  /-- The pools charged: account, tier, bytes (R246). -/
  pools : List (Nat × Nat × Nat) := []
  deriving DecidableEq, Repr

/-- A valid entry of a LUT directory (R130). -/
structure LutEntry where
  first : Nat
  pages : Nat
  fmt : Nat
  metric : Nat
  width : Nat
  t : Nat
  v : Nat
  delta : Nat
  zsum : Nat
  nonfinite : Bool
  quantId : Nat
  deriving DecidableEq, Repr

/-- Where a query or operation came from: a client's node (R345), a ring entry of a function (R403), or one that a
reset of its function has discarded (R401). -/
inductive Origin where
  | client (node : Nat)
  | ring (fn r : Nat) (replyAddr replyCap : Nat)
  | gone (fn : Nat)
  /-- An operation that another module admitted and answers (R345, R346). -/
  | other
  deriving DecidableEq, Repr

/-- A query or operation in the layout of R345 or R180, with its tenant and client sequence. -/
structure Request where
  tenant : Nat
  seq : Nat
  body : List Byte
  origin : Origin
  deriving DecidableEq, Repr

/-- The place of a token-sequence query in a batch (R105): its QORD, the model group by its place in the plan's order, its first
position and the positions it takes. Positions that no seat takes are padding. -/
structure Seat where
  qord : Nat
  group : Nat
  start : Nat
  len : Nat
  deriving DecidableEq, Repr

/-- An admitted cohort: its ingress epoch, its queries in admitted order, QORD being the place in the list (R63), and the batches of
its token sequences (R105). -/
structure Cohort where
  epoch : Nat
  queries : List Request
  seats : List Seat := []
  deriving DecidableEq, Repr

/-- An operation admitted, with its commit epoch (R181, R182). -/
structure StagedOp where
  req : Request
  commit : Nat
  /-- Once staged: the list chosen and the code, for an INSERT. -/
  staged : Option (Nat × List Byte)
  /-- Refused at staging (R186), or unstaged by an abandoned SCATTER (R220): `staged` is then none. -/
  refused : Bool
  deriving DecidableEq, Repr

/-- Ingress: arrivals since the last cut-off, carried requests, the (tenant, sequence, epoch) marks of the last 16
epochs, and the cohorts in the pipeline (R62, R63, R181). -/
structure Ingress where
  arriving : List Request := []
  arrivingOps : List Request := []
  carried : List Request := []
  carriedOps : List Request := []
  seen : List (Nat × Nat × Nat) := []
  seenOps : List (Nat × Nat × Nat) := []
  cohorts : List Cohort := []
  /-- The epoch whose cut-off has last been made. -/
  cutAt : Option Nat := none
  /-- Queries of a cohort that a widened look serves: (ingress epoch, QORD, candidates wanted) (R198). -/
  widened : List (Nat × Nat × Nat) := []
  /-- The lists that stage 2 keeps for a query, in their rank: (ingress epoch, QORD, lists) (R197). -/
  ranks : List (Nat × Nat × List Nat) := []
  /-- Where the plan has the probe lists of widened looks, and the table of each query ordinal (R198). -/
  wide : List ProbePlace := []
  tids : List (Nat × Nat) := []
  deriving DecidableEq, Repr

/-- State of a cohort and shard that a member keeps read-only as a shadow (R384). -/
structure Shadow where
  cohort : Nat
  shard : Nat
  kind : Nat
  until' : Nat
  deriving DecidableEq, Repr

/-- A claim under way (R384): the member that disclaims, the cairn at which the state is claimed, the handoff. -/
structure Claim where
  cohort : Nat
  shard : Nat
  kind : Nat
  from' : Nat
  due : Nat
  handoff : Option (List Byte)
  deriving DecidableEq, Repr

/-- The pool's state beside its registers and the map halves in the strata (R378 to R384, R392). -/
structure Pool where
  /-- A map is current. -/
  haveMap : Bool := false
  /-- The epoch at whose cairn the current map took effect. -/
  takenAt : Nat := 0
  /-- The pending map's EFFECTIVE. -/
  pendingAt : Nat := 0
  /-- The bytes of the previous map, while a cohort may be routed by it (R382). -/
  prevMap : List Byte := []
  shadows : List Shadow := []
  claims : List Claim := []
  /-- (cohort, shard) pairs whose state no source held (R384). -/
  lost : List (Nat × Nat) := []
  /-- (peer, epoch) pairs for which POOL_STALE_REQUEST was raised (R383). -/
  staleSaid : List (Nat × Nat) := []
  /-- Tenants' energy accumulators in femtojoules, below 2^128 (R392). -/
  energy : List (Nat × Nat) := []
  /-- Metering counters at the previous cairn, by offset (R392). -/
  meterPrev : List (Nat × Nat) := []
  deriving DecidableEq, Repr

/-- A segment version that a flowstone pass has built: its ordinal (new or rewritten), segment number and count. -/
structure NewVersion where
  ord : Nat
  num : Nat
  count : Nat
  /-- For each slot, the position it came from: ordinal and slot, or 0xFFFF and the side sequence. -/
  sources : List (Nat × Nat)
  deriving DecidableEq, Repr

/-- A flowstone pass (R193, R194): its list, base epoch, the new versions, the ordinals it rewrites, one past the
last side entry it merged, and the cairn its flip is armed for. -/
structure FlowPass where
  list : Nat
  base : Nat
  versions : List NewVersion
  mergedEnd : Nat
  flipAt : Nat
  /-- Membership updates committed since the base epoch: (tenant's set, item id, member) (R194). -/
  updates : List (Nat × Nat × Bool)
  /-- The epoch at whose cairn its flip was last tried. -/
  triedAt : Option Nat
  deriving DecidableEq, Repr

/-- Index state beside registers and stored structures. -/
structure IndexSt where
  /-- Filter sets in use: (tenant, set, bitmap base, summary base) (R176). -/
  filterSets : List (Nat × Nat × Nat × Nat) := []
  staged : List StagedOp := []
  passes : List FlowPass := []
  /-- Overlay entries whose bit was written: (list, slot, ordinal, version parity, commit), removed at the next cairn (R192). -/
  folded : List (Nat × Nat × Nat × Nat × Nat) := []
  /-- Segment numbers freed and not reused (R195); numbers below `nextSeg` and not here are in use. -/
  freeSegs : List Nat := []
  nextSeg : Nat := 0
  /-- Lists that raised INDEX_SIDE_FULL, and INDEX_OVERLAY_FULL, in this epoch (R184, R185). -/
  sideSaid : List Nat := []
  ovlSaid : List Nat := []
  /-- Ended operations whose completions wait to be sent (R187, R346, R406): request, status, commit epoch. -/
  ended : List (Request × Nat × Nat) := []
  deriving DecidableEq, Repr

/-- An entry of a unit's tap table (R321); `disagree` marks a transfer two units computed differently. -/
structure TapEntry where
  unit : Nat
  tap : Nat
  poly : Nat
  tag : Nat
  value : Nat
  poison : Bool
  disagree : Bool
  deriving DecidableEq, Repr

/-- The check-value units (R320, R321) and the marks of weight blocks (R118, R120). -/
structure Cvu where
  /-- Newest last; at most 64 entries of each unit. -/
  taps : List TapEntry := []
  /-- Values that units compute wrongly for the next transfer: (unit, value). -/
  faulty : List (Nat × Nat) := []
  /-- Base addresses of blocks marked reloading, and marked damaged. -/
  reloading : List Nat := []
  damaged : List Nat := []
  /-- Failed reload attempts by base address. -/
  attempts : List (Nat × Nat) := []
  /-- Blocks whose mark is cleared at the next cairn (R120). -/
  readable : List Nat := []
  /-- Chambers whose checker failed its self-test (R322). -/
  checkers : List Nat := []
  /-- Units that disagreed repeatedly and are replaced at the next cairn, as (unit, unit, tap) (R447). -/
  swapDue : List (Nat × Nat × Nat) := []
  deriving DecidableEq, Repr

/-- A read queued in a channel sequencer (R298, R307): its step, the extent, where its bytes and status bytes go
(operands in the form of A_ADDR), whether its row status is of R210, and the access counter its row has (0: none). -/
structure FlashRead where
  chamber : Nat
  idx : Nat
  origin : Nat
  slot : Nat
  tenant : Nat
  lbn : Nat
  off : Nat
  len : Nat
  dsts : List Nat
  stats : List Nat
  row : Bool
  table : Nat
  counter : Nat
  deadline : Bool
  late : Bool
  /-- The step has read poison, so that whatever it delivers is poisoned (R94). -/
  dirty : Bool
  /-- The outputs of the step, as operand addresses and lengths, that poison in this read spoils (R94). -/
  outs : List (Nat × Nat)
  deriving DecidableEq, Repr

/-- A page waiting to be programmed (R298, R310). -/
structure FlashProg where
  chamber : Nat
  idx : Nat
  origin : Nat
  slot : Nat
  tenant : Nat
  lbn : Nat
  page : Nat
  data : List Byte
  poison : Bool
  deriving DecidableEq, Repr

/-- A buffer set (R293): its index in its channel, its SLC blocks, the pages it has taken, and its age. -/
structure BufSet where
  index : Nat
  lbn : Nat
  blocks : List Nat
  written : Nat
  opened : Nat
  deriving DecidableEq, Repr

/-- A log block (R294): its physical block, the logical pages appended, oldest first, and when it was last written. -/
structure LogBlock where
  lbn : Nat
  pblock : Nat
  pages : List Nat
  last : Nat
  deriving DecidableEq, Repr

/-- The flash controller beside its registers, the map in the strata and the physical block table in the stacks. -/
structure Flash where
  reads : List FlashRead := []
  progs : List FlashProg := []
  sets : List BufSet := []
  logs : List LogBlock := []
  /-- Blocks freed and not yet erased: (channel, physical block). -/
  erases : List (Nat × Nat) := []
  /-- Logical blocks queued for relocation (R301). -/
  relocate : List Nat := []
  /-- The retry level at which the next read of a logical block starts (R301). -/
  level : List (Nat × Nat) := []
  /-- The 64-bit write sequence, and its value at the last journal entry (R300, R306). -/
  writeSeq : Nat := 0
  journalSeq : Nat := 0
  /-- The map checkpoint and the journal since it: (logical block, entry) (R305). -/
  ckpt : List (Nat × Nat) := []
  journal : List (Nat × Nat) := []
  ckptEpoch : Nat := 0
  /-- The physical block table as flash keeps it: (channel × 2^20 + block, entry). -/
  pbt : List (Nat × Nat) := []
  /-- The channels have been formatted (R291). -/
  formatted : Bool := false
  /-- Channels whose first refused write has made the module withdraw (R447). -/
  withdrawn : List Nat := []
  /-- LB_COUNT as fixed at format (R291). -/
  lbCount : Nat := 0
  /-- The weight blocks, kept beside their reload copies (R121). -/
  blocks : List WeightBlock := []
  /-- The flash copy of every record with a home on flash (R252), and whether the table is still to be rebuilt from it (R253). -/
  homeCopy : List (Nat × List Byte) := []
  homesDue : Bool := true
  deriving DecidableEq, Repr

/-- The strata controller beside its registers (R511). -/
structure Strata where
  /-- Atoms read in the present scrub pass. -/
  scrubbed : Nat := 0
  /-- Corrected errors of this pass by row. -/
  rowErrs : List (Nat × Nat) := []
  /-- Rows queued for repair, with their stratum. -/
  repair : List (Nat × Nat) := []
  deriving DecidableEq, Repr

/-- A completion entry (R406) with its function and ring; the host address of the reply before it, if any. -/
structure Completion where
  fn : Nat
  ring : Nat
  tenant : Nat
  seq : Nat
  epoch : Nat
  check : Nat
  bytes : Nat
  result : Nat
  status : Nat
  addr : Nat
  /-- Discarded when it is posted (R401). -/
  gone : Bool := false
  deriving DecidableEq, Repr

/-- A host query admitted and not answered: its entry, REPLY_ADDR, REPLY_CAP and snapshot epoch. -/
structure OpenQuery where
  ref : HostRef
  addr : Nat
  cap : Nat
  snapshot : Nat
  deriving DecidableEq, Repr

/-- An entry between the SQ head and the last tail (R405); `late`: the sort of the epoch it arrived in has begun. -/
structure Arrived where
  fn : Nat
  ring : Nat
  late : Bool
  deriving DecidableEq, Repr

/-- The host controller beside its registers. Rings are named by function × 16 + ring. -/
structure HostSt where
  /-- Work that has ended and whose completion is not yet posted, oldest first. -/
  ended : List Completion := []
  /-- Completions that wait for a full CQ (R408), at most 4,096. -/
  hold : List Completion := []
  arrived : List Arrived := []
  queries : List OpenQuery := []
  /-- SQ tails and CQ heads as the host last wrote them. -/
  tails : List (Nat × Nat) := []
  heads : List (Nat × Nat) := []
  /-- CQs on a pass whose PHASE is 0. -/
  wraps : List Nat := []
  /-- CQ entries posted since the last interrupt, and when the oldest of them was posted. -/
  unsignalled : List (Nat × Nat × Nat) := []
  /-- Rings that raised HOST_CQ_OVERFLOW in this epoch. -/
  overflowSaid : List Nat := []
  /-- The PLAN_SUPPLY entry whose VERIFY runs. -/
  plan : Option HostRef := none
  /-- Its switch epoch. -/
  planEpoch : Nat := 0
  /-- HOST_DMA_ERROR raised, as (ring, epoch) (R447). -/
  dmaErrors : List (Nat × Nat) := []
  /-- IDE streams: keyed, and Insecure (0 the link stream, 1 to 4 selective ones). -/
  keyed : List Nat := []
  insecure : List Nat := []
  deriving DecidableEq, Repr

/-- A row staged by SCATTER (R220): its redirect entry and the operation ordinal it serves. -/
structure StagedRow where
  table : Nat
  row : Nat
  ver : Nat
  spill : Nat
  commit : Nat
  ord : Nat
  /-- INDEX of the step that staged it. -/
  idx : Nat
  deriving DecidableEq, Repr

/-- A request batch a SPLIT has formed (R221), with the addresses by which its FILL is known (R224). -/
structure SplitBatch where
  chamber : Nat
  table : Nat
  idxAddr : Nat
  outAddr : Nat
  statusAddr : Nat
  owner : Nat
  round : Nat
  indices : List Nat
  deriving DecidableEq, Repr

/-- A siphon message that a RECV has ended with: where it lies (in the form of A_ADDR), the sender's node, the SEQUENCE of
its first frame, and whether it is complete. -/
structure SiphonIn where
  chamber : Nat
  addr : Nat
  peer : Nat
  seq : Nat
  complete : Bool
  deriving DecidableEq, Repr

/-- The row block beside its registers and the tables in memory. -/
structure Rows where
  staged : List StagedRow := []
  /-- Spill rows in use: (table, spill row). -/
  spills : List (Nat × Nat) := []
  splits : List SplitBatch := []
  inbox : List SiphonIn := []
  /-- Redirect entries whose copy is made and that leave at the next cairn: (table, bucket, slot) (R213). -/
  folded : List (Nat × Nat × Nat) := []
  /-- Reply areas of requests that failed, for which nothing is sent: (chamber, address) (R223). -/
  noReply : List (Nat × Nat) := []
  /-- Tables whose inactive hot index is built, with the epoch of the build (R226). -/
  hotReady : List (Nat × Nat) := []
  /-- Tables whose refresh is still being built (R226). -/
  hotBusy : List Nat := []
  /-- What a hot index and its copies are charged: table, index, tenant, bytes in the strata, bytes in the stacks (R227). -/
  hotCharged : List (Nat × Nat × Nat × Nat × Nat) := []
  deriving DecidableEq, Repr

/-- A work register of a unit: 32 lanes, and whether they carry poison (R265, R280). -/
structure WorkReg where
  lanes : List Nat
  bad : Bool
  deriving DecidableEq, Repr

/-- The work registers W0 to W7 of a unit, named by die × 32 + pair. -/
structure UnitWork where
  unit' : Nat
  regs : List WorkReg
  deriving DecidableEq, Repr

/-- What a run keeps for its continuation: the work registers, the next group of each die, and whether PIM_UNCORRECTABLE was raised
(R268, R273, R280). -/
structure KeptWork where
  chamber : Nat
  idx : Nat
  origin : Nat
  work : List UnitWork
  next : List (Nat × Nat)
  said : Bool
  deriving DecidableEq, Repr

/-- A RUN admitted or held (R268 to R274): its step, program and masks, the groups it processes now (`from'` to one before `until'`),
whether a continuation follows, the next group of each selected die, the work registers of the
units, and whether PIM_UNCORRECTABLE was raised. -/
structure PimRun where
  chamber : Nat
  idx : Nat
  origin : Nat
  tenant : Nat
  metered : Bool
  stack : Nat
  prog : List Byte
  pairMask : Nat
  dieMask : Nat
  rows : List Nat
  until' : Nat
  more : Bool
  next : List (Nat × Nat)
  work : List UnitWork
  said : Bool
  deriving DecidableEq, Repr

/-- A stripe that a seal made SEALING (R279): whose seal, and the epoch in which its last atom was written. -/
structure SealMark where
  stack : Nat
  stripe : Nat
  chamber : Nat
  idx : Nat
  origin : Nat
  written : Option Nat
  deriving DecidableEq, Repr

/-- The stack controllers beside their registers (R270 to R281). -/
structure Pim where
  /-- Admitted runs, oldest first, at most 16 of each stack; and runs held at issue. -/
  queue : List PimRun := []
  held : List PimRun := []
  seals : List SealMark := []
  /-- Runs whose continuation follows. -/
  kept : List KeptWork := []
  /-- The dies (stack × 16 + die) on which a chunk runs, each with the refresh rate in force when it started (R274). -/
  chunks : List (Nat × Nat) := []
  /-- Halted dies (R276). -/
  halted : List Nat := []
  /-- Seals that wait to be issued again after RETAIN (R281): chamber and step. -/
  reissue : List (Nat × Step) := []
  /-- Greatest temperature of each die in the present epoch. -/
  maxTemp : List (Nat × Int) := []
  deriving DecidableEq, Repr

/-- A frame in an egress queue (R359): its Ethernet header, its ZFT header, prefix and data, its trailer once computed, which
time is inserted as it leaves (1 T_SRC, 2 t1, 3 t3), and when it was queued. -/
structure QFrame where
  port : Nat
  queue : Nat
  peer : Nat
  tenant : Nat
  eth : List Byte
  zft : List Byte
  trailer : Option Nat
  stamp : Nat
  since : Nat
  deriving DecidableEq, Repr

/-- Sums of an egress queue's samples in the present epoch (R369). -/
structure QSample where
  n : Nat
  depthMin : Nat
  depthMax : Nat
  depthSum : Nat
  delayMin : Nat
  delayMax : Nat
  delaySum : Nat
  deriving DecidableEq, Repr

/-- The egress schedulers (R360 to R369): queues in order of arrival; deficits, urgent marks and urgent services by port × 16 + queue;
the weighted queue visited last by each port and whether the visit goes on; levels of the buckets that are not full. -/
structure Egress where
  queues : List QFrame := []
  deficits : List (Nat × Int) := []
  visits : List (Nat × Nat × Bool) := []
  urgent : List Nat := []
  served : List Nat := []
  levels : List (Nat × Nat) := []
  samples : List (Nat × QSample) := []
  /-- Ports that raised EGS_S0_DROP in this epoch. -/
  dropSaid : List Nat := []
  deriving DecidableEq, Repr

/-- A reliable frame sent and not acknowledged (R347). -/
structure Unacked where
  seq : Nat
  type : Nat
  msg : Nat
  frame : QFrame
  sent : Nat
  resends : Nat
  deriving DecidableEq, Repr

/-- The sequence state of a peer (R334, R338, R347): next sequence of each class and next message sent; whether the next reliable
frame carries SYN; plan-class sequences accepted; the next reliable one expected, and frames held ahead of it. -/
structure PeerSeq where
  peer : Nat
  planOut : Nat := 0
  relOut : Nat := 0
  msgOut : Nat := 0
  syn : Bool := true
  planIn : List Nat := []
  relIn : Nat := 0
  held : List (Nat × List Byte) := []
  unacked : List Unacked := []
  deriving DecidableEq, Repr

/-- A message some of whose fragments have arrived (R336). -/
structure Partial where
  peer : Nat
  type : Nat
  msg : Nat
  total : Nat
  tenant : Nat
  mapVersion : Nat
  epoch : Nat
  poison : Bool
  parts : List (Nat × List Byte)
  deriving DecidableEq, Repr

/-- A RECV that has issued in the present epoch (R341, R342). -/
structure RecvSt where
  chamber : Nat
  idx : Nat
  origin : Nat
  deadline : Nat
  p : RecvP
  total : Option Nat
  got : List (Nat × Nat)
  poison : Bool
  lost : Bool
  firstSeq : Nat
  completed : Bool
  deriving DecidableEq, Repr

/-- A plan-named fragment held in a landing buffer (port 8 stands for the gallery network): its match, where it goes, its epoch (R341). -/
structure Landed where
  port : Nat
  chamber : Nat
  peer : Nat
  srcChamber : Nat
  tag : Nat
  epoch : Nat
  offset : Nat
  total : Nat
  poison : Bool
  seq : Nat
  data : List Byte
  deriving DecidableEq, Repr

/-- The fabric controller beside its registers. -/
structure Fabric where
  peers : List PeerSeq := []
  timeSeq : Nat := 0
  timeIn : List Nat := []
  partials : List Partial := []
  /-- Complete reliable messages not yet taken. -/
  inbox : List Partial := []
  recvs : List RecvSt := []
  landing : List Landed := []
  /-- Reports made in this epoch: (code, peer or port). -/
  said : List (Nat × Nat) := []
  /-- Failed training attempts of a port. -/
  attempts : List (Nat × Nat) := []
  /-- The last path-delay measurements of a port, at most 8, oldest first. -/
  delays : List (Nat × List Int) := []
  /-- TIME at the last TIME frame, and whether its loss was raised. -/
  timeAt : Nat := 0
  timeLost : Bool := false
  /-- Epochs without TIME_LOCKED since FAB_TIME_LOST (R447). -/
  unlocked : Nat := 0
  /-- When a port last raised FAB_FEC_DEGRADED. -/
  fecSaid : List (Nat × Nat) := []
  deriving DecidableEq, Repr

/-- A heartbeat received, directly or in a set (R452, R453): the sender's node, its epoch, the miss count, byte 18 of the message, and the
member it names as lost. -/
structure Beat where
  node : Nat
  epoch : Nat
  misses : Nat
  flags : Nat
  lost : Nat
  deriving DecidableEq, Repr

/-- The job as the module sees it (R449 to R458). -/
structure Job where
  /-- Nodes in the down set, and DOWN messages whose EFFECTIVE is awaited: (EFFECTIVE, member, cause). -/
  down : List Nat := []
  downDue : List (Nat × Nat × Nat) := []
  beats : List Beat := []
  /-- Domain tags of other nodes: TRAY, SHELF, LOOP, SWITCH (R451). -/
  tags : List (Nat × List Nat) := []
  /-- Nodes this module has declared down as coordinator or deputy. -/
  declared : List Nat := []
  noReplicaSaid : List Nat := []
  /-- The epochs of the last STRAGGLE_WINDOW that were misses, and whether the present one is a miss for a late DOWN or a held write set. -/
  misses : List Nat := []
  missNow : Bool := false
  /-- Watchdog resets of the last 4,096 epochs as (core, epoch), and retired cores; commit mismatches as (pair, epoch). -/
  resets : List (Nat × Nat) := []
  retired : List Nat := []
  mismatches : List (Nat × Nat) := []
  /-- Heartbeats of the present epoch sent. -/
  beatSent : Option Nat := none
  deriving DecidableEq, Repr

/-- A ramp of the input current by filler (R430), in 0.01 A from `from'` to `to'`, over `len` ns from `start`; `down`: filler leaves at its end. -/
structure Ramp where
  from' : Nat
  to' : Nat
  start : Nat
  len : Nat
  down : Bool
  deriving DecidableEq, Repr

/-- Chambers that run each kind of filler: scrub, flowstone, dummy MACs (R427). -/
structure Filler where
  scrub : Nat := 0
  flow : Nat := 0
  dummy : Nat := 0
  deriving DecidableEq, Repr

/-- The power controller beside its registers (R416 to R432). -/
structure Power where
  /-- The gate level of R424, its count of samples well below the cap, the thermal gate and its count of cool samples. -/
  g : Nat := 0
  below : Nat := 0
  thermal : Nat := 0
  cool : Nat := 0
  /-- Sum and number of the samples of the applied G in this epoch, and of the complete epochs, newest first. -/
  gSum : Nat := 0
  gN : Nat := 0
  gPast : List (Nat × Nat) := []
  /-- The same of the input current, in 0.01 A; the last sample of it, and the level before the generator was started. -/
  iSum : Nat := 0
  iN : Nat := 0
  iPast : List (Nat × Nat) := []
  iLast : Nat := 0
  idle : Nat := 0
  /-- TIME from which the running sums of samples count while no epochs run (R428). -/
  iFrom : Nat := 0
  /-- In this epoch: G was above 0; a warning, a limit was in force; PWR_THERMAL_LIMIT was raised. -/
  capped : Bool := false
  warned : Bool := false
  limited : Bool := false
  limitSaid : Bool := false
  /-- Groups that hold a warning (0 junction, 1 strata, 2 stack dies, 3 regulators), with the hottest sensor and its temperature. -/
  warm : List (Nat × Nat × Int) := []
  /-- Excluded sensors as (group, sensor). -/
  excluded : List (Nat × Nat) := []
  /-- Regulator temperatures as last sampled (no register shows them all). -/
  regulators : List Int := []
  /-- Complete epochs for which a die has held above HALT_C, by stack × 16 + die. -/
  hot : List (Nat × Nat) := []
  filler : Filler := {}
  ramp : Option Ramp := none
  /-- Input energy not yet a whole millijoule, in units of 10⁻¹¹ J. -/
  energy : Nat := 0
  /-- An operating-point step under way: the point it leads to, and when it began. -/
  step : Option (Nat × Nat) := none
  /-- The CORE clock is stretched: CORE cycles since the trip are counted when it ends. -/
  stretched : Bool := false
  deriving DecidableEq, Repr

/-- The always-on domain and the regulator sequencer beside their registers (R434 to R436, R520 to R526). -/
structure Aon where
  /-- VAON is up. -/
  up : Bool := true
  /-- The next row of R521 (0 VAON to 6 VSTK_CORE, 7 reset release; 8 to 10 the rows of TRAINING). -/
  seq : Option Nat := none
  /-- The crystal has reached its first stable cycle. -/
  crystal : Bool := false
  /-- TIME as last copied, and AON_RTC then (R434). -/
  holdTime : Nat := 0
  holdRtc : Nat := 0
  /-- What PWR_RAIL_FAULT, and PWR_THERMAL_TRIP, raise at the next BOOT: the rail (0xFF: no REFCLK), the group and sensor. -/
  rail : Option Nat := none
  trip : Option (Nat × Nat) := none
  /-- TIME of a VIN trip from which the input has not recovered. -/
  vinAt : Option Nat := none
  deriving DecidableEq, Repr

/-- What a start leaves beside the boot registers (R463 to R479). -/
structure Boot where
  /-- The boot sequence of the present BOOT has run. -/
  ran : Bool := false
  /-- The step at which the sequence has stopped for good, while the 5 s timer runs (R464). -/
  hungAt : Option Nat := none
  /-- Configuration requests are served (R411). -/
  config : Bool := false
  /-- TRAINING was entered by RESUME (R480). -/
  resumed : Bool := false
  /-- The operator key that R42 uses for SIGNER 1 (R475). -/
  operKey : List Byte := []
  /-- The OPERATOR_KEY of the running image, loaded for plans or not (R476). -/
  imageKey : List Byte := []
  /-- Measurements 2 to 6 (R487). -/
  measured : List (List Byte) := []
  /-- The vendor key, serial and calibration section of the running image. -/
  vendorKey : List Byte := []
  cal : List Byte := []
  calIndex : Nat := 0
  /-- Configuration records that no register shows: FLASH_GEOMETRY, FLASH_RETRY, LANE_MAP (R477), and the trims of R478. -/
  geometry : List Nat := []
  retry : List Byte := []
  lanes : List Byte := []
  trims : List (Nat × List Byte) := []
  /-- The device certificate and the root certificate (R467). -/
  certs : List (List Byte) := []
  deriving DecidableEq, Repr

/-- A secured session (R486): transport 0 is the DOE, n + 1 the fabric peer n; whether FINISH has completed it; and how often its keys were updated. -/
structure SpdmSession where
  transport : Nat
  id : Nat
  finished : Bool
  updates : Nat
  deriving DecidableEq, Repr

/-- The SPDM responder (R486): how far each transport has negotiated (1 version, 2 capabilities, 3 algorithms), and the sessions. -/
structure Spdm where
  stage : List (Nat × Nat) := []
  sessions : List SpdmSession := []
  nextId : Nat := 0
  /-- The values of measurements 7, 8 and 9 at the latest snapshot point (R487). -/
  banks : List (List Byte) := []
  deriving DecidableEq, Repr

/-- The Padon monitor (R491 to R501): a LOAD under way by its image length, with its next block and how often that was rejected; the length of the
image staged, and whether it passed the checks of R474. -/
structure Monitor where
  load : Option Nat := none
  block : Nat := 0
  rejects : Nat := 0
  staged : Nat := 0
  accepted : Bool := false
  deriving DecidableEq, Repr

/-- The block without its memories and its queue of commands. -/
structure Dev where
  regs : Regs := {}
  ctr : Counters := {}
  latch : Latches := {}
  flt : FaultLog := {}
  epc : EpochGen := {}
  seq : Sequencers := {}
  out : List Output := []
  /-- Counts the free values handed out (the model's own). -/
  freeCtr : Nat := 0
  /-- Home maps: granules not in their identity place, as (granule read, granule used) (R241). -/
  homeMap : List (Nat × Nat) := []
  tier : Tier := {}
  /-- The LUT directories: the VALID entries, by chamber × 64 + TID (R130). -/
  lutDir : List (Nat × LutEntry) := []
  ingress : Ingress := {}
  pool : Pool := {}
  idx : IndexSt := {}
  cvu : Cvu := {}
  fls : Flash := {}
  strata : Strata := {}
  host : HostSt := {}
  rows : Rows := {}
  pim : Pim := {}
  egs : Egress := {}
  fab : Fabric := {}
  job : Job := {}
  power : Power := {}
  aon : Aon := {}
  boot : Boot := {}
  spdm : Spdm := {}
  mon : Monitor := {}
  deriving DecidableEq, Repr

/-- The block: everything but its memories, the memories, and the commands that wait, first in first out. -/
structure State where
  dev : Dev
  mem : Mem
  pending : List Instr
  deriving DecidableEq, Repr

/-- The block right after reset: every register at its reset value, nothing in memory, nothing waiting. -/
def State.reset : State := { dev := {}, mem := {}, pending := [] }

end Sys2Proof.Machine
end

