-- ==== Sys2Proof/Machine/Ops.lean ====
section
/-! DEFINITION. The named operations over registers, counters, memories and the fault log that every meaning
uses, and the end of a command (`State.settle`), at which Lantern's queued fault records reach the ring. -/

namespace Sys2Proof.Machine

/-! ### Memory -/

/-- The first key of a space; every space is smaller than 2^56 bytes. -/
def Space.base : Space → Nat
  | .dram => 0
  | .store => 2 ^ 56
  | .lut => 2 * 2 ^ 56
  | .vreg => 3 * 2 ^ 56
  | .hdr => 4 * 2 ^ 56
  | .nand => 5 * 2 ^ 56
  | .nor => 6 * 2 ^ 56

/-- The byte at key `k`; what nothing has written reads 0 (log entry 3). -/
def cellGet (k : Nat) : List Host.Cell → Byte
  | [] => 0
  | (j, b) :: rest => if j = k then b else if k < j then 0 else cellGet k rest

/-- The cells with byte `b` at key `k`, in canonical form. -/
def cellSet (k : Nat) (b : Byte) : List Host.Cell → List Host.Cell
  | [] => if b = 0 then [] else [(k, b)]
  | (j, c) :: rest =>
    if k < j then (if b = 0 then (j, c) :: rest else (k, b) :: (j, c) :: rest)
    else if j = k then (if b = 0 then rest else (k, b) :: rest)
    else (j, c) :: cellSet k b rest

/-- Canonical form: keys rise strictly from `lo` on, and no listed byte is 0. -/
def cellsWf (lo : Nat) : List Host.Cell → Bool
  | [] => true
  | (j, b) :: rest => decide (lo ≤ j) && b != 0 && cellsWf (j + 1) rest

/-- Strictly rising from `lo` on. -/
def rising (lo : Nat) : List Nat → Bool
  | [] => true
  | j :: rest => decide (lo ≤ j) && rising (j + 1) rest

/-- The canonical form of the memories. -/
def Mem.wf (m : Mem) : Bool := cellsWf 0 m.cells && rising 0 m.poison

def Mem.get (m : Mem) (sp : Space) (a : Nat) : Byte := cellGet (sp.base + a) m.cells

def Mem.set (m : Mem) (sp : Space) (a : Nat) (b : Byte) : Mem := { m with cells := cellSet (sp.base + a) b m.cells }

/-- `n` bytes from address `a` on. -/
def Mem.read (m : Mem) (sp : Space) (a : Nat) : Nat → List Byte
  | 0 => []
  | n + 1 => m.get sp a :: m.read sp (a + 1) n

def Mem.write (m : Mem) (sp : Space) (a : Nat) : List Byte → Mem
  | [] => m
  | b :: bs => (m.set sp a b).write sp (a + 1) bs

/-- Insertion into and removal from a rising list. -/
def risingInsert (k : Nat) : List Nat → List Nat
  | [] => [k]
  | j :: rest => if k < j then k :: j :: rest else if j = k then j :: rest else j :: risingInsert k rest

def risingErase (k : Nat) : List Nat → List Nat
  | [] => []
  | j :: rest => if j = k then rest else if k < j then j :: rest else j :: risingErase k rest

/-- The bytes that one poison mark covers: a register element, a 32-bit word of the LUT store, 32 bytes elsewhere (R94, R130; log entry 4). -/
def Space.grain : Space → Nat
  | .lut | .vreg => 4
  | _ => 32

/-- The granules that `n` bytes from `a` touch: the key of the first, and how many. -/
def granuleOf (sp : Space) (a : Nat) : Nat := (sp.base + a) / sp.grain * sp.grain
def granuleCount (sp : Space) (a n : Nat) : Nat := if n = 0 then 0 else (a + n - 1) / sp.grain - a / sp.grain + 1

def Mem.isPoisoned (m : Mem) (sp : Space) (a n : Nat) : Bool :=
  n != 0 && m.poison.any fun g => granuleOf sp a ≤ g && decide (g < sp.base + a + n)

/-- Marks every granule of the range. -/
def Mem.mark (m : Mem) (sp : Space) (a n : Nat) : Mem :=
  { m with poison := (List.range (granuleCount sp a n)).foldl (fun p i => risingInsert (granuleOf sp a + sp.grain * i) p) m.poison }

/-- Clears every granule the range covers whole (log entry 4). -/
def Mem.unmark (m : Mem) (sp : Space) (a n : Nat) : Mem :=
  let key (i : Nat) : Nat := granuleOf sp a + sp.grain * i
  let whole := (List.range (granuleCount sp a n)).filter fun i => decide (sp.base + a ≤ key i) && decide (key i + sp.grain ≤ sp.base + a + n)
  { m with poison := whole.foldl (fun p i => risingErase (key i) p) m.poison }

/-- A write with its poison: poisoned data marks every granule touched, clean data clears those it covers. -/
def Mem.store (m : Mem) (sp : Space) (a : Nat) (bs : List Byte) (poison : Bool) : Mem :=
  let m' := m.write sp a bs
  if poison then m'.mark sp a bs.length else m'.unmark sp a bs.length

/-- Clears a whole space: bytes 0, no poison (R97, R133). -/
def Mem.clear (m : Mem) (sp : Space) : Mem :=
  { cells := m.cells.filter fun (k, _) => !(sp.base ≤ k && decide (k < sp.base + 2 ^ 56)),
    poison := m.poison.filter fun g => !(sp.base ≤ g && decide (g < sp.base + 2 ^ 56)) }

/-- Clears the keys `lo` to `hi - 1` of a space. -/
def Mem.clearRange (m : Mem) (sp : Space) (lo hi : Nat) : Mem :=
  { cells := m.cells.filter fun (k, _) => !(sp.base + lo ≤ k && decide (k < sp.base + hi)),
    poison := m.poison.filter fun g => !(sp.base + lo ≤ g && decide (g < sp.base + hi)) }

/-! ### Registers and counters -/

namespace Dev

/-- The value a read of the field returns. -/
def rd (d : Dev) (f : Field) : Nat := (assocD (BitVec.ofNat 64 f.reset) f.key d.regs.held).toNat

def flag (d : Dev) (f : Field) : Bool := d.rd f != 0

/-- The value in effect: the last applied one, for a field that does not apply at once (R9). -/
def val (d : Dev) (f : Field) : Nat :=
  if f.app = .now then d.rd f else (assocD (BitVec.ofNat 64 f.reset) f.key d.regs.eff).toNat

def on (d : Dev) (f : Field) : Bool := d.val f != 0

/-- The module's own update of a field, or the held half of a write. -/
def put (d : Dev) (f : Field) (n : Nat) : Dev :=
  { d with regs := { d.regs with held := assocPut f.key (BitVec.ofNat 64 (n % 2 ^ f.width)) d.regs.held } }

def putFlag (d : Dev) (f : Field) (b : Bool) : Dev := d.put f (boolNat b)

/-- Makes the held value of a field the one in effect. -/
def adopt (d : Dev) (f : Field) : Dev :=
  { d with regs := { d.regs with eff := assocPut f.key (BitVec.ofNat 64 (d.rd f)) d.regs.eff } }

/-- Adds to a counter, which stays at its greatest value (R38). -/
def bump (d : Dev) (c : Nat) (n : Nat := 1) : Dev :=
  { d with ctr := { d.ctr with live := assocPut c (BitVec.ofNat 64 (min (2 ^ 64 - 1) ((assocD 0#64 c d.ctr.live).toNat + n))) d.ctr.live } }

/-- The live value of a counter, and the value at the last snapshot point. -/
def count (d : Dev) (c : Nat) : Nat := (assocD 0#64 c d.ctr.live).toNat
def counted (d : Dev) (c : Nat) : Nat := (assocD 0#64 c d.ctr.snap).toNat

/-- Every counter is snapshotted (R38). -/
def snapshot (d : Dev) : Dev := { d with ctr := { d.ctr with snap := d.ctr.live } }

/-- The present epoch number and TIME. -/
def epoch (d : Dev) : Nat := d.rd Reg.epcNumber
def now (d : Dev) : Nat := d.rd Reg.epcTime

def emit (d : Dev) (o : Output) : Dev := { d with out := d.out ++ [o] }

/-! ### Fault records -/

/-- The SOURCE codes of R442. -/
def srcLantern : Nat := 0
def srcGallery (c : Nat) : Nat := 1 + c / 64
def srcStack (s : Nat) : Nat := 5 + s
def srcFlash : Nat := 17
def srcFabric : Nat := 18
def srcHost : Nat := 19
def srcPower : Nat := 20
def srcStrata : Nat := 21

/-- The 32 bytes of a record (R442, R443). -/
def recordBytes (r : FaultRec) : List Byte :=
  leBytes 2 r.code.code ++ leBytes 1 (r.cls.code + 8 * boolNat r.lostBefore) ++ leBytes 1 r.source
    ++ leBytes 8 r.time ++ padTo 20 r.detail

/-- DETAIL: the items in order, each as (bytes, value), packed without gaps (R443). -/
def detailBytes (items : List (Nat × Nat)) : List Byte := items.flatMap fun (n, v) => leBytes n v

/-- How many marks equal this one in code, source and first item within REPEAT_EPOCHS epochs (R446). -/
def repeats (d : Dev) (m : FaultMark) : Nat :=
  (d.flt.marks.filter fun x => x.code = m.code && x.source = m.source && x.first = m.first
    && decide (m.epoch < x.epoch + d.val Reg.fltRepeatRepeatEpochs)).length

/-- Is a fault with this code, source and first item repeated now (R446)? -/
def repeatedNow (d : Dev) (code : FaultCode) (source first : Nat) : Bool :=
  decide (d.val Reg.fltRepeatRepeatN ≤ d.repeats { code, source, first, epoch := d.epoch })

/-- Does the ring at FLT_LOG_BASE exist: is its pair in agreement (R460, R485)? -/
def ringReady (d : Dev) : Bool :=
  let base := d.val Reg.fltLogBase
  let bytes := 32 * 2 ^ d.val Reg.fltLogSize
  base % 32 = 0 && decide (base % 0x4000000 + bytes ≤ 0x3EC0000) && decide (base < 0x400000000)

/-- The host mirror's copy of a record (R413): nothing while the mirror is off or its ring is full. -/
def mirror (d : Dev) (bytes : List Byte) : Dev :=
  let size := 2 ^ d.rd Reg.hstMirrorSize
  let tail := d.rd Reg.hstMirrorHeadTail
  if d.flag Reg.hstMirrorMirrorEn && (tail + 1) % size != d.rd Reg.hstMirrorHead % size then
    ((d.emit (.hostWrite 0 (d.rd Reg.hstMirrorBase + 32 * (tail % size)) bytes false)).emit (.msix 0 63)).put Reg.hstMirrorHeadTail ((tail + 1) % size)
  else d

/-- Lantern writes a record to the ring and its mirror, noting an overwrite of an unread one (R445).
Answers whether this is the first overwrite since OVERFLOW was cleared. -/
def writeRecord (d : Dev) (r : FaultRec) : Dev × Bool :=
  let s := d.rd Reg.fltSeq
  let size := 2 ^ d.val Reg.fltLogSize
  let lost := decide (size ≤ s) && decide (d.rd Reg.fltLogRead + size ≤ s)
  let r := { r with lostBefore := d.flt.lostNext }
  let bytes := recordBytes r
  let first := lost && !d.flag Reg.fltStatusOverflow
  let d := { d with flt := { d.flt with
    ring := if d.ringReady then d.flt.ring ++ [(d.val Reg.fltLogBase + 32 * (s % size), bytes)] else d.flt.ring,
    recent := (d.flt.recent ++ [r]).drop ((d.flt.recent.length + 1) - 64),
    lostNext := lost } }
  let d := (d.put Reg.fltSeq (s + 1)).mirror bytes
  (if lost then (d.putFlag Reg.fltStatusOverflow true).bump Ctr.fltRecordsOverwritten else d, first)

/-- Do epochs run? -/
def running (d : Dev) : Bool := d.flag Reg.epcStatusRunning

/-- The states BOOT and RECOVERY, in which records are held (R465): GLB_STATE codes 1 and 2. -/
def booting (d : Dev) : Bool := d.rd Reg.glbState = 1 || d.rd Reg.glbState = 2

/-- The effect of a record of class WITHDRAW while WITHDRAW_EN is 1 (R459). -/
def withdraw (d : Dev) : Dev :=
  if d.on Reg.fltCtrlWithdrawEn then (d.putFlag Reg.fltStatusWithdrawn true).bump Ctr.fltWithdrawals else d

/-- Raises a fault: the record of R442 with the class of R444 and R447 (`contained` says whether this
occurrence makes a cohort missing or poisons a result; `cls` overrides for codes whose class depends on the
case), and the WITHDRAW that follows, at once or when the fault is repeated (R446). In BOOT and RECOVERY the
record is held (R465). -/
def raise (d : Dev) (code : FaultCode) (source : Nat) (items : List (Nat × Nat)) (contained : Bool := false)
    (cls : Option FaultClass := none) : Dev :=
  let mark : FaultMark := { code, source, first := (items.headD (0, 0)).2, epoch := d.epoch }
  let d := { d with flt := { d.flt with marks := (d.flt.marks ++ [mark]).drop ((d.flt.marks.length + 1) - 4096) } }
  let repeated := decide (d.val Reg.fltRepeatRepeatN ≤ d.repeats mark)
  let base := (cls.or code.fixedClass).getD (if contained then .contained else .note)
  let cl := if repeated then code.repeatedClass.getD base else base
  let r : FaultRec := { code, cls := cl, lostBefore := false, source, time := d.now, detail := padTo 20 (detailBytes items) }
  let d := if d.booting then
      { d with flt := { d.flt with boot := (d.flt.boot ++ [r]).drop ((d.flt.boot.length + 1) - 64),
                                   lostNext := d.flt.lostNext || decide (64 ≤ d.flt.boot.length) } }.put Reg.btFailCode code.code
    else
      let (d, first) := d.writeRecord r
      if first then (d.writeRecord { r with code := .fltLogOverflow, cls := .note, source := srcLantern, detail := padTo 20 (leBytes 4 1) }).1 else d
  if cl = .withdraw then d.withdraw else d

/-- The mode in effect of a stripe of a stack (R277): 0 OUTER, 1 PIM, 2 SEALING. -/
def stripeMode (d : Dev) (st r : Nat) : Nat := bits (d.val (Reg.stkMode st (r / 16))) (2 * (r % 16)) 2

/-- The controller's own change of a stripe's mode, read and in effect at once. -/
def setMode (d : Dev) (st r m : Nat) : Dev :=
  let f := Reg.stkMode st (r / 16)
  let eff := setBits (d.val f) (2 * (r % 16)) 2 m
  let d := d.put f (setBits (d.rd f) (2 * (r % 16)) 2 m)
  { d with regs := { d.regs with eff := assocPut f.key (BitVec.ofNat 64 eff) d.regs.eff } }

/-- A seal that ends before its stripes are written: they are PIM again (R279). -/
def dropSeals (d : Dev) (which : SealMark → Bool) : Dev :=
  let gone := d.pim.seals.filter which
  let d := gone.foldl (fun d m => d.setMode m.stack m.stripe 1) d
  { d with pim := { d.pim with seals := d.pim.seals.filter (!which ·) } }

/-- The first admitted run of a stack with groups left on a die: the one its units run (R271). -/
def dieRun (d : Dev) (st die : Nat) : Option PimRun :=
  d.pim.queue.find? fun r => r.stack = st && r.next.any fun (k, g) => k = die && decide (g < r.until')

/-- The refresh rate of a die: 0 1×, 1 2×, 2 4× (R276, R283). -/
def dieRate (d : Dev) (st die : Nat) : Nat := bits (d.rd (Reg.stkRate st)) (2 * die) 2

/-- Refreshes postponed on a die (R275). -/
def postponed (d : Dev) (st die : Nat) : Nat := bits (d.rd (Reg.stkPostponed st)) (4 * die) 4
def setPostponed (d : Dev) (st die n : Nat) : Dev := d.put (Reg.stkPostponed st) (setBits (d.rd (Reg.stkPostponed st)) (4 * die) 4 n)

/-- The postponed refreshes of a die are issued (R275). -/
def issuePostponed (d : Dev) (st die : Nat) : Dev :=
  (d.bump (Ctr.stkRefreshes st) (d.postponed st die)).setPostponed st die 0

/-- A die on which no chunk runs starts the next one of its first run: unless it is halted, or carries 8 postponed refreshes (R274 to R276). -/
def startChunk (d : Dev) (st die : Nat) : Dev :=
  let key := st * 16 + die
  if d.pim.chunks.any (·.1 = key) || d.pim.halted.contains key || (d.dieRun st die).isNone || decide (8 ≤ d.postponed st die) then d
  else { d with pim := { d.pim with chunks := d.pim.chunks ++ [(key, d.dieRate st die)] } }

/-- The chunk of a die ends: its postponed refreshes are issued, and the next chunk starts (R274, R275). -/
def endChunk (d : Dev) (st die : Nat) : Dev :=
  let d := { d with pim := { d.pim with chunks := d.pim.chunks.filter (·.1 != st * 16 + die) } }
  (d.issuePostponed st die).startChunk st die

/-- Busy bits and queue depth of a stack follow its programs and seals (R283). -/
def pimShow (d : Dev) (st : Nat) : Dev :=
  let n := (d.pim.queue.filter (·.stack = st)).length
  ((d.put (Reg.stkQueueDepth st) n).putFlag (Reg.stkStatusPimBusy st) (n != 0)).putFlag (Reg.stkStatusSealBusy st)
    (d.pim.seals.any (·.stack = st))

/-- Runs leave the stacks before their end. A chunk of theirs ends with them, and the dies go on to the runs behind. -/
def dropRuns (d : Dev) (which : PimRun → Bool) : Dev :=
  let dies := (d.pim.queue.filter which).flatMap fun r =>
    (r.next.filter fun x => decide (x.2 < r.until') && d.dieRun r.stack x.1 = some r).map fun x => (r.stack, x.1)
  let d := { d with pim := { d.pim with queue := d.pim.queue.filter (!which ·), held := d.pim.held.filter (!which ·) } }
  (List.range 12).foldl pimShow (dies.foldl (fun d x => d.endChunk x.1 x.2) d)

/-- The programs and seals of an abandoned step leave the stacks, and its sealed stripes stand (R52, R279). -/
def pimAbandon (d : Dev) (c origin : Nat) (gone : List Nat) : Dev :=
  if d.pim.queue = [] ∧ d.pim.held = [] ∧ d.pim.seals = [] ∧ d.pim.kept = [] then d else
  let mine (ch i o : Nat) : Bool := ch = c && o = origin && gone.contains i
  let d := d.dropSeals fun m => mine m.chamber m.idx m.origin && m.written.isNone
  let d := { d with pim := { d.pim with kept := d.pim.kept.filter fun k => !mine k.chamber k.idx k.origin } }
  d.dropRuns fun r => mine r.chamber r.idx r.origin

/-- A run whose step ends unfinished leaves the stacks with its place: its continuation starts at the first group that a die has not processed
(R268, R273). Answers where that is. -/
def pimPause (d : Dev) (c origin idx : Nat) : Dev × Option Nat :=
  let mine (r : PimRun) : Bool := r.chamber = c && r.origin = origin && r.idx = idx
  match d.pim.queue.find? mine with
  | none => (d.dropRuns mine, none)
  | some r =>
    let k : KeptWork := { chamber := c, idx, origin, work := r.work, next := r.next, said := r.said }
    let first := r.next.foldl (fun m x => min m x.2) r.until'
    ({ d with pim := { d.pim with kept := d.pim.kept ++ [k] } }.dropRuns mine, some first)

end Dev

/-! ### The state: lifting, device memory, chamber locations -/

namespace State

/-- A change of everything but the memories and the queue. -/
def onDev (s : State) (f : Dev → Dev) : State := { s with dev := f s.dev }

def onMem (s : State) (f : Mem → Mem) : State := { s with mem := f s.mem }

/-- The device address after the home map (R241): maps hold 64 KiB granules, and device addresses are 40 bits wide (R231). -/
def xlate (s : State) (a : Nat) : Nat := (assocD (a / 65536) (a / 65536) s.dev.homeMap * 65536 + a % 65536) % 2 ^ 40

/-- Does the range lie in the strata or in the stacks (R231, R232)? -/
def inTier (a n : Nat) : Bool :=
  decide (a + n ≤ 0x400000000) || (decide (0x1000000000 ≤ a) && decide (a + n ≤ 0xA000000000))

/-- Bytes at device address `a`. A granule whose home-map entry has failed its parity reads as zero words, with poison (R258). -/
def devBytes (s : State) (a : Nat) : Nat → List Byte
  | 0 => []
  | n + 1 => (if s.dev.tier.badMap.contains (a / 65536) then 0 else s.mem.get .dram (s.xlate a)) :: s.devBytes (a + 1) n

/-- Is any granule of the range poisoned? -/
def devPoison (s : State) (a n : Nat) : Bool :=
  (List.range (granuleCount .dram a n)).any fun i =>
    s.mem.isPoisoned .dram (s.xlate ((a / 32 + i) * 32)) 1 || s.dev.tier.badMap.contains ((a / 32 + i) * 32 / 65536)

/-- A read at a device address with its poison; outside the tiers, zero words with poison (R232). -/
def devRead (s : State) (a n : Nat) : List Byte × Bool :=
  if inTier a n then (s.devBytes a n, s.devPoison a n) else (List.replicate n 0, true)

def devNat (s : State) (a n : Nat) : Nat := leNat (s.devRead a n).1

/-- The cells under a device range, byte by byte through the home map. -/
def devPut (s : State) (a : Nat) : List Byte → State
  | [] => s
  | b :: bs => ({ s with mem := s.mem.set .dram (s.xlate a) b }).devPut (a + 1) bs

/-- Poison of the granules of a device range after a write: set, or cleared where covered whole. -/
def devMark (s : State) (a n : Nat) (poison : Bool) : State :=
  (List.range (granuleCount .dram a n)).foldl (fun s i =>
    let g := (a / 32 + i) * 32
    if poison then { s with mem := s.mem.mark .dram (s.xlate g) 1 }
    else if a ≤ g ∧ g + 32 ≤ a + n then { s with mem := s.mem.unmark .dram (s.xlate g) 32 } else s) s

/-- The banks whose plan areas a device range meets (R40). -/
def banksMet (a n : Nat) : List Nat :=
  let off := a % 0x4000000
  if a < 0x400000000 then [0, 1].filter fun b => decide (off < 0x3F80000 + b * 0x80000) && decide (0x3F00000 + b * 0x80000 < off + n) else []

/-- The parts of a write that a move's destination holds already, as (offset in the write, destination, length) (R243). -/
def mirrorParts (s : State) (a n : Nat) : List (Nat × Nat × Nat) :=
  s.dev.tier.mirrors.filterMap fun m =>
    let lo := max a m.home
    let hi := min (a + n) (m.home + m.copied)
    if lo < hi then some (lo - a, m.dest + (lo - m.home), hi - lo) else none

/-- Bytes and poison at a device address and, where a move has copied that part of its source, at its destination too (R243). -/
def devStore (s : State) (a : Nat) (bs : List Byte) (poison : Bool) : State :=
  (s.mirrorParts a bs.length).foldl (fun s (o, b, n) => (s.devPut b ((bs.drop o).take n)).devMark b n poison)
    ((s.devPut a bs).devMark a bs.length poison)

/-- A write at a device address; outside the tiers it is discarded (R232). One that meets the active bank's area is discarded with
PLAN_WRITE_ACTIVE, and one that meets the inactive bank's area clears its VALID bit (R42). -/
def devWrite (s : State) (a : Nat) (bs : List Byte) (poison : Bool := false) : State :=
  if inTier a bs.length then
    let met := banksMet a bs.length
    let active := s.dev.rd Reg.plnCtrlActiveBank
    if met.contains active then s.onDev (·.raise .planWriteActive Dev.srcLantern [(1, active), (5, a)])
    else
      let s := s.devStore a bs poison
      if met = [] then s else s.onDev fun d => met.foldl (fun d b => d.putFlag (Reg.plnStatusValid b) false) d
  else s

/-- TIER_ADDR_RANGE for an address formed at run time (R232): the record, the counter and the register. -/
def addrFault (s : State) (a who idx : Nat) (source : Nat) : State :=
  s.onDev fun d => ((((d.raise .tierAddrRange source [(5, a), (1, who), (2, idx)] true).bump Ctr.tierAddrFaults).put
    Reg.tierAddrFault a).putFlag Reg.tierStatusAddrFault true)

end State

/-- Where a chamber's operand lies: in its store or at a device address. -/
inductive Loc where | store (off : Nat) | dev (a : Nat)
  deriving DecidableEq, Repr

/-- The base of a chamber's strata column (R14, R231). -/
def columnBase (c : Nat) : Nat := c * 0x4000000

/-- Where the part of a column that plans and homes may name ends, and the module's own structures begin (R40, R233). -/
def columnEnd : Nat := 0x3EC0000

/-- An operand in the form of A_ADDR (R87): bit 31 chooses the own column, bits 25 to 0 are the offset. -/
def locOf (c addr : Nat) : Loc :=
  if bit addr 31 then .dev (columnBase c + bits addr 0 26) else .store (bits addr 0 26)

def Loc.plus : Loc → Nat → Loc
  | .store o, n => .store (o + n)
  | .dev a, n => .dev (a + n)

namespace State

/-- A chamber's read with its poison; past the end of the store it gives zero words with poison (R94). -/
def locRead (s : State) (c : Nat) (l : Loc) (n : Nat) : List Byte × Bool :=
  match l with
  | .dev a => s.devRead a n
  | .store o =>
    if o + n ≤ 0x200000 then (s.mem.read .store (c * 0x200000 + o) n, s.mem.isPoisoned .store (c * 0x200000 + o) n)
    else (List.replicate n 0, true)

def locNat (s : State) (c : Nat) (l : Loc) (n : Nat) : Nat := leNat (s.locRead c l n).1

/-- A chamber's write; a poisoned one sets ARITH_STATUS.POISONED when it lands in the store (R98). -/
def locWrite (s : State) (c : Nat) (l : Loc) (bs : List Byte) (poison : Bool := false) : State :=
  match l with
  | .dev a => s.devWrite a bs poison
  | .store o =>
    if o + bs.length ≤ 0x200000 then
      let s := { s with mem := s.mem.store .store (c * 0x200000 + o) bs poison }
      if poison then s.onDev (·.putFlag (Reg.arithStatusPoisoned c) true) else s
    else s

/-- The fault for a location formed at run time that its space does not hold (R94, R232). -/
def locCheck (s : State) (c : Nat) (l : Loc) (n idx : Nat) : State :=
  match l with
  | .dev a => if inTier a n then s else s.addrFault a c idx (Dev.srcGallery c)
  | .store o => if o + n ≤ 0x200000 then s else
      (s.addrFault o c idx (Dev.srcGallery c)).onDev (·.put Reg.tierAddrFault (2 ^ 63 + o))

/-- Element `i` of vector register `v` of chamber `c`, and whether it is poisoned. -/
def vregKey (c v i : Nat) : Nat := ((c * 16 + v) * 1024 + i) * 4
def vget (s : State) (c v i : Nat) : Nat := leNat (s.mem.read .vreg (vregKey c v i) 4)
def vbad (s : State) (c v n : Nat) : Bool := s.mem.isPoisoned .vreg (vregKey c v 0) (4 * n)

/-- Writes elements 0 to n - 1 of a register; elements beyond stay (R90). -/
def vput (s : State) (c v : Nat) (xs : List Nat) (poison : Bool) : State :=
  let s := { s with mem := s.mem.store .vreg (vregKey c v 0) (xs.flatMap (leBytes 4)) poison }
  if poison then s.onDev (·.putFlag (Reg.arithStatusPoisoned c) true) else s

/-- The records that wait for the ring are written, oldest first, at raw strata addresses. -/
def settle (s : State) : State :=
  { s with mem := s.dev.flt.ring.foldl (fun m (a, bs) => m.store .dram (s.xlate a) bs false) s.mem,
           dev := { s.dev with flt := { s.dev.flt with ring := [] } } }

end State

/-- The end of a command: the queued fault records reach the ring and the next state is answered. -/
def done (s : State) : Host.Outcome State Fault Refusal := .next s.settle

/-- A command that touches neither memory nor the queue. -/
def devOnly (s : State) (f : Dev → Dev) : Host.Outcome State Fault Refusal := done (s.onDev f)

end Sys2Proof.Machine
end

