-- ==== Sys2Proof/Machine/Descr.lean ====
section
/-! DEFINITION. Step descriptors as the 64 bytes of a plan bank: reading one and writing one (R46, R48), with
each type's parameter bytes at the places of its own table. -/

namespace Sys2Proof.Machine

def zeros (n : Nat) : List Byte := List.replicate n 0

def parseScanP (b : List Byte) : ScanP :=
  { probeAddr := fieldAt b 16 4, probeFirst := fieldAt b 20 2, probeLimit := fieldAt b 22 2, fmt := fieldAt b 24 1, metric := fieldAt b 25 1, batchMax := fieldAt b 26 1, parts := fieldAt b 27 1, recAddr := fieldAt b 28 4, recCap := fieldAt b 32 4, runAddr := fieldAt b 36 4, runCap := fieldAt b 40 4, nomBpc := fieldAt b 44 2 }

/-- Bytes 16 to 63. -/
def encodeScanP (p : ScanP) : List Byte :=
  leBytes 4 p.probeAddr ++ leBytes 2 p.probeFirst ++ leBytes 2 p.probeLimit ++ leBytes 1 p.fmt ++ leBytes 1 p.metric ++ leBytes 1 p.batchMax ++ leBytes 1 p.parts ++ leBytes 4 p.recAddr ++ leBytes 4 p.recCap ++ leBytes 4 p.runAddr ++ leBytes 4 p.runCap ++ leBytes 2 p.nomBpc ++ zeros 18

def parseBuildP (b : List Byte) : BuildP :=
  { tidFirst := fieldAt b 17 1, ntables := fieldAt b 18 1, metric := fieldAt b 19 1, width := fieldAt b 20 1, qprec := fieldAt b 21 1, pageFirst := fieldAt b 22 1, quantAddr := fieldAt b 24 4, vecAddr := fieldAt b 28 4 }

/-- Bytes 17 to 63. -/
def encodeBuildP (p : BuildP) : List Byte :=
  leBytes 1 p.tidFirst ++ leBytes 1 p.ntables ++ leBytes 1 p.metric ++ leBytes 1 p.width ++ leBytes 1 p.qprec ++ leBytes 1 p.pageFirst ++ zeros 1 ++ leBytes 4 p.quantAddr ++ leBytes 4 p.vecAddr ++ zeros 32

def parseScoreP (b : List Byte) : ScoreP :=
  { tid := fieldAt b 17 1, codeAddr := fieldAt b 20 4, idAddr := fieldAt b 24 4, outAddr := fieldAt b 28 4, count := fieldAt b 32 4, aux := fieldAt b 36 2 }

/-- Bytes 17 to 63. -/
def encodeScoreP (p : ScoreP) : List Byte :=
  leBytes 1 p.tid ++ zeros 2 ++ leBytes 4 p.codeAddr ++ leBytes 4 p.idAddr ++ leBytes 4 p.outAddr ++ leBytes 4 p.count ++ leBytes 2 p.aux ++ zeros 26

def parseSaveP (b : List Byte) : SaveP :=
  { tid := fieldAt b 17 1, imgAddr := fieldAt b 20 4 }

/-- Bytes 17 to 63. -/
def encodeSaveP (p : SaveP) : List Byte :=
  leBytes 1 p.tid ++ zeros 2 ++ leBytes 4 p.imgAddr ++ zeros 40

def parseLoadP (b : List Byte) : LoadP :=
  { tid := fieldAt b 17 1, pageFirst := fieldAt b 18 1, imgAddr := fieldAt b 20 4 }

/-- Bytes 17 to 63. -/
def encodeLoadP (p : LoadP) : List Byte :=
  leBytes 1 p.tid ++ leBytes 1 p.pageFirst ++ zeros 1 ++ leBytes 4 p.imgAddr ++ zeros 40

def parseMatmulP (b : List Byte) : MatmulP :=
  { aAddr := fieldAt b 16 4, bAddr := fieldAt b 20 4, cAddr := fieldAt b 24 4, m := fieldAt b 28 2, n := fieldAt b 30 2, k := fieldAt b 32 2, fmtA := fieldAt b 34 1, fmtB := fieldAt b 35 1, fmtOut := fieldAt b 36 1, flags := fieldAt b 37 1, aScale := fieldAt b 38 4, bScale := fieldAt b 42 4, outScale := fieldAt b 46 4, outScaleAddr := fieldAt b 50 2 }

/-- Bytes 16 to 63. -/
def encodeMatmulP (p : MatmulP) : List Byte :=
  leBytes 4 p.aAddr ++ leBytes 4 p.bAddr ++ leBytes 4 p.cAddr ++ leBytes 2 p.m ++ leBytes 2 p.n ++ leBytes 2 p.k ++ leBytes 1 p.fmtA ++ leBytes 1 p.fmtB ++ leBytes 1 p.fmtOut ++ leBytes 1 p.flags ++ leBytes 4 p.aScale ++ leBytes 4 p.bScale ++ leBytes 4 p.outScale ++ leBytes 2 p.outScaleAddr ++ zeros 12

def parseVecopP (b : List Byte) : VecopP :=
  { dst := fieldAt b 17 1, srcA := fieldAt b 18 1, srcB := fieldAt b 19 1, srcC := fieldAt b 20 1, etype := fieldAt b 21 1, count := fieldAt b 22 2, scalar := fieldAt b 24 4, addr := fieldAt b 28 4 }

/-- Bytes 17 to 63. -/
def encodeVecopP (p : VecopP) : List Byte :=
  leBytes 1 p.dst ++ leBytes 1 p.srcA ++ leBytes 1 p.srcB ++ leBytes 1 p.srcC ++ leBytes 1 p.etype ++ leBytes 2 p.count ++ leBytes 4 p.scalar ++ leBytes 4 p.addr ++ zeros 32

def parseActP (b : List Byte) : ActP :=
  { dst := fieldAt b 17 1, src := fieldAt b 18 1, count := fieldAt b 20 2, p0 := fieldAt b 24 4, p1 := fieldAt b 28 4 }

/-- Bytes 17 to 63. -/
def encodeActP (p : ActP) : List Byte :=
  leBytes 1 p.dst ++ leBytes 1 p.src ++ zeros 1 ++ leBytes 2 p.count ++ zeros 2 ++ leBytes 4 p.p0 ++ leBytes 4 p.p1 ++ zeros 32

def parseConvertP (b : List Byte) : ConvertP :=
  { fmtSrc := fieldAt b 16 1, fmtDst := fieldAt b 17 1, flags := fieldAt b 18 1, reg := fieldAt b 19 1, srcAddr := fieldAt b 20 4, dstAddr := fieldAt b 24 4, count := fieldAt b 28 4, srcScale := fieldAt b 32 4, dstScale := fieldAt b 36 4, preScale := fieldAt b 40 4 }

/-- Bytes 16 to 63. -/
def encodeConvertP (p : ConvertP) : List Byte :=
  leBytes 1 p.fmtSrc ++ leBytes 1 p.fmtDst ++ leBytes 1 p.flags ++ leBytes 1 p.reg ++ leBytes 4 p.srcAddr ++ leBytes 4 p.dstAddr ++ leBytes 4 p.count ++ leBytes 4 p.srcScale ++ leBytes 4 p.dstScale ++ leBytes 4 p.preScale ++ zeros 20

def parseSelectP (b : List Byte) : SelectP :=
  { qcap := fieldAt b 18 2, inAddr := fieldAt b 20 4, inCount := fieldAt b 24 4, runAddr := fieldAt b 28 4, runCount := fieldAt b 32 4, probeAddr := fieldAt b 36 4, outAddr := fieldAt b 40 4, k := fieldAt b 44 4, scratch := fieldAt b 48 4 }

/-- Bytes 17 to 63. -/
def encodeSelectP (p : SelectP) : List Byte :=
  zeros 1 ++ leBytes 2 p.qcap ++ leBytes 4 p.inAddr ++ leBytes 4 p.inCount ++ leBytes 4 p.runAddr ++ leBytes 4 p.runCount ++ leBytes 4 p.probeAddr ++ leBytes 4 p.outAddr ++ leBytes 4 p.k ++ leBytes 4 p.scratch ++ zeros 12

def parseMergeP (b : List Byte) : MergeP :=
  { nin := fieldAt b 16 2, tableAddr := fieldAt b 20 4, outAddr := fieldAt b 24 4, k := fieldAt b 28 4, qcount := fieldAt b 32 4, scratch := fieldAt b 36 4, scratchCap := fieldAt b 40 4 }

/-- Bytes 16 to 63. -/
def encodeMergeP (p : MergeP) : List Byte :=
  leBytes 2 p.nin ++ zeros 2 ++ leBytes 4 p.tableAddr ++ leBytes 4 p.outAddr ++ leBytes 4 p.k ++ leBytes 4 p.qcount ++ leBytes 4 p.scratch ++ leBytes 4 p.scratchCap ++ zeros 20

def parseGatherP (b : List Byte) : GatherP :=
  { table := fieldAt b 17 1, mode := fieldAt b 18 1, idxAddr := fieldAt b 20 4, count := fieldAt b 24 4, outAddr := fieldAt b 28 4, refAddr := fieldAt b 32 4, statusAddr := fieldAt b 36 4, outCap := fieldAt b 40 4, boxAddr := fieldAt b 44 4, snapAddr := fieldAt b 48 4, rowUnits := fieldAt b 52 2, pairCap := fieldAt b 54 2 }

/-- Bytes 17 to 63. -/
def encodeGatherP (p : GatherP) : List Byte :=
  leBytes 1 p.table ++ leBytes 1 p.mode ++ zeros 1 ++ leBytes 4 p.idxAddr ++ leBytes 4 p.count ++ leBytes 4 p.outAddr ++ leBytes 4 p.refAddr ++ leBytes 4 p.statusAddr ++ leBytes 4 p.outCap ++ leBytes 4 p.boxAddr ++ leBytes 4 p.snapAddr ++ leBytes 2 p.rowUnits ++ leBytes 2 p.pairCap ++ zeros 8

def parseScatterP (b : List Byte) : ScatterP :=
  { table := fieldAt b 16 1, idxAddr := fieldAt b 20 4, count := fieldAt b 24 4, srcAddr := fieldAt b 28 4, ordAddr := fieldAt b 32 4, rowUnits := fieldAt b 36 2 }

/-- Bytes 16 to 63. -/
def encodeScatterP (p : ScatterP) : List Byte :=
  leBytes 1 p.table ++ zeros 3 ++ leBytes 4 p.idxAddr ++ leBytes 4 p.count ++ leBytes 4 p.srcAddr ++ leBytes 4 p.ordAddr ++ leBytes 2 p.rowUnits ++ zeros 26

def parseSendP (b : List Byte) : SendP :=
  { kind := fieldAt b 16 1, tag := fieldAt b 18 2, peer := fieldAt b 20 2, dstChamber := fieldAt b 22 1, srcAddr := fieldAt b 24 4, length := fieldAt b 28 4 }

/-- Bytes 16 to 63. -/
def encodeSendP (p : SendP) : List Byte :=
  leBytes 1 p.kind ++ zeros 1 ++ leBytes 2 p.tag ++ leBytes 2 p.peer ++ leBytes 1 p.dstChamber ++ zeros 1 ++ leBytes 4 p.srcAddr ++ leBytes 4 p.length ++ zeros 32

def parseRecvP (b : List Byte) : RecvP :=
  { kind := fieldAt b 16 1, tag := fieldAt b 18 2, peer := fieldAt b 20 2, srcChamber := fieldAt b 22 1, dstAddr := fieldAt b 24 4, cap := fieldAt b 28 4, resultAddr := fieldAt b 32 4, entryAddr := fieldAt b 36 4 }

/-- Bytes 16 to 63. -/
def encodeRecvP (p : RecvP) : List Byte :=
  leBytes 1 p.kind ++ zeros 1 ++ leBytes 2 p.tag ++ leBytes 2 p.peer ++ leBytes 1 p.srcChamber ++ zeros 1 ++ leBytes 4 p.dstAddr ++ leBytes 4 p.cap ++ leBytes 4 p.resultAddr ++ leBytes 4 p.entryAddr ++ zeros 24

def parsePimRunP (b : List Byte) : PimRunP :=
  { stack := fieldAt b 17 1, progAddr := fieldAt b 20 4, pairMask := fieldAt b 24 4, dieMask := fieldAt b 28 2, count := fieldAt b 32 4, row0 := fieldAt b 36 2, row1 := fieldAt b 38 2, row2 := fieldAt b 40 2, row3 := fieldAt b 42 2 }

/-- Bytes 17 to 63. -/
def encodePimRunP (p : PimRunP) : List Byte :=
  leBytes 1 p.stack ++ zeros 2 ++ leBytes 4 p.progAddr ++ leBytes 4 p.pairMask ++ leBytes 2 p.dieMask ++ zeros 2 ++ leBytes 4 p.count ++ leBytes 2 p.row0 ++ leBytes 2 p.row1 ++ leBytes 2 p.row2 ++ leBytes 2 p.row3 ++ zeros 20

def parsePimSealP (b : List Byte) : PimSealP :=
  { stack := fieldAt b 17 1, rowFirst := fieldAt b 44 2, rowCount := fieldAt b 46 2 }

/-- Bytes 17 to 63. -/
def encodePimSealP (p : PimSealP) : List Byte :=
  leBytes 1 p.stack ++ zeros 26 ++ leBytes 2 p.rowFirst ++ leBytes 2 p.rowCount ++ zeros 16

def parseFlashReadP (b : List Byte) : FlashReadP :=
  { mode := fieldAt b 16 1, listAddr := fieldAt b 20 4, count := fieldAt b 24 4, dstAddr := fieldAt b 28 4, dstCap := fieldAt b 32 4, statusAddr := fieldAt b 36 4 }

/-- Bytes 16 to 63. -/
def encodeFlashReadP (p : FlashReadP) : List Byte :=
  leBytes 1 p.mode ++ zeros 3 ++ leBytes 4 p.listAddr ++ leBytes 4 p.count ++ leBytes 4 p.dstAddr ++ leBytes 4 p.dstCap ++ leBytes 4 p.statusAddr ++ zeros 24

def parseFlashWriteP (b : List Byte) : FlashWriteP :=
  { srcAddr := fieldAt b 20 4, lbn := fieldAt b 24 4, page := fieldAt b 28 2, pages := fieldAt b 30 2 }

/-- Bytes 16 to 63. -/
def encodeFlashWriteP (p : FlashWriteP) : List Byte :=
  zeros 4 ++ leBytes 4 p.srcAddr ++ leBytes 4 p.lbn ++ leBytes 2 p.page ++ leBytes 2 p.pages ++ zeros 32

def parseCheckRangeP (b : List Byte) : CheckRangeP :=
  { poly := fieldAt b 17 1, tap := fieldAt b 18 1, fromTap := fieldAt b 19 1, addr := fieldAt b 20 8, length := fieldAt b 28 8, expectAddr := fieldAt b 36 4, resultAddr := fieldAt b 40 4 }

/-- Bytes 17 to 63. -/
def encodeCheckRangeP (p : CheckRangeP) : List Byte :=
  leBytes 1 p.poly ++ leBytes 1 p.tap ++ leBytes 1 p.fromTap ++ leBytes 8 p.addr ++ leBytes 8 p.length ++ leBytes 4 p.expectAddr ++ leBytes 4 p.resultAddr ++ zeros 20

def parseCheckTapvalP (b : List Byte) : CheckTapvalP :=
  { poly := fieldAt b 17 1, tap := fieldAt b 18 1, tag := fieldAt b 20 8, expectAddr := fieldAt b 36 4, resultAddr := fieldAt b 40 4 }

/-- Bytes 17 to 63. -/
def encodeCheckTapvalP (p : CheckTapvalP) : List Byte :=
  leBytes 1 p.poly ++ leBytes 1 p.tap ++ zeros 1 ++ leBytes 8 p.tag ++ zeros 8 ++ leBytes 4 p.expectAddr ++ leBytes 4 p.resultAddr ++ zeros 20

def parseCheckWeightP (b : List Byte) : CheckWeightP :=
  { poly := fieldAt b 17 1, addr := fieldAt b 20 8, byteLength := fieldAt b 28 8, rows := fieldAt b 36 2, cols := fieldAt b 38 2, rank := fieldAt b 40 2, fmtW := fieldAt b 42 1, fmtF := fieldAt b 43 1, uFirst := fieldAt b 44 2, uCount := fieldAt b 46 2, vAll := fieldAt b 48 1, resultAddr := fieldAt b 52 4 }

/-- Bytes 17 to 63. -/
def encodeCheckWeightP (p : CheckWeightP) : List Byte :=
  leBytes 1 p.poly ++ zeros 2 ++ leBytes 8 p.addr ++ leBytes 8 p.byteLength ++ leBytes 2 p.rows ++ leBytes 2 p.cols ++ leBytes 2 p.rank ++ leBytes 1 p.fmtW ++ leBytes 1 p.fmtF ++ leBytes 2 p.uFirst ++ leBytes 2 p.uCount ++ leBytes 1 p.vAll ++ zeros 3 ++ leBytes 4 p.resultAddr ++ zeros 8

def parseNoteP (b : List Byte) : NoteP :=
  { span := fieldAt b 16 2, kinds := fieldAt b 18 1, currentPct := fieldAt b 20 2 }

/-- Bytes 16 to 63. -/
def encodeNoteP (p : NoteP) : List Byte :=
  leBytes 2 p.span ++ leBytes 1 p.kinds ++ zeros 1 ++ leBytes 2 p.currentPct ++ zeros 42

def parseSumpP (b : List Byte) : SumpP :=
  { maxEntries := fieldAt b 16 2, maxSlots := fieldAt b 18 2, keep := fieldAt b 20 1 }

/-- Bytes 16 to 63. -/
def encodeSumpP (p : SumpP) : List Byte :=
  leBytes 2 p.maxEntries ++ leBytes 2 p.maxSlots ++ leBytes 1 p.keep ++ zeros 43

/-- Operation codes in table order: VECOP from 0x01, ACTIVATE from 0x01, GATHER from 1. -/
def vecOps : List VecOp := [.vAdd, .vSub, .vMul, .vFma, .vFmas, .vMax, .vMin, .vAbs, .vNeg, .vAnd, .vOr, .vXor, .vShl, .vShra, .vSumr, .vMaxr, .vMinr, .vLoad, .vStore, .vBroadcast, .vCmpgt, .vSelect]
def actFns : List ActFn := [.relu, .clamp, .sign, .gelu, .silu, .sigmoid, .tanh, .exp, .recip, .rsqrt]
def gatherOps : List GatherOp := [.fetch, .split, .serve, .fill]

def vecOpCode (o : VecOp) : Nat := vecOps.idxOf o + 1
def actFnCode (o : ActFn) : Nat := actFns.idxOf o + 1
def gatherOpCode (o : GatherOp) : Nat := gatherOps.idxOf o + 1

/-- An operation of a table by its code, which counts from 1. -/
def opAt {α : Type} (ops : List α) (code : Nat) : Option α := if code = 0 then none else ops[code - 1]?

def parseHdr (b : List Byte) : Hdr :=
  { flags := fieldAt b 1 1, slot := fieldAt b 2 2, budget := fieldAt b 4 2, deadline := fieldAt b 6 2, depends := fieldAt b 8 2, tenant := fieldAt b 10 1, stage := fieldAt b 11 1, index := fieldAt b 12 2, expiry := fieldAt b 14 1 }

/-- Bytes 1 to 15 with byte 15 as given: 0 in a plan bank, the reason code in the sump (R46, R53). -/
def encodeHdr (h : Hdr) (reason : Nat) : List Byte :=
  leBytes 1 h.flags ++ leBytes 2 h.slot ++ leBytes 2 h.budget ++ leBytes 2 h.deadline ++ leBytes 2 h.depends ++ leBytes 1 h.tenant ++ leBytes 1 h.stage ++ leBytes 2 h.index ++ leBytes 1 h.expiry ++ leBytes 1 reason

/-- The type code of R48. -/
def typeCode : Params → Nat
  | .scan _ => 1
  | .build _ => 2
  | .score _ => 2
  | .save _ => 2
  | .load _ => 2
  | .matmul _ => 3
  | .vecop _ _ => 4
  | .activate _ _ => 5
  | .convert _ => 6
  | .selectRecords _ => 7
  | .selectRuns _ => 7
  | .merge _ => 8
  | .gather _ _ => 9
  | .scatter _ => 10
  | .send _ => 11
  | .recv _ => 12
  | .pimRun _ => 13
  | .pimSeal _ => 13
  | .flashRead _ => 14
  | .flashWrite _ => 15
  | .checkRange _ => 16
  | .checkTapval _ => 16
  | .checkWeight _ => 16
  | .note _ => 17
  | .sump _ => 18

/-- Bytes 16 to 63 of a descriptor. -/
def encodeParams : Params → List Byte
  | .scan p => encodeScanP p
  | .build p => leBytes 1 1 ++ encodeBuildP p
  | .score p => leBytes 1 2 ++ encodeScoreP p
  | .save p => leBytes 1 3 ++ encodeSaveP p
  | .load p => leBytes 1 4 ++ encodeLoadP p
  | .matmul p => encodeMatmulP p
  | .vecop op p => leBytes 1 (vecOpCode op) ++ encodeVecopP p
  | .activate op p => leBytes 1 (actFnCode op) ++ encodeActP p
  | .convert p => encodeConvertP p
  | .selectRecords p => leBytes 1 0 ++ encodeSelectP p
  | .selectRuns p => leBytes 1 1 ++ encodeSelectP p
  | .merge p => encodeMergeP p
  | .gather op p => leBytes 1 (gatherOpCode op) ++ encodeGatherP p
  | .scatter p => encodeScatterP p
  | .send p => encodeSendP p
  | .recv p => encodeRecvP p
  | .pimRun p => leBytes 1 1 ++ encodePimRunP p
  | .pimSeal p => leBytes 1 2 ++ encodePimSealP p
  | .flashRead p => encodeFlashReadP p
  | .flashWrite p => encodeFlashWriteP p
  | .checkRange p => leBytes 1 0 ++ encodeCheckRangeP p
  | .checkTapval p => leBytes 1 1 ++ encodeCheckTapvalP p
  | .checkWeight p => leBytes 1 2 ++ encodeCheckWeightP p
  | .note p => encodeNoteP p
  | .sump p => encodeSumpP p

/-- The parameters of a type code, if the code and its operation are defined (R48, R78, R91, R92, R134, R216, R269, R323). -/
def parseParams (b : List Byte) : Option Params :=
  let op := fieldAt b 16 1
  match fieldAt b 0 1 with
  | 1 => some (.scan (parseScanP b))
  | 2 => if op = 1 then some (.build (parseBuildP b)) else if op = 2 then some (.score (parseScoreP b)) else if op = 3 then some (.save (parseSaveP b)) else if op = 4 then some (.load (parseLoadP b)) else none
  | 3 => some (.matmul (parseMatmulP b))
  | 4 => (opAt vecOps op).map fun o => .vecop o (parseVecopP b)
  | 5 => (opAt actFns op).map fun o => .activate o (parseActP b)
  | 6 => some (.convert (parseConvertP b))
  | 7 => if op = 0 then some (.selectRecords (parseSelectP b)) else if op = 1 then some (.selectRuns (parseSelectP b)) else none
  | 8 => some (.merge (parseMergeP b))
  | 9 => (opAt gatherOps op).map fun o => .gather o (parseGatherP b)
  | 10 => some (.scatter (parseScatterP b))
  | 11 => some (.send (parseSendP b))
  | 12 => some (.recv (parseRecvP b))
  | 13 => if op = 1 then some (.pimRun (parsePimRunP b)) else if op = 2 then some (.pimSeal (parsePimSealP b)) else none
  | 14 => some (.flashRead (parseFlashReadP b))
  | 15 => some (.flashWrite (parseFlashWriteP b))
  | 16 => if op = 0 then some (.checkRange (parseCheckRangeP b)) else if op = 1 then some (.checkTapval (parseCheckTapvalP b)) else if op = 2 then some (.checkWeight (parseCheckWeightP b)) else none
  | 17 => some (.note (parseNoteP b))
  | 18 => some (.sump (parseSumpP b))
  | _ => none

/-- The 64 bytes of a step in a plan bank. -/
def encodeStep (s : Step) : List Byte := leBytes 1 (typeCode s.params) ++ encodeHdr s.hdr 0 ++ encodeParams s.params

/-- The sump form of a step (R53): bytes 2 to 3 hold the origin epoch, byte 15 the reason. -/
def encodeSump (s : Step) (origin reason : Nat) : List Byte :=
  leBytes 1 (typeCode s.params) ++ encodeHdr { s.hdr with slot := origin % 65536 } reason ++ encodeParams s.params

/-- The step that 64 bytes describe. -/
def parseStep (b : List Byte) : Option Step := (parseParams b).map fun p => ⟨parseHdr b, p⟩

end Sys2Proof.Machine
end

