-- ==== Sys2Proof/Machine/Seq.lean ====
section
/-! DEFINITION. What the steps share: the context a step runs in, the sump, abandoning a step with its
dependants, cohorts made missing, and metering (02_epochs_and_plans.md R46 to R58, 15_pools_tenants_metering.md R391). -/

namespace Sys2Proof

/-- The FLAGS bits of a descriptor (R46). -/
def Hdr.sumpable (h : Hdr) : Bool := bit h.flags 0
def Hdr.last (h : Hdr) : Bool := bit h.flags 1
def Hdr.metered (h : Hdr) : Bool := bit h.flags 2

/-- The header that stands for no plan step, for work the block starts itself. -/
def Hdr.zero : Hdr := ⟨0, 0, 0, 0, 0xFFFF, 0, 0, 0, 0⟩

namespace Machine

/-- What a step knows beside its parameters: its chamber, its header, its origin epoch and, for a
continuation, where it resumes. -/
structure Ctx where
  c : Nat
  hdr : Hdr
  origin : Nat
  resume : List Nat
  deriving DecidableEq, Repr

/-- Epoch `n - s` as a 64-bit count: the cohort of stage `s` in epoch `n` (R39). -/
def cohortOf (n s : Nat) : Nat := (n + 2 ^ 64 - s) % 2 ^ 64

def Ctx.cohort (x : Ctx) : Nat := cohortOf x.origin x.hdr.stage

/-- SOURCE of a chamber's faults: its gallery controller (R20). -/
def Ctx.src (x : Ctx) : Nat := Dev.srcGallery x.c

/-- Does a step of this type use the lookup engine, or the selection unit? -/
def usesLookup : Params → Bool
  | .build _ | .score _ | .save _ | .load _ | .scan _ => true
  | _ => false
def usesSelect : Params → Bool
  | .selectRecords _ | .selectRuns _ | .merge _ => true
  | _ => false

/-- The indices that depend, directly or through a chain, on one of `roots`, given (INDEX, DEPENDS) in
ascending INDEX order; DEPENDS is below INDEX (R47), so one pass finds them all. -/
def closure (roots : List Nat) : List (Nat × Nat) → List Nat
  | [] => roots
  | (i, dep) :: rest => if roots.contains dep && !roots.contains i then closure (roots ++ [i]) rest else closure roots rest

namespace Dev

/-- Use charged to the step's TENANT when METER is set and METER_EN is 1 (R391); `i` is the counter's row. -/
def meterTenant (d : Dev) (tenant i n : Nat) : Dev :=
  if d.on Reg.tntCtrlMeterEn then d.bump (Ctr.mtrChamberCycles tenant + 8 * i) n else d

def meter (d : Dev) (h : Hdr) (i n : Nat) : Dev := if h.metered then d.meterTenant h.tenant i n else d

/-- A cohort is missing on this module (R52). -/
def missCohort (d : Dev) (cohort : Nat) : Dev :=
  if d.seq.missing.contains cohort then d else { d with seq := { d.seq with missing := d.seq.missing ++ [cohort] } }

/-- The steps in flight of one chamber and origin epoch. -/
def ofChamber (d : Dev) (c origin : Nat) : List InFlight :=
  d.seq.inflight.filter fun f => f.chamber = c && f.origin = origin

/-- The entries of a chamber's sump, in queue order. -/
def sumpOf (d : Dev) (c : Nat) : List SumpEntry := d.seq.sump.filter fun e => e.chamber = c

/-- SUMP_DEPTH and SUMP_PEAK follow the queue (R71). PEAK, which a read clears to 0, takes the depth after the next change of the queue, and
not the depth at the read (log entry 127). -/
def sumpDepths (d : Dev) (c : Nat) : Dev :=
  let n := (d.sumpOf c).length
  let d := d.put (Reg.sumpDepth c) n
  if d.rd (Reg.sumpPeak c) < n then d.put (Reg.sumpPeak c) n else d

/-- The headers of the steps of a chamber and origin epoch, in flight and in the sump, in ascending INDEX order. -/
def headersOf (d : Dev) (c origin : Nat) : List Hdr :=
  sortBy (fun a b : Hdr => decide (a.index < b.index)) ((d.ofChamber c origin).map (·.step.hdr)
    ++ ((d.sumpOf c).filter fun e => e.origin = origin).map (·.step.hdr))

/-- The BUSY bits of a chamber's lookup engine and selection unit follow the steps that execute (R147, R168). -/
def showBusy (d : Dev) (c : Nat) : Dev :=
  let runs (p : Params → Bool) : Bool := d.seq.inflight.any fun f => f.chamber = c && f.issued && p f.step.params
  (d.putFlag (Reg.ldeStatusBusy c) (runs usesLookup)).putFlag (Reg.selStatusBusy c) (runs usesSelect)

/-- Abandons the steps of the given indices of a chamber with all that depend on them (R52): they leave the
sequencer and the sump, and their cohorts are missing. Answers the indices abandoned. -/
def abandonSteps (d : Dev) (c origin : Nat) (roots : List Nat) : Dev × List Nat :=
  let mine := d.headersOf c origin
  let gone := closure roots (mine.map fun h => (h.index, h.depends))
  let hit := mine.filter fun h => gone.contains h.index
  let d := { d with seq := { d.seq with
    inflight := d.seq.inflight.filter fun f => !(f.chamber = c && f.origin = origin && gone.contains f.step.hdr.index),
    sump := d.seq.sump.filter fun e => !(e.chamber = c && e.origin = origin && gone.contains e.step.hdr.index),
    abandoned := d.seq.abandoned ++ gone.map fun i => (c, i, origin) } }
  let d := ((d.pimAbandon c origin gone).sumpDepths c).showBusy c
  (hit.foldl (fun d h => d.missCohort (cohortOf origin h.stage)) d, gone)

/-- A step that its own rule abandons "in the manner of R52": with its dependants, its cohort missing. -/
def abandon (d : Dev) (x : Ctx) : Dev := ((d.abandonSteps x.c x.origin [x.hdr.index]).1).missCohort x.cohort

/-- The sump area of a chamber (R40). -/
def sumpBase (c : Nat) : Nat := columnBase c + 0x3EC0000

/-- Appends an entry at the tail of its chamber's sump (R53); a full sump abandons the step instead (R55), and SUMP_OVERFLOWS counts one for it
and none for its dependants (log entry 127). An entry of reason 4 whose EXPIRY is 0 takes that of the entry it depends on (R57). Entries that
depend on it and are queued already go behind it (R50, R52; log entry 127). The entry's sump form is written to the chamber's sump area, whose
places entries take in turn (R40, R53; log entry 38). -/
def sumpAppend (d : Dev) (e : SumpEntry) : Dev :=
  if 4096 ≤ (d.sumpOf e.chamber).length then
    let d := (d.raise .sumpOverflow (srcGallery e.chamber) [(1, e.chamber), (2, e.step.hdr.index)] true).bump Ctr.epcSumpOverflows
    ((d.abandonSteps e.chamber e.origin [e.step.hdr.index]).1).missCohort (cohortOf e.origin e.step.hdr.stage)
  else
    let parent := (d.sumpOf e.chamber).find? fun p => p.step.hdr.index = e.step.hdr.depends && p.origin = e.origin
    let h := e.step.hdr
    let h := if e.reason = 4 ∧ h.expiry = 0 then { h with expiry := (parent.map (·.step.hdr.expiry)).getD 0 } else h
    let behind := closure [h.index] (((d.sumpOf e.chamber).filter fun f => f.origin = e.origin).map fun f => (f.step.hdr.index, f.step.hdr.depends))
    let after (f : SumpEntry) : Bool := f.chamber = e.chamber && f.origin = e.origin && f.step.hdr.index != h.index && behind.contains f.step.hdr.index
    let pos := d.count (Ctr.chSumpIn e.chamber) % 4096
    let e := { e with step := { e.step with hdr := h }, pos }
    let d := { d with seq := { d.seq with sump := d.seq.sump.filter (!after ·) ++ [e] ++ d.seq.sump.filter after } }
    let d := { d with flt := { d.flt with
      ring := d.flt.ring ++ [(sumpBase e.chamber + 64 * pos, encodeSump e.step e.origin e.reason)] } }
    (d.bump (Ctr.chSumpIn e.chamber)).sumpDepths e.chamber

/-- The module enters a state (R507, R508): STATE, PREVIOUS, CHANGING and GLB_STATE_SINCE change together. -/
def enterState (d : Dev) (n : Nat) : Dev :=
  let d := (d.put Reg.glbStatePrevious (d.rd Reg.glbState)).put Reg.glbState n
  ((d.putFlag Reg.glbStateChanging false).put Reg.glbStateSince (d.rd Reg.aonRtc)).bump Ctr.glbStateChanges

/-- CORE clock at the present operating point in MHz (R419): 800, 750, 700, 650, 600, 550, 500 and 400. -/
def coreMhz (d : Dev) : Nat := [800, 750, 700, 650, 600, 550, 500, 400].getD (d.rd Reg.pwrStatusOpp) 800

/-- CORE cycles of a 2 µs slot. -/
def slotCycles (d : Dev) : Nat := 2 * d.coreMhz

/-- NaN results of a step: counted, flagged and, with NAN_FAULT, reported once per epoch (R98, R99, R101). -/
def nanOut (d : Dev) (x : Ctx) (n : Nat) : Dev :=
  if n = 0 then d else
  let d := (d.bump (Ctr.chNanOut x.c) n).putFlag (Reg.arithStatusNanOut x.c) true
  if d.on (Reg.arithCtrlNanFault x.c) && !d.seq.nanSaid.contains (x.c, 0x0205) then
    { (d.raise .arithNan x.src [(1, x.c), (2, x.hdr.index), (8, d.epoch)]) with
      seq := { d.seq with nanSaid := d.seq.nanSaid ++ [(x.c, 0x0205)] } }
  else d

/-- Integer and narrow-float saturations, and flushed inputs (R98, R99). -/
def intSat (d : Dev) (c n : Nat) : Dev := if n = 0 then d else (d.bump (Ctr.chIntSat c) n).putFlag (Reg.arithStatusIntSat c) true
def fpSat (d : Dev) (c n : Nat) : Dev := if n = 0 then d else (d.bump (Ctr.chFpSat c) n).putFlag (Reg.arithStatusFpSat c) true
def ftzIn (d : Dev) (c n : Nat) : Dev := if n = 0 then d else d.bump (Ctr.chFtzIn c) n

/-- The matching step in flight of a step command: issued, of that chamber and INDEX, its work not done. -/
def inFlight (d : Dev) (c idx : Nat) : Option InFlight :=
  d.seq.inflight.find? fun f => f.chamber = c && f.step.hdr.index = idx && f.issued && !f.executed

/-- Is a step of the chamber and INDEX held, so that its unit does not start it (R49)? It has come to issue and is not issued, and no other step
of that INDEX runs. A chamber that is powered down starts nothing (R24). -/
def heldBack (d : Dev) (c idx : Nat) : Bool :=
  d.seq.off.contains c || ((d.inFlight c idx).isNone && d.seq.inflight.any fun f => f.chamber = c && f.step.hdr.index = idx && !f.issued)

/-- The context of a step command; one that matches no step in flight runs for the present epoch. -/
def stepCtx (d : Dev) (c : Nat) (h : Hdr) : Ctx :=
  match d.inFlight c h.index with
  | some f => ⟨c, h, f.origin, f.resume⟩
  | none => ⟨c, h, d.epoch, []⟩

/-- The in-flight steps that a context is of. -/
def isOf (x : Ctx) (f : InFlight) : Bool := f.chamber = x.c && f.step.hdr.index = x.hdr.index && f.origin = x.origin && f.issued

/-- Does what a step's budget leaves over become a continuation: is it SUMPABLE, or an entry that a SUMP step runs (R50, R57)? -/
def continues (d : Dev) (x : Ctx) : Bool := x.hdr.sumpable || d.seq.inflight.any fun f => isOf x f && f.sumpLast.isSome

/-- The step's work is done. What its budget left over becomes a continuation in the sump, as the step completes (R50, R57). -/
def ran (d : Dev) (x : Ctx) (p : Params) (rest : Option (List Nat)) : Dev :=
  let rest := if d.continues x then rest else none
  let known := d.seq.inflight.any (isOf x)
  let d := { d with seq := { d.seq with inflight := d.seq.inflight.map fun f => if isOf x f then { f with executed := true, rest } else f } }
  match (if known then none else rest) with
  | some u => d.sumpAppend { chamber := x.c, step := ⟨x.hdr, p⟩, origin := x.origin, reason := 2, resume := u }
  | none => d

end Dev

/-- How many whole work units a step takes now, of `left` units each costing `cost`, with `fixed` cycles
besides: as many as its BUDGET holds, and at least one (R50; log entry 8). -/
def unitsNow (h : Hdr) (fixed cost left : Nat) : Nat := min left (max 1 ((h.budget - fixed) / max 1 cost))

end Machine

end Sys2Proof
end

