-- ==== Sys2Proof/Machine/Checks.lean ====
section
/-! DEFINITION. The conditions a step's own parameters must meet before the plan block accepts it (R47 and each
type's rule): ranges, reserved bits, fields unused by the operation, and areas that must lie within their space
and apart from each other. What depends on the whole plan is checked with the plan (Verify.lean). -/

namespace Sys2Proof.Machine

/-- Bits of one element of a format (R74 to R78); 0 for codes that are no arithmetic format. -/
def fmtBits (code : Nat) : Nat := [32, 16, 16, 8, 8, 4, 8, 4, 1, 32].getD code 0

def isCodeFmt (code : Nat) : Bool := decide (0xA ≤ code) && decide (code ≤ 0xD)

/-- Bytes that `n` elements of a format take from a byte boundary. -/
def fmtBytes (code n : Nat) : Nat := ceilDiv (n * fmtBits code) 8

/-- An area a step names: its space (column or store), offset and length. -/
structure Area where
  column : Bool
  off : Nat
  len : Nat
  deriving DecidableEq, Repr

/-- The area of an operand in the form of A_ADDR. -/
def areaOf (addr len : Nat) : Area := ⟨bit addr 31, bits addr 0 26, len⟩
def storeArea (off len : Nat) : Area := ⟨false, off, len⟩
def columnArea (off len : Nat) : Area := ⟨true, off, len⟩

/-- A plan names no byte of the sump and of the bank areas (R40; log entry 130). -/
def Area.fits (a : Area) : Bool := decide (a.off + a.len ≤ if a.column then columnEnd else 0x200000)

def Area.overlaps (a b : Area) : Bool :=
  a.column == b.column && decide (a.off < b.off + b.len) && decide (b.off < a.off + a.len) && a.len != 0 && b.len != 0

/-- Reserved bits 30 to 26 of an operand in the form of A_ADDR are 0. -/
def addrForm (addr : Nat) : Bool := bits addr 26 5 = 0 && decide (addr < 2 ^ 32)

def storeForm (addr : Nat) : Bool := decide (addr < 2 ^ 21)

def allFit (as : List Area) : Bool := as.all Area.fits

/-- No area of the list overlaps a later one. -/
def apart : List Area → Bool
  | [] => true
  | a :: as => as.all (fun b => !a.overlaps b) && apart as

def between (lo n hi : Nat) : Bool := decide (lo ≤ n) && decide (n ≤ hi)

/-- A finite FP32 value other than zero. -/
def finiteNonzero (b : Nat) : Bool :=
  match Fp.f32 b with | .fin _ m _ => m != 0 | _ => false

/-- The operand groups of R84: 0 narrow float, 1 half float, 2 integer, 3 binary. -/
def matGroup (code : Nat) : Option Nat := [none, some 1, some 1, some 0, some 0, some 0, some 2, some 2, some 3].getD code none

def rowBytes (code n : Nat) : Nat := fmtBytes code n

def matAreaA (p : MatmulP) : Area := areaOf p.aAddr (p.m * rowBytes p.fmtA p.k)
def matAreaB (p : MatmulP) : Area :=
  areaOf p.bAddr (if bit p.flags 1 then p.n * rowBytes p.fmtB p.k else p.k * rowBytes p.fmtB p.n)
def matAreaC (p : MatmulP) : Area := storeArea p.cAddr (p.m * rowBytes p.fmtOut p.n)
def matScaleA (p : MatmulP) : Area := areaOf p.aScale (if p.fmtA = 5 then p.m * (p.k / 32) else 0)
def matScaleB (p : MatmulP) : Area := areaOf p.bScale (if p.fmtB = 5 then p.n * (p.k / 32) else 0)
def matScaleC (p : MatmulP) : Area := storeArea (32 * p.outScaleAddr) (if p.fmtOut = 5 then p.m * ceilDiv p.n 32 else 0)

/-- R87, R88. -/
def matmulOk (p : MatmulP) : Bool :=
  let acc := bit p.flags 0
  addrForm p.aAddr && addrForm p.bAddr && storeForm p.cAddr && p.cAddr % 4 = 0
    && between 1 p.m 65535 && between 1 p.n 65535 && between 1 p.k 65535
    && decide (p.flags < 4) && (matGroup p.fmtA).isSome && matGroup p.fmtA = matGroup p.fmtB
    && (if fmtBits p.fmtA = 4 || fmtBits p.fmtB = 4 then p.k % 2 = 0 else true)
    && (if p.fmtA = 5 || p.fmtB = 5 then p.k % 32 = 0 else true)
    && (if p.fmtA = 8 then p.k % 8 = 0 else true)
    && (if matGroup p.fmtA = some 0 || matGroup p.fmtA = some 1 then decide (p.fmtOut ≤ 5)
        else p.fmtOut = 9 || p.fmtOut = 6 || p.fmtOut = 7)
    && (!acc || p.fmtOut = 0 || p.fmtOut = 9)
    && (if p.fmtOut = 9 || acc then p.outScale = 0x3F800000 else finiteNonzero p.outScale)
    && (p.fmtA = 5 || p.aScale = 0) && (p.fmtB = 5 || p.bScale = 0) && (p.fmtOut = 5 || p.outScaleAddr = 0)
    && addrForm p.aScale && addrForm p.bScale
    && allFit [matAreaA p, matAreaB p, matAreaC p, matScaleA p, matScaleB p, matScaleC p]
    && [matAreaC p, matScaleC p].all (fun c => [matAreaA p, matAreaB p, matScaleA p, matScaleB p].all fun i => !c.overlaps i)

/-- R91. -/
def vecopOk (op : VecOp) (p : VecopP) : Bool :=
  let mem := op = .vLoad || op = .vStore
  let intOnly := op = .vAnd || op = .vOr || op = .vXor || op = .vShl || op = .vShra
  let usesA := !(op = .vLoad || op = .vBroadcast)
  let usesB := [VecOp.vAdd, .vSub, .vMul, .vFma, .vFmas, .vMax, .vMin, .vAnd, .vOr, .vXor, .vShl, .vShra, .vCmpgt, .vSelect].contains op
  let usesC := op = .vFma || op = .vSelect
  let usesScalar := op = .vFmas || op = .vBroadcast
  decide (p.dst < 16) && decide (p.srcA < 16) && decide (p.srcB < 16) && decide (p.srcC < 16) && decide (p.etype ≤ 1)
    && between 1 p.count 1024 && (!intOnly || p.etype = 1)
    && (usesA || p.srcA = 0) && (usesB || p.srcB = 0) && (usesC || p.srcC = 0) && (usesScalar || p.scalar = 0)
    && (!(op = .vStore) || p.dst = 0)
    && (if mem then addrForm p.addr && p.addr % 4 = 0 && (areaOf p.addr (4 * p.count)).fits else p.addr = 0)

/-- R92: P0 and P1 belong to CLAMP alone. -/
def actOk (f : ActFn) (p : ActP) : Bool :=
  decide (p.dst < 16) && decide (p.src < 16) && between 1 p.count 1024
    && (if f = .clamp then !Fp.isNan32 p.p0 && !Fp.isNan32 p.p1 && decide (Fp.cmp (Fp.f32 p.p0) (Fp.f32 p.p1) ≤ 0)
        else p.p0 = 0 && p.p1 = 0)

def scaleArea (addr fmt count : Nat) : Area := areaOf addr (if fmt = 5 then ceilDiv count 32 else 0)

/-- Bytes of a flat array, FP4 blocks stored whole (R83, R93). -/
def flatBytes (fmt count : Nat) : Nat := if fmt = 5 then 16 * ceilDiv count 32 else fmtBytes fmt count

/-- R93. -/
def convertOk (p : ConvertP) : Bool :=
  let sreg := bit p.flags 0
  let dreg := bit p.flags 1
  decide (p.fmtSrc ≤ 9) && decide (p.fmtDst ≤ 9) && decide (p.flags < 3)
    && (!sreg || p.fmtSrc = 0 || p.fmtSrc = 9) && (!dreg || p.fmtDst = 0 || p.fmtDst = 9)
    && decide (p.reg < 16) && (sreg || dreg || p.reg = 0)
    && (if sreg then p.srcAddr = 0 else addrForm p.srcAddr && (areaOf p.srcAddr (flatBytes p.fmtSrc p.count)).fits)
    && (if dreg then p.dstAddr = 0 else addrForm p.dstAddr && (areaOf p.dstAddr (flatBytes p.fmtDst p.count)).fits)
    && between 1 p.count (if sreg || dreg then 1024 else 1048576)
    && (p.fmtSrc = 5 || p.srcScale = 0) && (p.fmtDst = 5 || p.dstScale = 0)
    && addrForm p.srcScale && addrForm p.dstScale
    && allFit [scaleArea p.srcScale p.fmtSrc p.count, scaleArea p.dstScale p.fmtDst p.count]

/-- R140. -/
def scanOk (p : ScanP) : Bool :=
  decide (p.probeAddr < 0x4000000) && p.probeAddr % 16 = 0 && between 1 p.probeLimit 65535
    && isCodeFmt p.fmt && decide (p.metric ≤ 3) && !(p.metric = 3 && (p.fmt = 0xA || p.fmt = 0xB))
    && between 1 p.batchMax 8 && decide (p.parts ≤ 3) && p.parts != 0
    && p.recAddr % 16 = 0 && between 1 p.recCap 131072 && p.runAddr % 16 = 0 && between 1 p.runCap 131072
    && between 16 p.nomBpc 256
    && allFit [storeArea p.recAddr (16 * p.recCap), storeArea p.runAddr (16 * p.runCap), columnArea p.probeAddr 16]
    && !(storeArea p.recAddr (16 * p.recCap)).overlaps (storeArea p.runAddr (16 * p.runCap))

/-- R134. -/
def buildOk (p : BuildP) : Bool :=
  decide (p.tidFirst < 64) && between 1 p.ntables 8 && decide (p.metric ≤ 3) && (p.width = 8 || p.width = 16)
    && (p.qprec = 1 || p.qprec = 2) && decide (p.pageFirst < 64) && p.quantAddr % 64 = 0 && p.vecAddr % 4 = 0
    && decide (p.tidFirst + p.ntables ≤ 64) && !(p.metric = 3 && (p.width = 16 || p.qprec = 2))
    && allFit [columnArea p.quantAddr 64, storeArea p.vecAddr (p.ntables * 8 * 4)]

def scoreOk (p : ScoreP) : Bool :=
  decide (p.tid < 64) && addrForm p.codeAddr && addrForm p.idAddr && p.outAddr % 16 = 0 && between 1 p.count 65536
    && allFit [areaOf p.codeAddr p.count, areaOf p.idAddr (8 * p.count), storeArea p.outAddr (16 * p.count)]

/-- The smallest table image: the header and the 16 entries of one unit (R134, R137). -/
def imageLeast : Nat := 64 + 16

def saveOk (p : SaveP) : Bool := decide (p.tid < 64) && p.imgAddr % 64 = 0 && (columnArea p.imgAddr imageLeast).fits

def loadOk (p : LoadP) : Bool :=
  decide (p.tid < 64) && decide (p.pageFirst < 64) && p.imgAddr % 64 = 0 && (columnArea p.imgAddr imageLeast).fits

/-- R160: the areas of a SELECT. -/
def selectAreas (runs : Bool) (p : SelectP) : List Area :=
  [areaOf p.outAddr (p.qcap * (32 + 16 * p.k)), storeArea p.scratch (8 * p.inCount), areaOf p.inAddr (16 * p.inCount)]
    ++ if runs then [storeArea p.runAddr (16 * p.runCount)] else []

def selectOk (runs : Bool) (p : SelectP) : Bool :=
  let as := selectAreas runs p
  between 1 p.inCount 131072 && between 1 p.k 65536 && addrForm p.inAddr && p.inAddr % 16 = 0
    && addrForm p.outAddr && p.outAddr % 16 = 0 && p.scratch % 16 = 0
    && (if runs then between 1 p.qcap 4096 && p.runAddr % 16 = 0 && between 1 p.runCount 131072 && decide (p.probeAddr < 0x4000000)
        else p.qcap = 1 && p.runAddr = 0 && p.runCount = 0 && p.probeAddr = 0)
    && allFit as && (as.drop 1).all (fun a => !(as.headD ⟨false, 0, 0⟩).overlaps a)
    && (as.drop 2).all fun a => !(storeArea p.scratch (8 * p.inCount)).overlaps a

/-- R163. -/
def mergeOk (p : MergeP) : Bool :=
  let as := [storeArea p.tableAddr (8 * p.nin * p.qcount), areaOf p.outAddr (p.qcount * (32 + 16 * p.k)),
    storeArea p.scratch (8 * p.scratchCap)]
  between 1 p.nin 1024 && p.tableAddr % 8 = 0 && addrForm p.outAddr && p.outAddr % 16 = 0 && between 1 p.k 65536
    && between 1 p.qcount 4096 && p.scratch % 16 = 0 && allFit as && apart as

/-- Bytes of one owner's batch in a SPLIT's outbox: two per member, main then overflow, in member order (log entry 18). -/
def boxStride (pairCap : Nat) : Nat := roundUp (32 + 8 * pairCap) 64

/-- The areas of a GATHER, reckoned with ROW_UNITS (R216). A SERVE reads a request and writes a reply of COUNT indices; the outbox of a SPLIT holds
the batches of one owner at least, and the reply a FILL reads one row at least (log entry 144). -/
def gatherAreas (op : GatherOp) (p : GatherP) : List Area :=
  let row := 64 * p.rowUnits
  let n := min p.count 4096
  if op = .serve then [areaOf p.idxAddr (32 + 8 * n), areaOf p.outAddr (32 + roundUp n 64 + n * row)] else
  [areaOf p.idxAddr (8 * p.count), areaOf p.outAddr (row * p.outCap), areaOf p.statusAddr p.count, columnArea p.snapAddr 8]
    ++ (if bit p.mode 0 then [areaOf p.refAddr (4 * p.count)] else [])
    ++ (if op = .split then [columnArea p.boxAddr (2 * boxStride p.pairCap)] else if op = .fill then [columnArea p.boxAddr (96 + row)] else [])

/-- R216: SUMPABLE is checked with the header. -/
def gatherOk (op : GatherOp) (p : GatherP) : Bool :=
  let ref := bit p.mode 0
  let as := gatherAreas op p
  decide (p.table < 64) && decide (p.mode < 2) && addrForm p.idxAddr && p.idxAddr % 8 = 0 && between 1 p.count 1048576
    && addrForm p.outAddr && p.outAddr % 64 = 0 && (if ref then p.refAddr != 0 && addrForm p.refAddr else p.refAddr = 0)
    && addrForm p.statusAddr && between 1 p.outCap 1048576 && (ref || decide (p.count ≤ p.outCap))
    && ((op = .split || op = .fill) || p.boxAddr = 0) && decide (p.boxAddr < 0x4000000)
    && (op != .serve || (p.snapAddr = 0 && p.statusAddr = 0 && p.mode = 0)) && decide (p.snapAddr + 8 ≤ 0x4000000) && between 1 p.rowUnits 256
    && (if op = .split then between 1 p.pairCap 4096 else p.pairCap = 0) && allFit as && apart as

/-- R220. -/
def scatterOk (p : ScatterP) : Bool :=
  decide (p.table < 64) && addrForm p.idxAddr && p.idxAddr % 8 = 0 && between 1 p.count 65536 && addrForm p.srcAddr
    && p.srcAddr % 64 = 0 && addrForm p.ordAddr && between 1 p.rowUnits 256
    && allFit [areaOf p.idxAddr (8 * p.count), areaOf p.srcAddr (64 * p.rowUnits * p.count), areaOf p.ordAddr (2 * p.count)]

/-- R339, R340. -/
def sendOk (p : SendP) : Bool :=
  (p.kind = 1 || p.kind = 4) && (decide (p.peer < 4096) || p.peer = 0xFFFF) && addrForm p.srcAddr && p.srcAddr % 64 = 0
    && between 1 p.length 67108864 && (areaOf p.srcAddr p.length).fits

def recvOk (p : RecvP) : Bool :=
  let as := [areaOf p.dstAddr p.cap, storeArea p.resultAddr 16] ++ if p.entryAddr = 0 then [] else [storeArea p.entryAddr 8]
  (p.kind = 1 || p.kind = 4) && (decide (p.peer < 4096) || p.peer = 0xFFFF) && addrForm p.dstAddr && p.dstAddr % 64 = 0
    && between 1 p.cap 67108864 && p.resultAddr % 16 = 0 && p.entryAddr % 8 = 0 && allFit as && apart as

/-- R269. -/
def pimRunOk (p : PimRunP) : Bool :=
  decide (p.stack < 12) && p.progAddr % 1024 = 0 && decide (p.progAddr + 1024 ≤ columnEnd) && p.pairMask != 0
    && p.dieMask != 0 && between 1 p.count 3145728 && [p.row0, p.row1, p.row2, p.row3].all fun r => decide (r < 49152)

def pimSealOk (p : PimSealP) : Bool :=
  decide (p.stack < 12) && between 1 p.rowCount 49152 && decide (p.rowFirst + p.rowCount ≤ 49152)

/-- R307, R310. -/
def flashReadOk (p : FlashReadP) : Bool :=
  let as := [areaOf p.dstAddr p.dstCap, areaOf p.statusAddr p.count, areaOf p.listAddr (16 * p.count)]
  decide (p.mode < 2) && addrForm p.listAddr && p.listAddr % 16 = 0 && between 1 p.count 65536 && addrForm p.dstAddr
    && p.dstAddr % 64 = 0 && addrForm p.statusAddr && allFit as
    && !(areaOf p.dstAddr p.dstCap).overlaps (areaOf p.statusAddr p.count)

def flashWriteOk (p : FlashWriteP) : Bool :=
  addrForm p.srcAddr && p.srcAddr % 64 = 0 && decide (p.lbn < 2 ^ 23) && decide (1 ≤ p.pages)
    && (areaOf p.srcAddr (p.pages * 16384)).fits

/-- R323. -/
def checkRangeOk (p : CheckRangeP) : Bool :=
  decide (p.poly < 4) && decide (p.tap < 8) && decide (p.fromTap < 2) && (p.fromTap = 1 || p.tap = 0)
    && between 1 p.length 0xFFFFFFFF && State.inTier p.addr p.length
    && (if p.fromTap = 1 then p.expectAddr = 0 else addrForm p.expectAddr && p.expectAddr % 8 = 0 && (areaOf p.expectAddr 8).fits)
    && addrForm p.resultAddr && p.resultAddr % 16 = 0 && (areaOf p.resultAddr 16).fits

def checkTapvalOk (p : CheckTapvalP) : Bool :=
  decide (p.poly < 4) && decide (p.tap < 8) && addrForm p.expectAddr && p.expectAddr % 8 = 0 && (areaOf p.expectAddr 8).fits
    && addrForm p.resultAddr && p.resultAddr % 16 = 0 && (areaOf p.resultAddr 16).fits

def checkWeightOk (p : CheckWeightP) : Bool :=
  between 1 p.fmtW 7 && between 1 p.fmtF 7 && p.poly = 2 && decide (p.vAll < 2) && addrForm p.resultAddr && p.resultAddr % 16 = 0 && (areaOf p.resultAddr 16).fits
    && State.inTier p.addr p.byteLength

/-- R58 and R56, as far as the step alone shows it. -/
def noteOk (p : NoteP) : Bool := decide (1 ≤ p.span) && decide (p.kinds < 8) && decide (p.currentPct ≤ 100)
def sumpOk (p : SumpP) : Bool := between 1 p.maxEntries 4096 && decide (1 ≤ p.maxSlots) && p.keep = 1

/-- The parameters obey their type's own rule. -/
def paramsOk : Params → Bool
  | .scan p => scanOk p
  | .build p => buildOk p
  | .score p => scoreOk p
  | .save p => saveOk p
  | .load p => loadOk p
  | .matmul p => matmulOk p
  | .vecop op p => vecopOk op p
  | .activate f p => actOk f p
  | .convert p => convertOk p
  | .selectRecords p => selectOk false p
  | .selectRuns p => selectOk true p
  | .merge p => mergeOk p
  | .gather op p => gatherOk op p
  | .scatter p => scatterOk p
  | .send p => sendOk p
  | .recv p => recvOk p
  | .pimRun p => pimRunOk p
  | .pimSeal p => pimSealOk p
  | .flashRead p => flashReadOk p
  | .flashWrite p => flashWriteOk p
  | .checkRange p => checkRangeOk p
  | .checkTapval p => checkTapvalOk p
  | .checkWeight p => checkWeightOk p
  | .note p => noteOk p
  | .sump p => sumpOk p

/-- The header alone (R46, R47), and what a type asks of it: NOTE, SEND and RECV are not SUMPABLE,
a SCAN and a GATHER are, a NOTE depends on nothing, and a FLASHREAD is not both in deadline mode and SUMPABLE (R58, R140, R216, R307, R340). -/
def hdrOk (h : Hdr) (p : Params) : Bool :=
  decide (h.flags < 8) && between 1 h.budget 65535 && decide (h.slot ≤ h.deadline)
    && (h.depends = 0xFFFF || decide (h.depends < h.index)) && decide (h.tenant < 64) && decide (h.stage < 16)
    && (if h.sumpable then between 1 h.expiry 16 else h.expiry = 0)
    && match p with
      | .note _ => !h.sumpable && h.depends = 0xFFFF
      | .send _ | .recv _ => !h.sumpable
      | .scan _ | .gather _ _ => h.sumpable
      | .flashRead q => !(bit q.mode 0 && h.sumpable)
      | _ => true

/-- A step the plan block accepts as far as the step alone shows it. -/
def stepOk (s : Step) : Bool := hdrOk s.hdr s.params && paramsOk s.params

/-- A command that carries a chamber number, a step and its errors runs only for a chamber that exists. -/
def chamberOk (c : Nat) : Bool := decide (c < 256)

end Sys2Proof.Machine
end

