-- ==== Sys2Proof/Machine/Elems.lean ====
section
/-! DEFINITION. Elements of arrays in the formats of R74 to R78: reading them as exact values, converting a value
under R82 and R83, and packing elements into bytes. -/

namespace Sys2Proof.Machine

open Sys2Proof.Fp

/-- The `w`-bit units of a byte string, lowest first; `w` is 1, 4, 8, 16 or 32. -/
def unitsOf (w : Nat) (bs : List Byte) : List Nat :=
  if w = 1 then bs.flatMap fun b => (List.range 8).map fun i => bits b.toNat i 1
  else if w = 4 then bs.flatMap fun b => [b.toNat % 16, b.toNat / 16]
  else (chunks (w / 8) bs).map leNat

/-- Units packed into bytes; where the last byte is filled in part, its other bits stay as in `old`. -/
def packUnits (w : Nat) (xs : List Nat) (old : List Byte) : List Byte :=
  if 8 ≤ w then xs.flatMap (leBytes (w / 8))
  else
    let per := 8 / w
    (chunks per xs).mapIdx fun i g =>
      let keep := (old.getD i 0).toNat / 2 ^ (w * g.length) * 2 ^ (w * g.length)
      BitVec.ofNat 8 (keep + (g.mapIdx fun j x => x % 2 ^ w * 2 ^ (w * j)).sum)

/-- The value of one unit of a format; FP4 without its block scale, BIN1 as +1 or -1 (R74 to R76, R82). -/
def unitValue (fmt u : Nat) : Value :=
  match fmt with
  | 0 => decode fp32 u
  | 1 => decode bf16 u
  | 2 => decode fp16 u
  | 3 => decode e4m3 u
  | 4 => decode e5m2 u
  | 5 => decode fp4 u
  | 6 => ofInt (toSigned 8 u)
  | 7 => ofInt (toSigned 4 u)
  | 8 => if u = 1 then ofInt 1 else ofInt (-1)
  | _ => ofInt (toSigned 32 u)

/-- Is the unit an FP8 subnormal (R81)? -/
def isFp8Subnormal (fmt u : Nat) : Bool :=
  (fmt = 3 && decide (0 < u % 128) && decide (u % 128 < 8)) || (fmt = 4 && decide (0 < u % 128) && decide (u % 128 < 4))

/-- An FP8 subnormal reads as a zero of its sign when FTZ_FP8_IN is 1 (R81). -/
def unitIn (ftz : Bool) (fmt u : Nat) : Value :=
  if ftz && isFp8Subnormal fmt u then .fin (bit u 7) 0 0 else unitValue fmt u

/-- x × 2^(s - 127) for an E8M0 scale byte s; 0xFF makes it NaN (R75). -/
def scaleBy (s : Nat) : Value → Value
  | .nan => .nan
  | .inf n => if s = 0xFF then .nan else .inf n
  | .fin n m e => if s = 0xFF then .nan else .fin n m (e + s - 127)

/-- What conversions count (R99). -/
structure Tally where
  intSat : Nat := 0
  fpSat : Nat := 0
  nan : Nat := 0
  ftz : Nat := 0
  deriving DecidableEq, Repr

def Tally.plus (a b : Tally) : Tally := ⟨a.intSat + b.intSat, a.fpSat + b.fpSat, a.nan + b.nan, a.ftz + b.ftz⟩

/-- A value into an integer format of `w` bits: rounded, then saturated; a NaN gives 0 and counts (R82). -/
def toIntFmt (w : Nat) : Value → Nat × Tally
  | .nan => (0, { intSat := 1 })
  | .inf n => (if n then 2 ^ (w - 1) else 2 ^ (w - 1) - 1, { intSat := 1 })
  | .fin n m e =>
    let i := toInt n m e
    let c := clampInt (-(2 ^ (w - 1) : Nat)) ((2 ^ (w - 1) : Nat) - 1) i
    (ofSigned w c, if c = i then {} else { intSat := 1 })

/-- A value into a float format. -/
def toFloatFmt (f : Fmt) (x : Value) : Nat × Tally :=
  let e := encode f x
  (e.bits, { fpSat := boolNat e.sat, nan := boolNat e.nan })

/-- R82, for every destination but FP4. -/
def convertTo (fmt : Nat) (x : Value) : Nat × Tally :=
  match fmt with
  | 0 => toFloatFmt fp32 x
  | 1 => toFloatFmt bf16 x
  | 2 => toFloatFmt fp16 x
  | 3 => toFloatFmt e4m3 x
  | 4 => toFloatFmt e5m2 x
  | 5 => toFloatFmt fp4 x
  | 6 => toIntFmt 8 x
  | 7 => toIntFmt 4 x
  | 8 => (match x with | .nan => 1 | _ => if x.isNeg && !x.isZero then 0 else 1, {})
  | _ => toIntFmt 32 x

/-- Magnitude as a quotient; infinity counts as the greatest finite FP32 value (R83). -/
def magOf : Value → Nat × Nat
  | .nan => (0, 1)
  | .inf _ => dyadic (2 ^ 24 - 1) 104
  | .fin _ m e => dyadic m e

def maxMag (a b : Nat × Nat) : Nat × Nat := if a.1 * b.2 < b.1 * a.2 then b else a

/-- mx_encode of R83 on a block of at most 32 values: the scale byte, the elements and what they count. -/
def mxEncode (xs : List Value) : Nat × List Nat × Tally :=
  if xs.any Value.isNan then (0xFF, xs.map fun _ => 0, { nan := xs.length })
  else
    let amax := xs.foldl (fun a x => maxMag a (magOf x)) (0, 1)
    let s := if amax.1 = 0 then 127 else (clampInt 0 254 (log2Rat amax.1 amax.2 - 2 + 127)).toNat
    let q := xs.map fun x => convertTo 5 (match x with | .fin n m e => .fin n m (e - s + 127) | y => y)
    (s, q.map (·.1), (q.map (·.2)).foldl Tally.plus {})

/-- Conversion of a run of values into a flat array of a format: units, and block scales for FP4 (R82, R83). The
elements of a partial FP4 block are completed with +0 for the scale and the storage. -/
def convertRun (fmt : Nat) (xs : List Value) : List Nat × List Nat × Tally :=
  if fmt = 5 then
    let blocks := (chunks 32 xs).map fun b =>
      let r := mxEncode (b ++ List.replicate (32 - b.length) Value.zero)
      (r.1, r.2.1, if r.1 = 0xFF then { nan := b.length } else r.2.2)
    (blocks.flatMap (·.2.1), blocks.map (·.1), (blocks.map (·.2.2)).foldl Tally.plus {})
  else
    let ys := xs.map (convertTo fmt)
    (ys.map (·.1), [], (ys.map (·.2)).foldl Tally.plus {})

end Sys2Proof.Machine
end

