-- ==== Sys2Proof/Machine/Crypto.lean ====
section
/-! DEFINITION. Check values (12_check_value_units.md R317, R318), and the SHA-256 digest and ECDSA P-256
verification that plan and image checks name (R41, R42, R474), written from their public standards (log entry 12). -/

namespace Sys2Proof.Crypto

/-- One algorithm of R317. `poly` is the polynomial, bit-reversed for a reflected algorithm. -/
structure Crc where
  width : Nat
  poly : Nat
  init : Nat
  reflected : Bool
  xorOut : Nat
  deriving DecidableEq, Repr

def crc16 : Crc := ⟨16, 0x1021, 0xFFFF, false, 0⟩
def crc32 : Crc := ⟨32, 0xEDB88320, 0xFFFFFFFF, true, 0xFFFFFFFF⟩
def crc32c : Crc := ⟨32, 0x82F63B78, 0xFFFFFFFF, true, 0xFFFFFFFF⟩
def crc64 : Crc := ⟨64, 0x42F0E1EBA9EA3693, 0, false, 0⟩

/-- The algorithm of a POLY code. -/
def crcOf (poly : Nat) : Crc := [crc16, crc32, crc32c, crc64].getD poly crc64

/-- The fold of R318. -/
def fold (a width : Nat) : Nat :=
  if width = 64 then a % 2 ^ 64
  else if width = 32 then bits a 0 32 ^^^ bits a 32 32
  else bits a 0 16 ^^^ bits a 16 16 ^^^ bits a 32 16 ^^^ bits a 48 16

def crcBits (c : Crc) : Nat → Nat → Nat
  | 0, r => r
  | n + 1, r =>
    crcBits c n (if c.reflected then (if r % 2 = 1 then (r / 2) ^^^ c.poly else r / 2)
      else (if bit r (c.width - 1) then (r * 2 % 2 ^ c.width) ^^^ c.poly else r * 2 % 2 ^ c.width))

/-- The register after one byte. -/
def crcByte (c : Crc) (r : Nat) (b : Byte) : Nat :=
  crcBits c 8 (if c.reflected then r ^^^ b.toNat else r ^^^ (b.toNat * 2 ^ (c.width - 8)))

def crcStart (c : Crc) (a : Nat) : Nat := c.init ^^^ fold a c.width
def crcRun (c : Crc) (r : Nat) (bs : List Byte) : Nat := bs.foldl (crcByte c) r
def crcEnd (c : Crc) (r : Nat) : Nat := r ^^^ c.xorOut

/-- The check value of `bs` folded with `a` (R318). -/
def check (c : Crc) (a : Nat) (bs : List Byte) : Nat := crcEnd c (crcRun c (crcStart c a) bs)

/-- CRC-32C folded with `a`: the CHECK fields of the module's own structures. -/
def check32c (a : Nat) (bs : List Byte) : Nat := check crc32c a bs

/-! ### SHA-256 -/

/-- Is `p`, below 324, a prime? -/
def isPrime (p : Nat) : Bool := decide (2 ≤ p) && (List.range 18).all fun d => decide (d < 2) || decide (p ≤ d) || p % d != 0

/-- The first 64 primes. -/
def primes : List Nat := (List.range 312).filter isPrime

/-- The greatest number whose `k`-th power is at most `n`, bit by bit: it lies at or above `r` and below `r + 2^bits`. -/
def rootFrom (k n : Nat) : Nat → Nat → Nat
  | 0, r => r
  | i + 1, r => rootFrom k n i (if (r + 2 ^ i) ^ k ≤ n then r + 2 ^ i else r)

/-- The first 32 bits behind the point of the `k`-th root of `p`: the standard takes its constants from square and cube roots of primes. -/
def rootWord (k p : Nat) : Nat := rootFrom k (p * 2 ^ (32 * k)) 37 0 % 2 ^ 32

/-- The words of the rounds, and those the digest starts from. -/
def roundWords : List Nat := primes.map (rootWord 3)
def startWords : List Nat := (primes.take 8).map (rootWord 2)

/-- A 32-bit word turned right by each amount, and the results combined by exclusive or. -/
def turns (x : Nat) (ns : List Nat) : Nat := ns.foldl (fun acc n => acc ^^^ (x / 2 ^ n + x % 2 ^ n * 2 ^ (32 - n))) 0

/-- The sum of 32-bit words, without its carries. -/
def sum32 (xs : List Nat) : Nat := xs.sum % 2 ^ 32

/-- The message words held newest first, and `fuel` more: each is made of the words 2, 7, 15 and 16 before it. -/
def shaExtend : Nat → List Nat → List Nat
  | 0, w => w
  | fuel + 1, w =>
    let back (n : Nat) : Nat := w.getD (n - 1) 0
    shaExtend fuel (sum32 [back 16, back 7, turns (back 15) [7, 18] ^^^ (back 15 / 2 ^ 3), turns (back 2) [17, 19] ^^^ (back 2 / 2 ^ 10)] :: w)

/-- One round over the eight working words. -/
def shaRound (v : List Nat) (kw : Nat × Nat) : List Nat :=
  match v with
  | [a, b, c, d, e, f, g, h] =>
    let pick := g ^^^ (e &&& (f ^^^ g))
    let most := (a &&& (b ||| c)) ||| (b &&& c)
    let t := sum32 [h, turns e [6, 11, 25], pick, kw.1, kw.2]
    [sum32 [t, turns a [2, 13, 22], most], a, b, c, sum32 [d, t], e, f, g]
  | _ => v

/-- The number a big-endian byte string spells. -/
def beNat (bs : List Byte) : Nat := bs.foldl (fun n b => 256 * n + b.toNat) 0

/-- The `k` low bytes of `n`, most significant first. -/
def beBytes (k n : Nat) : List Byte := (leBytes k n).reverse

/-- The digest words after one block of 64 bytes. -/
def shaBlock (v : List Nat) (blk : List Byte) : List Nat :=
  let w := (shaExtend 48 ((chunks 4 blk).map beNat).reverse).reverse
  (v.zip ((roundWords.zip w).foldl shaRound v)).map fun (x, y) => sum32 [x, y]

def shaPad (n : Nat) : List Byte := 0x80 :: (List.replicate ((119 - n % 64) % 64) 0 ++ beBytes 8 (8 * n))

/-- The 32 digest bytes. -/
def sha256 (bs : List Byte) : List Byte :=
  ((chunks 64 (bs ++ shaPad bs.length)).foldl shaBlock startWords).flatMap (beBytes 4)

/-! ### ECDSA over P-256 -/

def pP : Nat := 0xffffffff00000001000000000000000000000000ffffffffffffffffffffffff
def pN : Nat := 0xffffffff00000000ffffffffffffffffbce6faada7179e84f3b9cac2fc632551
def pB : Nat := 0x5ac635d8aa3a93e7b3ebbd55769886bc651d06b0cc53b0f63bce3c3e27d2604b
def pGx : Nat := 0x6b17d1f2e12c4247f8bce6e563a440f277037d812deb33a0f4a13945d898c296
def pGy : Nat := 0x4fe342e2fe1a7f9b8ee7eb4a7c0f9e162bce33576b315ececbb6406837bf51f5

/-- b^e mod m over the low `fuel` bits of e. -/
def powMod (m : Nat) : Nat → Nat → Nat → Nat → Nat
  | 0, _, _, acc => acc
  | f + 1, b, e, acc => powMod m f (b * b % m) (e / 2) (if e % 2 = 1 then acc * b % m else acc)

def invMod (m a : Nat) : Nat := powMod m 256 (a % m) (m - 2) 1
def subMod (m a b : Nat) : Nat := (a + m - b % m) % m

/-- A curve point; `none` is the point at infinity. -/
abbrev Point := Option (Nat × Nat)

def pAdd : Point → Point → Point
  | none, q => q
  | p, none => p
  | some (x₁, y₁), some (x₂, y₂) =>
    if x₁ = x₂ ∧ (y₁ + y₂) % pP = 0 then none else
    let l := if x₁ = x₂ then (3 * x₁ * x₁ + (pP - 3)) * invMod pP (2 * y₁) % pP
      else subMod pP y₂ y₁ * invMod pP (subMod pP x₂ x₁) % pP
    let x := subMod pP (l * l) (x₁ + x₂)
    some (x, subMod pP (l * subMod pP x₁ x) y₁)

def pMul : Nat → Nat → Point → Point → Point
  | 0, _, _, acc => acc
  | f + 1, k, p, acc => pMul f (k / 2) (pAdd p p) (if k % 2 = 1 then pAdd acc p else acc)

def onCurve (x y : Nat) : Bool :=
  decide (x < pP) && decide (y < pP) && (y * y) % pP == (x * x * x + (pP - 3) * x + pB) % pP

/-- Does the 64-byte signature r ‖ s verify over the digest `hash` under the key with affine coordinates (x, y)? -/
def ecdsaVerifyHash (x y : Nat) (hash sig : List Byte) : Bool :=
  let r := beNat (sig.take 32)
  let s := beNat ((sig.drop 32).take 32)
  if r = 0 || pN ≤ r || s = 0 || pN ≤ s || !onCurve x y then false else
  let z := beNat hash
  let w := invMod pN s
  match pAdd (pMul 256 (z * w % pN) (some (pGx, pGy)) none) (pMul 256 (r * w % pN) (some (x, y)) none) with
  | none => false
  | some (vx, _) => vx % pN == r

/-- Does the signature verify over `msg`, hashed with SHA-256? -/
def ecdsaVerify (x y : Nat) (msg sig : List Byte) : Bool := ecdsaVerifyHash x y (sha256 msg) sig

end Sys2Proof.Crypto
end

