-- ==== Sys2Proof/Machine/Tiers.lean ====
section
/-! DEFINITION. Home records, charges, lost data and the errors that reads of the memories meet
(09_memory_tiers_and_homes.md R231 to R258). -/

namespace Sys2Proof.Machine

open Sys2Proof.Crypto

/-- A home record (R238). -/
structure HomeRec where
  datum : Nat
  owner : Nat
  state : Nat
  tier : Nat
  destTier : Nat
  home : Nat
  length : Nat
  dest : Nat
  referrer : Nat
  kind : Nat
  arm : Nat
  freeAt : Nat
  chunksLeft : Nat
  deriving DecidableEq, Repr

/-- The STATE codes of R239. -/
def hsEmpty : Nat := 0
def hsHome : Nat := 1
def hsCopying : Nat := 2
def hsCopied : Nat := 3
def hsReleasing : Nat := 4
def hsLost : Nat := 5

/-- The first 60 bytes of a record. -/
def homeBody (r : HomeRec) : List Byte :=
  leBytes 4 r.datum ++ leBytes 1 r.owner ++ leBytes 1 r.state ++ leBytes 1 r.tier ++ leBytes 1 r.destTier
    ++ leBytes 8 r.home ++ leBytes 8 r.length ++ leBytes 8 r.dest ++ leBytes 1 r.referrer ++ leBytes 1 r.kind
    ++ leBytes 2 0 ++ leBytes 4 r.arm ++ leBytes 4 r.freeAt ++ leBytes 4 r.chunksLeft ++ List.replicate 12 0

def homeParse (b : List Byte) : HomeRec :=
  { datum := fieldAt b 0 4, owner := fieldAt b 4 1, state := fieldAt b 5 1, tier := fieldAt b 6 1,
    destTier := fieldAt b 7 1, home := fieldAt b 8 8, length := fieldAt b 16 8, dest := fieldAt b 24 8,
    referrer := fieldAt b 32 1, kind := fieldAt b 33 1, arm := fieldAt b 36 4, freeAt := fieldAt b 40 4,
    chunksLeft := fieldAt b 44 4 }

/-- No reserved code (R238, R239, R240). -/
def homeCodesOk (r : HomeRec) : Bool :=
  decide (r.state ≤ 5) && decide (r.tier ≤ 2) && decide (r.destTier ≤ 2) && decide (r.referrer ≤ 2)
    && decide (r.kind ≤ 1) && !bit r.owner 6

/-- The account an OWNER byte names: a tenant, or 64 for the system. -/
def ownerOf (r : HomeRec) : Nat := if bit r.owner 7 then 64 else bits r.owner 0 6

/-- An address range lies within column offsets 0 to 0x3EB_FFFF of one column (R255, R460). -/
def inOneColumn (base len : Nat) : Bool :=
  decide (base < 0x400000000) && decide (base % 0x4000000 + len ≤ 0x3EC0000)

/-- The pair of R255 agrees. -/
def homePairOk (base count : Nat) : Bool :=
  base % 64 = 0 && decide (1 ≤ count) && inOneColumn base (64 * count)

namespace State

/-- The home table exists: its pair in effect agrees (R255, R485). -/
def homesReady (s : State) : Bool := homePairOk (s.dev.val Reg.homeBase) (s.dev.val Reg.homeCount)

def homeAddr (s : State) (n : Nat) : Nat := s.dev.val Reg.homeBase + 64 * n

/-- A record read with its CHECK and codes tested (R238). -/
def homeGet (s : State) (n : Nat) : Option HomeRec :=
  let (b, bad) := s.devRead (s.homeAddr n) 64
  let r := homeParse b
  if !bad && fieldAt b 60 4 = check32c (s.homeAddr n) (b.take 60) && homeCodesOk r && r.datum = n then some r else none

/-- The record of a flash home as its copy on flash keeps it: in state HOME, with no move (R252, R253). -/
def homeAtRest (r : HomeRec) : HomeRec :=
  { r with state := hsHome, destTier := 0, dest := 0, kind := 0, arm := 0, freeAt := 0, chunksLeft := 0 }

/-- Lantern writes a record with its CHECK, and keeps the copy on flash of one whose home is on flash (R252). -/
def homePut (s : State) (r : HomeRec) : State :=
  let body := homeBody r
  (s.devWrite (s.homeAddr r.datum) (body ++ leBytes 4 (check32c (s.homeAddr r.datum) body))).onDev fun d =>
    { d with fls := { d.fls with homeCopy :=
      if r.tier = 2 ∧ r.state ≠ hsEmpty then assocPut r.datum (homeBody (homeAtRest r)) d.fls.homeCopy else d.fls.homeCopy.filter (·.1 != r.datum) } }

/-- TIER_HOME_BAD (R238). -/
def homeBad (s : State) (n : Nat) : State :=
  s.onDev (·.raise .tierHomeBad Dev.srcLantern [(4, n), (5, s.homeAddr n)])

/-- Every record of the table that is sound. -/
def homes (s : State) : List HomeRec :=
  if s.homesReady then (List.range (s.dev.val Reg.homeCount)).filterMap s.homeGet else []

/-- A search of the table raises TIER_HOME_BAD for each record that is not sound (R238). -/
def tellBad (s : State) : State :=
  if s.homesReady then ((List.range (s.dev.val Reg.homeCount)).filter fun n => (s.homeGet n).isNone).foldl homeBad s else s

/-- Bytes of a range in the unit of its tier: a flash home counts logical blocks (R238). -/
def lbBytes (s : State) : Nat := s.dev.rd Reg.flsLbBytes

/-- The extent of a home: first unit and number of units, bytes or logical blocks. -/
def extent (s : State) (tier home len : Nat) : Nat × Nat :=
  if tier = 2 then (home, ceilDiv len (max 1 s.lbBytes)) else (home, len)

/-- The datum whose home or destination overlaps the range, of a record that is not EMPTY (R237) or a range that is freed at the next
cairn (R244); 2^32 − 1 stands for the home table itself (R252). -/
def homeOverlap (s : State) (tier first len : Nat) : Option Nat :=
  let (a, n) := s.extent tier first len
  let hits (t h l : Nat) : Bool :=
    let (b, m) := s.extent t h l
    t = tier && decide (a < b + m) && decide (b < a + n)
  ((s.homes.find? fun r => r.state != hsEmpty && (hits r.tier r.home r.length
    || ((r.state = hsCopying || r.state = hsCopied || r.state = hsReleasing) && hits r.destTier r.dest r.length))).map (·.datum)).or
  (((s.dev.tier.freeDue.find? fun x => hits x.2.2.1 x.2.2.2.1 x.2.2.2.2).map (·.1)).or
    (if hits 0 (s.dev.val Reg.homeBase) s.dev.tier.table then some (2 ^ 32 - 1) else none))

end State

namespace Dev

def usedOf (d : Dev) (owner tier : Nat) : Nat := assocD 0 (owner * 4 + tier) d.tier.used

def setUsed (d : Dev) (owner tier n : Nat) : Dev :=
  { d with tier := { d.tier with used := assocPut (owner * 4 + tier) n d.tier.used } }

/-- The charge of a length in a tier (R245). -/
def chargeOf (d : Dev) (tier len : Nat) : Nat :=
  if tier = 2 then roundUp len (max 1 (d.rd Reg.flsLbBytes)) else roundUp len 64

/-- The byte limit of an account; the system account has none. -/
def limitOf (d : Dev) (owner tier : Nat) : Option Nat :=
  if owner = 64 then none
  else some (d.val (if tier = 0 then Reg.tntStrataLimit owner else if tier = 1 then Reg.tntStackLimit owner else Reg.tntFlashLimit owner))

/-- A charge under R247: refused with its counter, status bit and the first record of the epoch, or made. -/
def charge (d : Dev) (owner tier n : Nat) : Dev × Bool :=
  let used := d.usedOf owner tier
  match d.limitOf owner tier with
  | some lim =>
    if lim < used + n then
      let d := (d.bump Ctr.tierQuotaRefusals).putFlag Reg.tierStatusQuotaRefused true
      if d.tier.quotaSaid.contains (owner * 4 + tier) then (d, false)
      else ({ (d.raise .tierQuotaExceeded srcLantern [(1, owner), (1, tier), (8, n), (8, used)]) with
        tier := { d.tier with quotaSaid := d.tier.quotaSaid ++ [owner * 4 + tier] } }, false)
    else (d.setUsed owner tier (used + n), true)
  | none => (d.setUsed owner tier (used + n), true)

/-- A credit, made at the cairn at which the range is freed (R247). -/
def credit (d : Dev) (owner tier n : Nat) : Dev := d.setUsed owner tier (d.usedOf owner tier - n)

/-- Lantern has rewritten the home maps: once the work slots of an epoch begin (R258; log entry 137). -/
def mendMaps (d : Dev) : Dev := { d with tier := { d.tier with badMap := [], mapStop := [] } }

/-- The USED and ITEMS_LIVE registers take their values at a cairn (R256). -/
def showUsed (d : Dev) : Dev :=
  let d := (List.range 64).foldl (fun d t =>
    (((d.put (Reg.tntStrataUsed t) (d.usedOf t 0)).put (Reg.tntStackUsed t) (d.usedOf t 1)).put
      (Reg.tntFlashUsed t) (d.usedOf t 2)).put (Reg.tntItemsLive t) (assocD 0 t d.tier.items)) d
  (List.range 3).foldl (fun d k => d.put (Reg.sysUsed k) (d.usedOf 64 k)) d

end Dev

namespace State

/-- The controller that answers for a device address: 21 strata, 5 to 16 stacks 0 to 11 (R442). -/
def controllerOf (a : Nat) : Nat :=
  if a < 0x1000000000 then Dev.srcStrata else Dev.srcStack ((a - 0x1000000000) / 0xC00000000)

/-- What a record has its destination hold already (R243). -/
def mirrorsOf (r : HomeRec) : List Mirror :=
  if r.kind = 0 && (r.state = hsCopying || r.state = hsCopied) && r.tier != 2 && r.destTier != 2 then
    [⟨r.datum, r.home, r.dest, min r.length (4096 * (ceilDiv r.length 4096 - r.chunksLeft))⟩]
  else []

/-- TIER_STATUS.MOVE_BUSY follows the records (R254). -/
def showMoves (s : State) : State :=
  let busy := s.homes.any fun r => r.state = hsCopying || r.state = hsCopied || r.state = hsReleasing
  s.onDev (·.putFlag Reg.tierStatusMoveBusy busy)

/-- A record is rewritten, and what follows from it. -/
def setHome (s : State) (r : HomeRec) : State :=
  ((s.homePut r).onDev fun d => { d with tier := { d.tier with mirrors := d.tier.mirrors.filter (·.datum != r.datum) ++ mirrorsOf r } }).showMoves

/-- A datum becomes LOST (R253): its record, the counter and TIER_HOME_LOST, REPAIR when the datum has a reload
copy or a flash home and WITHDRAW otherwise (R447). -/
def loseHome (s : State) (r : HomeRec) : State :=
  if r.state = hsLost then s else
  let cls := if s.dev.fls.blocks.any (·.datum = r.datum) || r.tier = 2 then FaultClass.repair else .withdraw
  (s.setHome { r with state := hsLost }).onDev fun d =>
    let d := (d.raise .tierHomeLost Dev.srcLantern [(4, r.datum), (1, r.tier), (5, r.home), (8, r.length)] false (some cls)).bump Ctr.tierHomesLost
    { d with tier := { d.tier with lostDue := d.tier.lostDue ++ [r.datum] } }

/-- The datum that holds an address of a tier becomes LOST. -/
def loseAt (s : State) (tier a : Nat) : State :=
  let s := s.tellBad
  match s.homes.find? fun r => r.state != hsEmpty && r.tier = tier && decide (r.home ≤ a) && decide (a < r.home + (s.extent tier r.home r.length).2) with
  | some r => s.loseHome r
  | none => s

/-- A 64-byte atom of the strata or a stack that reads as uncorrectable: poison, the error register, the counter, the fault of a
stack's outer code where the stripe's mode checks it (R277, R280), and the datum LOST (R253, R511). -/
def devUncorrectable (s : State) (a : Nat) : State :=
  let s := s.devMark (a / 64 * 64) 64 true
  if a < 0x1000000000 then
    (s.onDev fun d => (d.put Reg.strErrAddr a).bump Ctr.strUncorrected).loseAt 0 a
  else
    let st := (a - 0x1000000000) / 0xC00000000
    let outer := s.dev.stripeMode st ((a - 0x1000000000) % 0xC00000000 / 0x100000) = 0
    (s.onDev fun d =>
      let d := d.put (Reg.stkErrAddr st) a
      if outer then (d.raise .stkOuterUncorrectable (Dev.srcStack st) [(1, st), (5, a)] true).bump (Ctr.stkOuterUncorrected st)
      else d.bump (Ctr.stkInnerUncorrected st)).loseAt 1 a

/-- A home-map entry that fails parity (R258): the granule reads as poisoned zero words and the controller stops MAPPED flips, until Lantern
rewrites the map (`Dev.mendMaps`). A write goes where the entry leads (log entry 137). -/
def mapParity (s : State) (granule : Nat) : State :=
  let a := granule * 65536
  let k := controllerOf a
  s.onDev fun d =>
    let d := { d with tier := { d.tier with badMap := if d.tier.badMap.contains granule then d.tier.badMap else d.tier.badMap ++ [granule] } }
    let d := d.raise .tierMapParity k [(1, k), (4, granule)]
    let d := if k = Dev.srcStrata then d.bump Ctr.strMapParity else d
    { d with tier := { d.tier with mapStop := if d.tier.mapStop.contains k then d.tier.mapStop else d.tier.mapStop ++ [k] } }

/-- An error a step's reads meet (R94, R24, R258, R511). Errors of matrix tiles and LUT words are handled by the steps
that meet them. -/
def upset (s : State) (c idx : Nat) : Upset → State
  | .storeCorrected => s.onDev (·.bump (Ctr.chStoreCorrected c))
  | .storeBad off =>
    let s := { s with mem := s.mem.mark .store (c * 0x200000 + off % 0x200000) 1 }
    s.onDev fun d => (((d.raise .storeUncorrectable (Dev.srcGallery c) [(1, c), (4, off), (2, idx)]).bump (Ctr.chStoreUncorrected c)).put
      (Reg.storeErrAddr c) (off / 8 * 8)).putFlag (Reg.arithStatusPoisoned c) true
  | .regBad v e =>
    let s := { s with mem := s.mem.mark .vreg (vregKey c (v % 16) (e % 1024)) 4 }
    s.onDev fun d => ((d.raise .regfileParity (Dev.srcGallery c) [(1, c), (1, v), (2, e), (2, idx)]).bump (Ctr.chStoreUncorrected c)).putFlag
      (Reg.arithStatusPoisoned c) true
  | .devBad a => s.devUncorrectable a
  | .devCorrected a outer => s.onDev fun d =>
      if a < 0x1000000000 then d.bump Ctr.strCorrected
      else
        let st := (a - 0x1000000000) / 0xC00000000
        d.bump (if outer && d.stripeMode st ((a - 0x1000000000) % 0xC00000000 / 0x100000) = 0 then Ctr.stkOuterCorrected st else Ctr.stkInnerCorrected st)
  | .mapBad g => s.mapParity g
  | .tileBad _ _ => s
  | .lutBad _ => s
  | .cvuBad u v => s.onDev fun d => { d with cvu := { d.cvu with faulty := d.cvu.faulty ++ [(u, v)] } }
  | .suspend n => s.onDev fun d => if n < d.val Reg.flsReadSuspendMax then d.bump Ctr.flsSuspends else d

def upsets (s : State) (c idx : Nat) (us : List Upset) : State := us.foldl (fun s u => s.upset c idx u) s

end State

/-- The shell of every step command: a step that breaks R47 raises PLAN_BAD_STEP and does nothing else, since
verification never lets one reach a sequencer (log entry 11); otherwise the errors its reads meet happen, the step
does its work, and what a work unit left over joins the sump. -/
def stepCmd (c : Nat) (h : Hdr) (p : Params) (us : List Upset)
    (run : Ctx → State → State × Option (List Nat)) (s : State) : Host.Outcome State Fault Refusal :=
  if chamberOk c && stepOk ⟨h, p⟩ then
    if s.dev.heldBack c h.index then done s else
    let x := s.dev.stepCtx c h
    let r := run x (s.upsets c h.index us)
    done (r.1.onDev (·.ran x p r.2))
  else devOnly s (·.raise .planBadStep Dev.srcLantern [(1, s.dev.rd Reg.plnCtrlActiveBank), (1, c), (2, h.index)])

end Sys2Proof.Machine
end

