-- ==== Sys2Proof/Machine/Arith.lean ====
section
/-! DEFINITION. The matrix and vector units: MATMUL, VECOP, ACTIVATE and CONVERT (03_chamber_arithmetic.md R84 to R101). -/

namespace Sys2Proof.Machine

open Sys2Proof.Fp

/-- The counts of a step's conversions reach the counters, the status bits and ARITH_NAN (R98 to R101). -/
def Dev.tally (d : Dev) (x : Ctx) (t : Tally) : Dev :=
  (((d.intSat x.c t.intSat).fpSat x.c t.fpSat).ftzIn x.c t.ftz).nanOut x t.nan

/-! ### MATMUL -/

/-- Rows of a stored matrix as units: `n` rows of `k` elements, each row from a byte boundary (R87). -/
def matRows (s : State) (c : Nat) (l : Loc) (fmt n k : Nat) : List (List Nat) :=
  (List.range n).map fun i => (unitsOf (fmtBits fmt) (s.locRead c (l.plus (i * rowBytes fmt k)) (rowBytes fmt k)).1).take k

/-- The columns of a list of rows of length `n`. -/
def transposed (rows : List (List Nat)) (n : Nat) : List (List Nat) :=
  (List.range n).map fun j => rows.map fun r => r.getD j 0

/-- The scale bytes of an FP4 operand for each of its `n` rows along K (R87); `column` says they are stored by K block. -/
def matScales (s : State) (c addr fmt n kb : Nat) (byBlock : Bool) : List (List Nat) :=
  if fmt != 5 then List.replicate n (List.replicate kb 127)
  else
    let bs := (s.locRead c (locOf c addr) (n * kb)).1.map (·.toNat)
    if byBlock then transposed (chunks n bs) n else chunks kb bs

/-- Sum of 32 products, completed with +0, by the tree of R89; then the block scales (R85). -/
def blockSum (a b : List Value) (sa sb : Nat) (mx : Bool) : Nat :=
  let ps := (a.zip b).map fun (x, y) => to32 (mul x y)
  let t := treeSum (ps ++ List.replicate (32 - ps.length) 0)
  if mx then (if sa = 0xFF || sb = 0xFF then nan32 else to32 (scaleBy sb (scaleBy sa (f32 t)))) else t

/-- The float accumulator over all blocks of 32, in ascending order (R85). -/
def floatDot (acc : Nat) (a b : List Value) (sa sb : List Nat) (mx : Bool) : Nat :=
  (((chunks 32 a).zip (chunks 32 b)).zip (sa.zip sb)).foldl (fun acc ((x, y), (p, q)) => fadd acc (blockSum x y p q mx)) acc

/-- The exact integer of a value that is one. -/
def intOf : Value → Int
  | .fin n m e => toInt n m e
  | _ => 0

/-- Saturation to INT32, and whether it happened (R86, R90). -/
def sat32 (i : Int) : Int × Nat :=
  let c := clampInt (-2147483648) 2147483647 i
  (c, if c = i then 0 else 1)

/-- The integer accumulator: exact block sums, added with saturation in ascending order (R86). -/
def intDot (acc : Int) (a b : List Value) : Int × Nat :=
  ((chunks 32 a).zip (chunks 32 b)).foldl (fun (acc, n) (x, y) =>
    let r := sat32 (acc + ((x.zip y).map fun (u, v) => intOf u * intOf v).sum)
    (r.1, n + r.2)) (acc, 0)

/-- The accumulator as a value ready for the output conversion: OUT_SCALE with one rounding (R87). -/
def scaledOut (p : MatmulP) (isFloat : Bool) (acc : Nat) : Value :=
  if !isFloat && p.fmtOut = 9 then ofInt (toSigned 32 acc)
  else f32 (fmul (if isFloat then acc else to32 (ofInt (toSigned 32 acc))) p.outScale)

/-- K steps a cycle, doubled (R84): half-float 0.5, FP8 or INT8 1, FP4 or INT4 on both sides 2, BIN1 8. -/
def kpc2 (p : MatmulP) : Nat :=
  match matGroup p.fmtA with
  | some 1 => 1
  | some 3 => 16
  | _ => if fmtBits p.fmtA = 4 && fmtBits p.fmtB = 4 then 4 else 2

def matmulCycles (p : MatmulP) : Nat := ceilDiv p.m 64 * ceilDiv p.n 64 * ceilDiv (2 * p.k) (kpc2 p) + 24

/-- One row of accumulators, with the number of saturations. -/
def matRow (p : MatmulP) (isFloat : Bool) (start : List Nat) (a : List Value) (sa : List Nat) (bs : List (List Value × List Nat)) :
    List (Nat × Nat) :=
  (start.zip bs).map fun (c0, b, sb) =>
    if isFloat then (floatDot c0 a b sa sb (p.fmtA = 5 || p.fmtB = 5), 0)
    else let r := intDot (toSigned 32 c0) a b; (ofSigned 32 r.1, r.2)

/-- A row of C written in pieces of 64 columns, a poisoned tile's piece with poison (R94, R100). -/
def writeRow (s : State) (c : Nat) (l : Loc) (fmt : Nat) (units : List Nat) (bad : Nat → Bool) : State :=
  let w := fmtBits fmt
  let pieces := chunks 64 units
  (pieces.zip (List.range pieces.length)).foldl (fun s (g, j) =>
    let at' := l.plus (8 * w * j)
    let old := (s.locRead c at' (ceilDiv (g.length * w) 8)).1
    s.locWrite c at' (packUnits w g old) (bad j)) s

/-- MATMUL (R84 to R88, R100): every element of C is computed from the operands as they stand, then C is written. FTZ_IN counts each stored operand
element that is flushed once, however many output tiles read it (log entry 131). -/
def matmulRun (us : List Upset) (p : MatmulP) (x : Ctx) (s : State) : State × Option (List Nat) :=
  let isFloat := matGroup p.fmtA = some 0 || matGroup p.fmtA = some 1
  let ftz := s.dev.on (Reg.arithCtrlFtzFp8In x.c)
  let la := locOf x.c p.aAddr
  let lb := locOf x.c p.bAddr
  let lc := Loc.store p.cAddr
  let tb := bit p.flags 1
  let ua := matRows s x.c la p.fmtA p.m p.k
  let ub0 := matRows s x.c lb p.fmtB (if tb then p.n else p.k) (if tb then p.k else p.n)
  let ub := if tb then ub0 else transposed ub0 p.n
  let kb := ceilDiv p.k 32
  let sa := matScales s x.c p.aScale p.fmtA p.m kb false
  let sb := matScales s x.c p.bScale p.fmtB p.n kb (!tb)
  let va := ua.map (·.map (unitIn ftz p.fmtA))
  let vb := (ub.map (·.map (unitIn ftz p.fmtB))).zip sb
  let flushed := if ftz then (ua.flatMap id).countP (isFp8Subnormal p.fmtA) + (ub.flatMap id).countP (isFp8Subnormal p.fmtB) else 0
  let start := if bit p.flags 0 then matRows s x.c lc p.fmtOut p.m p.n else List.replicate p.m (List.replicate p.n 0)
  let poison := (s.locRead x.c la (matAreaA p).len).2 || (s.locRead x.c lb (matAreaB p).len).2
    || (s.locRead x.c (locOf x.c p.aScale) (matScaleA p).len).2 || (s.locRead x.c (locOf x.c p.bScale) (matScaleB p).len).2
    || (bit p.flags 0 && (s.locRead x.c lc (matAreaC p).len).2)
  let rows := (start.zip (va.zip sa)).map fun (c0, a, ra) => matRow p isFloat c0 a ra vb
  let sats := (rows.flatMap id).map (·.2) |>.sum
  let badTiles := us.filterMap fun u => match u with | .tileBad t true => some t | _ => none
  let retries := us.countP fun u => match u with | .tileBad _ _ => true | _ => false
  let tilesN := ceilDiv p.n 64
  let (s, t) := (rows.zip (List.range rows.length)).foldl (fun ((s, t) : State × Tally) ((row, i) : List (Nat × Nat) × Nat) =>
    let vals := row.map fun (acc, _) => scaledOut p isFloat acc
    let bad (j : Nat) : Bool := poison || badTiles.contains (i / 64 * tilesN + j)
    let lrow := lc.plus (i * rowBytes p.fmtOut p.n)
    if p.fmtOut = 5 then
      let blocks := (chunks 32 vals).map fun b =>
        let r := mxEncode (b ++ List.replicate (32 - b.length) Value.zero)
        (r.1, r.2.1.take b.length, if r.1 = 0xFF then { nan := b.length } else r.2.2)
      let s := writeRow s x.c lrow 5 (blocks.flatMap (·.2.1)) bad
      let s := s.locWrite x.c (.store (32 * p.outScaleAddr + i * ceilDiv p.n 32)) (blocks.map fun b => BitVec.ofNat 8 b.1)
        (poison || (List.range tilesN).any bad)
      (s, t.plus ((blocks.map (·.2.2)).foldl Tally.plus {}))
    else
      let ys := vals.map (convertTo p.fmtOut)
      (writeRow s x.c lrow p.fmtOut (ys.map (·.1)) bad, t.plus ((ys.map (·.2)).foldl Tally.plus {}))) ((s, {}) : State × Tally)
  let s := s.onDev fun d =>
    let d := d.tally x (t.plus { intSat := sats, ftz := flushed })
    let d := (d.bump (Ctr.chMatrixBusy x.c) (matmulCycles p)).bump (Ctr.chResidueRetry x.c) retries
    let d := badTiles.foldl (fun d t => d.raise .matrixResidue x.src [(1, x.c), (2, x.hdr.index), (2, t)]) d
    d.meter x.hdr 2 (p.m * p.n * p.k)
  (s, none)

/-! ### VECOP -/

/-- An INT32 result, saturated, with its count. -/
def satElem (i : Int) : Nat × Tally :=
  let r := sat32 i
  (ofSigned 32 r.1, { intSat := r.2 })

/-- An FP32 result, counted when it is NaN. -/
def fpElem (b : Nat) : Nat × Tally := (b, { nan := boolNat (isNan32 b) })

def plain (b : Nat) : Nat × Tally := (b, {})

/-- A NaN operand gives the canonical NaN (R80); other values pass. -/
def quiet (b : Nat) : Nat := if isNan32 b then nan32 else b

/-- Element results of VECOP (R90, R91): `i` selects INT32, `sc` is SCALAR. Reductions and memory operations are elsewhere. -/
def vecElem (op : VecOp) (i : Bool) (sc a b c : Nat) : Nat × Tally :=
  let ia := toSigned 32 a
  let ib := toSigned 32 b
  let ic := toSigned 32 c
  let isc := toSigned 32 sc
  match op with
  | .vAdd => if i then satElem (ia + ib) else fpElem (fadd a b)
  | .vSub => if i then satElem (ia - ib) else fpElem (fsub a b)
  | .vMul => if i then satElem (ia * ib) else fpElem (fmul a b)
  | .vFma => if i then satElem (ia * ib + ic) else fpElem (ffma a b c)
  | .vFmas => if i then satElem (ia * isc + ib) else fpElem (ffma a sc b)
  | .vMax => if i then plain (if ia < ib then b else a) else fpElem (fmax a b)
  | .vMin => if i then plain (if ib < ia then b else a) else fpElem (fmin a b)
  | .vAbs =>
    if i then plain (if a = 2 ^ 31 then (Config.intNegMin false).toNat else ofSigned 32 ia.natAbs)
    else fpElem (if isNan32 a then nan32 else a % 2 ^ 31)
  | .vNeg =>
    if i then plain (if a = 2 ^ 31 then (Config.intNegMin true).toNat else ofSigned 32 (-ia))
    else fpElem (if isNan32 a then nan32 else a ^^^ 2 ^ 31)
  | .vAnd => plain (a &&& b)
  | .vOr => plain (a ||| b)
  | .vXor => plain (a ^^^ b)
  | .vShl => plain (a * 2 ^ (b % 32) % 2 ^ 32)
  | .vShra => plain (ofSigned 32 (ia / (2 ^ (b % 32) : Nat)))
  | .vBroadcast => if i then plain sc else fpElem (quiet sc)
  | .vCmpgt => plain (boolNat (if i then decide (ib < ia) else decide (0 < cmp (f32 a) (f32 b))))
  | .vSelect => if i then plain (if c = 0 then a else b) else fpElem (quiet (if c = 0 then a else b))
  | .vSumr | .vMaxr | .vMinr | .vLoad | .vStore => plain a

/-- The reductions into element 0 (R89, R91). -/
def vecReduce (op : VecOp) (i : Bool) (xs : List Nat) : Nat × Tally :=
  match op with
  | .vSumr => if i then satElem ((xs.map (toSigned 32)).sum) else fpElem (quiet (treeSum xs))
  | .vMaxr => if i then plain (xs.foldl (fun a b => if toSigned 32 a < toSigned 32 b then b else a) (xs.headD 0))
      else fpElem (quiet (xs.foldl fmax (xs.headD 0)))
  | _ => if i then plain (xs.foldl (fun a b => if toSigned 32 b < toSigned 32 a then b else a) (xs.headD 0))
      else fpElem (quiet (xs.foldl fmin (xs.headD 0)))

/-- Cycles of a VECOP (R91). -/
def vecCycles (op : VecOp) (p : VecopP) : Nat :=
  match op with
  | .vSumr | .vMaxr | .vMinr => ceilDiv p.count 128 + 14
  | .vLoad | .vStore => if bit p.addr 31 then ceilDiv (4 * p.count) 512 + 4 else ceilDiv (4 * p.count) 1024 + 2
  | _ => ceilDiv p.count 128 + 4

/-- The first `n` elements of a register. -/
def State.vregs (s : State) (c v n : Nat) : List Nat := (List.range n).map (s.vget c v)

/-- VECOP LOAD. -/
def vecLoad (p : VecopP) (x : Ctx) (s : State) : State :=
  let (bs, bad) := s.locRead x.c (locOf x.c p.addr) (4 * p.count)
  s.vput x.c p.dst ((chunks 4 bs).map leNat) bad

/-- VECOP STORE. -/
def vecStore (p : VecopP) (x : Ctx) (s : State) : State :=
  s.locWrite x.c (locOf x.c p.addr) ((s.vregs x.c p.srcA p.count).flatMap (leBytes 4)) (s.vbad x.c p.srcA p.count)

/-- Which registers an element operation reads (R91). -/
def vecReads (op : VecOp) (p : VecopP) : List Nat :=
  match op with
  | .vAbs | .vNeg => [p.srcA]
  | .vFma | .vSelect => [p.srcA, p.srcB, p.srcC]
  | .vBroadcast => []
  | _ => [p.srcA, p.srcB]

/-- The element operations. -/
def vecMap (op : VecOp) (p : VecopP) (x : Ctx) (s : State) : State :=
  let i := p.etype = 1
  let ys := (List.range p.count).map fun k =>
    vecElem op i p.scalar (s.vget x.c p.srcA k) (s.vget x.c p.srcB k) (s.vget x.c p.srcC k)
  let bad := (vecReads op p).any fun v => s.vbad x.c v p.count
  (s.vput x.c p.dst (ys.map (·.1)) bad).onDev (·.tally x ((ys.map (·.2)).foldl Tally.plus {}))

/-- The reductions. -/
def vecFold (op : VecOp) (p : VecopP) (x : Ctx) (s : State) : State :=
  let r := vecReduce op (p.etype = 1) (s.vregs x.c p.srcA p.count)
  (s.vput x.c p.dst [r.1] (s.vbad x.c p.srcA p.count)).onDev (·.tally x r.2)

/-- VECOP (R91). -/
def vecopRun (op : VecOp) (p : VecopP) (x : Ctx) (s : State) : State × Option (List Nat) :=
  let s := match op with
    | .vLoad => vecLoad p x s
    | .vStore => vecStore p x s
    | .vSumr | .vMaxr | .vMinr => vecFold op p x s
    | _ => vecMap op p x s
  (s.onDev (·.bump (Ctr.chVectorBusy x.c) (vecCycles op p)), none)

/-! ### ACTIVATE -/

/-- The functions of R92. -/
def actElem (f : ActFn) (p : ActP) (a : Nat) : Nat :=
  match f with
  | .relu => relu a
  | .clamp => Fp.clamp p.p0 p.p1 a
  | .sign => Fp.sign a
  | .gelu => gelu a
  | .silu => silu a
  | .sigmoid => sigmoid a
  | .tanh => Fp.tanh a
  | .exp => Fp.exp a
  | .recip => recip a
  | .rsqrt => rsqrt a

def actRate (f : ActFn) : Nat := match f with | .relu | .clamp | .sign => 128 | _ => 64

def activateRun (f : ActFn) (p : ActP) (x : Ctx) (s : State) : State × Option (List Nat) :=
  let ys := (s.vregs x.c p.src p.count).map fun a => fpElem (actElem f p a)
  let s := s.vput x.c p.dst (ys.map (·.1)) (s.vbad x.c p.src p.count)
  (s.onDev fun d => (d.tally x ((ys.map (·.2)).foldl Tally.plus {})).bump (Ctr.chVectorBusy x.c) (ceilDiv p.count (actRate f) + 12), none)

/-! ### CONVERT -/

/-- The source values of elements `from` to `from + n - 1`, how many were flushed, and their poison (R93). -/
def convertIn (p : ConvertP) (x : Ctx) (s : State) (from' n : Nat) : List Value × Nat × Bool :=
  if bit p.flags 0 then
    (((s.vregs x.c p.reg (from' + n)).drop from').map (unitValue p.fmtSrc), 0, s.vbad x.c p.reg (from' + n))
  else
    let w := fmtBits p.fmtSrc
    let ftz := s.dev.on (Reg.arithCtrlFtzFp8In x.c)
    let (bs, bad) := s.locRead x.c ((locOf x.c p.srcAddr).plus (from' * w / 8)) (ceilDiv (n * w) 8)
    let us := (unitsOf w bs).take n
    let vs := us.map (unitIn ftz p.fmtSrc)
    if p.fmtSrc = 5 then
      let (sc, bad') := s.locRead x.c ((locOf x.c p.srcScale).plus (from' / 32)) (ceilDiv n 32)
      (vs.mapIdx fun i v => scaleBy (sc.getD (i / 32) 0).toNat v, 0, bad || bad')
    else (vs, if ftz then us.countP (isFp8Subnormal p.fmtSrc) else 0, bad)

/-- PRE_SCALE: 1.0 multiplies nothing; any other value rounds once to FP32 (R93). -/
def preScale (k : Nat) (v : Value) : Value := if k = 0x3F800000 then v else f32 (to32 (mul v (f32 k)))

/-- CONVERT of one run of elements. -/
def convertPart (p : ConvertP) (x : Ctx) (s : State) (from' n : Nat) : State :=
  let (vs, flushed, bad) := convertIn p x s from' n
  let r := convertRun p.fmtDst (vs.map (preScale p.preScale))
  let s := if bit p.flags 1 then s.vput x.c p.reg r.1 bad
    else
      let w := fmtBits p.fmtDst
      let l := (locOf x.c p.dstAddr).plus (from' * w / 8)
      let s := s.locWrite x.c l (packUnits w r.1 (s.locRead x.c l (ceilDiv (r.1.length * w) 8)).1) bad
      if p.fmtDst = 5 then s.locWrite x.c ((locOf x.c p.dstScale).plus (from' / 32)) (r.2.1.map (BitVec.ofNat 8)) bad else s
  s.onDev (·.tally x (r.2.2.plus { ftz := flushed }))

/-- CONVERT (R93): work units of 4,096 elements, resuming at the first unconverted one. -/
def convertStep (p : ConvertP) (x : Ctx) (s : State) : State × Option (List Nat) :=
  let first := x.resume.headD 0
  let left := ceilDiv (p.count - first) 4096
  let units := unitsNow x.hdr 16 16 left
  let n := min (p.count - first) (units * 4096)
  let s := convertPart p x s first n
  (s.onDev (·.bump (Ctr.chVectorBusy x.c) (ceilDiv n 256 + 16)), if first + n < p.count then some [first + n] else none)

/-! ### The commands -/

def execMatmul (c : Nat) (h : Hdr) (p : MatmulP) (us : List Upset) (s : State) : Host.Outcome State Fault Refusal :=
  stepCmd c h (.matmul p) us (matmulRun us p) s

def execConvert (c : Nat) (h : Hdr) (p : ConvertP) (us : List Upset) (s : State) : Host.Outcome State Fault Refusal :=
  stepCmd c h (.convert p) us (convertStep p) s

def execVecopAdd (c : Nat) (h : Hdr) (p : VecopP) (us : List Upset) (s : State) : Host.Outcome State Fault Refusal :=
  stepCmd c h (.vecop .vAdd p) us (vecopRun .vAdd p) s

def execVecopSub (c : Nat) (h : Hdr) (p : VecopP) (us : List Upset) (s : State) : Host.Outcome State Fault Refusal :=
  stepCmd c h (.vecop .vSub p) us (vecopRun .vSub p) s

def execVecopMul (c : Nat) (h : Hdr) (p : VecopP) (us : List Upset) (s : State) : Host.Outcome State Fault Refusal :=
  stepCmd c h (.vecop .vMul p) us (vecopRun .vMul p) s

def execVecopFma (c : Nat) (h : Hdr) (p : VecopP) (us : List Upset) (s : State) : Host.Outcome State Fault Refusal :=
  stepCmd c h (.vecop .vFma p) us (vecopRun .vFma p) s

def execVecopFmas (c : Nat) (h : Hdr) (p : VecopP) (us : List Upset) (s : State) : Host.Outcome State Fault Refusal :=
  stepCmd c h (.vecop .vFmas p) us (vecopRun .vFmas p) s

def execVecopMax (c : Nat) (h : Hdr) (p : VecopP) (us : List Upset) (s : State) : Host.Outcome State Fault Refusal :=
  stepCmd c h (.vecop .vMax p) us (vecopRun .vMax p) s

def execVecopMin (c : Nat) (h : Hdr) (p : VecopP) (us : List Upset) (s : State) : Host.Outcome State Fault Refusal :=
  stepCmd c h (.vecop .vMin p) us (vecopRun .vMin p) s

def execVecopAbs (c : Nat) (h : Hdr) (p : VecopP) (us : List Upset) (s : State) : Host.Outcome State Fault Refusal :=
  stepCmd c h (.vecop .vAbs p) us (vecopRun .vAbs p) s

def execVecopNeg (c : Nat) (h : Hdr) (p : VecopP) (us : List Upset) (s : State) : Host.Outcome State Fault Refusal :=
  stepCmd c h (.vecop .vNeg p) us (vecopRun .vNeg p) s

def execVecopAnd (c : Nat) (h : Hdr) (p : VecopP) (us : List Upset) (s : State) : Host.Outcome State Fault Refusal :=
  stepCmd c h (.vecop .vAnd p) us (vecopRun .vAnd p) s

def execVecopOr (c : Nat) (h : Hdr) (p : VecopP) (us : List Upset) (s : State) : Host.Outcome State Fault Refusal :=
  stepCmd c h (.vecop .vOr p) us (vecopRun .vOr p) s

def execVecopXor (c : Nat) (h : Hdr) (p : VecopP) (us : List Upset) (s : State) : Host.Outcome State Fault Refusal :=
  stepCmd c h (.vecop .vXor p) us (vecopRun .vXor p) s

def execVecopShl (c : Nat) (h : Hdr) (p : VecopP) (us : List Upset) (s : State) : Host.Outcome State Fault Refusal :=
  stepCmd c h (.vecop .vShl p) us (vecopRun .vShl p) s

def execVecopShra (c : Nat) (h : Hdr) (p : VecopP) (us : List Upset) (s : State) : Host.Outcome State Fault Refusal :=
  stepCmd c h (.vecop .vShra p) us (vecopRun .vShra p) s

def execVecopSumr (c : Nat) (h : Hdr) (p : VecopP) (us : List Upset) (s : State) : Host.Outcome State Fault Refusal :=
  stepCmd c h (.vecop .vSumr p) us (vecopRun .vSumr p) s

def execVecopMaxr (c : Nat) (h : Hdr) (p : VecopP) (us : List Upset) (s : State) : Host.Outcome State Fault Refusal :=
  stepCmd c h (.vecop .vMaxr p) us (vecopRun .vMaxr p) s

def execVecopMinr (c : Nat) (h : Hdr) (p : VecopP) (us : List Upset) (s : State) : Host.Outcome State Fault Refusal :=
  stepCmd c h (.vecop .vMinr p) us (vecopRun .vMinr p) s

def execVecopLoad (c : Nat) (h : Hdr) (p : VecopP) (us : List Upset) (s : State) : Host.Outcome State Fault Refusal :=
  stepCmd c h (.vecop .vLoad p) us (vecopRun .vLoad p) s

def execVecopStore (c : Nat) (h : Hdr) (p : VecopP) (us : List Upset) (s : State) : Host.Outcome State Fault Refusal :=
  stepCmd c h (.vecop .vStore p) us (vecopRun .vStore p) s

def execVecopBroadcast (c : Nat) (h : Hdr) (p : VecopP) (us : List Upset) (s : State) : Host.Outcome State Fault Refusal :=
  stepCmd c h (.vecop .vBroadcast p) us (vecopRun .vBroadcast p) s

def execVecopCmpgt (c : Nat) (h : Hdr) (p : VecopP) (us : List Upset) (s : State) : Host.Outcome State Fault Refusal :=
  stepCmd c h (.vecop .vCmpgt p) us (vecopRun .vCmpgt p) s

def execVecopSelect (c : Nat) (h : Hdr) (p : VecopP) (us : List Upset) (s : State) : Host.Outcome State Fault Refusal :=
  stepCmd c h (.vecop .vSelect p) us (vecopRun .vSelect p) s

def execActivateRelu (c : Nat) (h : Hdr) (p : ActP) (us : List Upset) (s : State) : Host.Outcome State Fault Refusal :=
  stepCmd c h (.activate .relu p) us (activateRun .relu p) s

def execActivateClamp (c : Nat) (h : Hdr) (p : ActP) (us : List Upset) (s : State) : Host.Outcome State Fault Refusal :=
  stepCmd c h (.activate .clamp p) us (activateRun .clamp p) s

def execActivateSign (c : Nat) (h : Hdr) (p : ActP) (us : List Upset) (s : State) : Host.Outcome State Fault Refusal :=
  stepCmd c h (.activate .sign p) us (activateRun .sign p) s

def execActivateGelu (c : Nat) (h : Hdr) (p : ActP) (us : List Upset) (s : State) : Host.Outcome State Fault Refusal :=
  stepCmd c h (.activate .gelu p) us (activateRun .gelu p) s

def execActivateSilu (c : Nat) (h : Hdr) (p : ActP) (us : List Upset) (s : State) : Host.Outcome State Fault Refusal :=
  stepCmd c h (.activate .silu p) us (activateRun .silu p) s

def execActivateSigmoid (c : Nat) (h : Hdr) (p : ActP) (us : List Upset) (s : State) : Host.Outcome State Fault Refusal :=
  stepCmd c h (.activate .sigmoid p) us (activateRun .sigmoid p) s

def execActivateTanh (c : Nat) (h : Hdr) (p : ActP) (us : List Upset) (s : State) : Host.Outcome State Fault Refusal :=
  stepCmd c h (.activate .tanh p) us (activateRun .tanh p) s

def execActivateExp (c : Nat) (h : Hdr) (p : ActP) (us : List Upset) (s : State) : Host.Outcome State Fault Refusal :=
  stepCmd c h (.activate .exp p) us (activateRun .exp p) s

def execActivateRecip (c : Nat) (h : Hdr) (p : ActP) (us : List Upset) (s : State) : Host.Outcome State Fault Refusal :=
  stepCmd c h (.activate .recip p) us (activateRun .recip p) s

def execActivateRsqrt (c : Nat) (h : Hdr) (p : ActP) (us : List Upset) (s : State) : Host.Outcome State Fault Refusal :=
  stepCmd c h (.activate .rsqrt p) us (activateRun .rsqrt p) s

end Sys2Proof.Machine
end

