-- ==== Sys2Proof/Machine/Lookup.lean ====
section
/-! DEFINITION. The lookup-distance engine: quantisers, integer tables, the LUT store and its directory, and the
LOOKUP steps (05_lookup_distance_engine.md R124 to R138). -/

namespace Sys2Proof.Machine

open Sys2Proof.Fp Sys2Proof.Crypto

/-! ### Formats and the directory -/

/-- Values a unit of a code takes (R124). -/
def codeV (fmt : Nat) : Nat := if fmt = 0xA || fmt = 0xC then 16 else 256
def unitBits (fmt : Nat) : Nat := if fmt = 0xA || fmt = 0xC then 4 else 8
def isPq (fmt : Nat) : Bool := fmt = 0xA || fmt = 0xB

/-- Bytes of a code of `t` units (R77). -/
def codeLen (fmt t : Nat) : Nat := ceilDiv (t * unitBits fmt) 8

/-- Pages of a table (R130). -/
def tablePages (t v width : Nat) : Nat := ceilDiv (t * v * width / 8) 4096

def lutKey (c tid : Nat) : Nat := c * 64 + tid

namespace Dev

/-- The directory entry of a valid table. -/
def table (d : Dev) (c tid : Nat) : Option LutEntry := (d.lutDir.find? fun e => e.1 = lutKey c tid).map (·.2)

/-- LDE_TABLES follows the directory (R147). -/
def showTables (d : Dev) (c : Nat) : Dev :=
  d.put (Reg.ldeTables c) (((List.range 64).map fun t => boolNat (d.table c t).isSome * 2 ^ t).sum)

/-- Clears the entry of a TID. -/
def dropTable (d : Dev) (c tid : Nat) : Dev :=
  ({ d with lutDir := d.lutDir.filter fun e => e.1 != lutKey c tid }).showTables c

/-- Sets an entry; other valid tables in its pages lose VALID (R130). -/
def setTable (d : Dev) (c tid : Nat) (e : LutEntry) : Dev :=
  let keep := d.lutDir.filter fun (k, o) => k != lutKey c tid && !(k / 64 = c && decide (o.first < e.first + e.pages) && decide (e.first < o.first + o.pages))
  ({ d with lutDir := assocPut (lutKey c tid) e keep }).showTables c

end Dev

/-- The key of a chamber's LUT store byte (R130). -/
def lutAddr (c off : Nat) : Nat := c * 2 ^ 18 + off

/-- Writes a table's entries and its directory entry. -/
def State.putTable (s : State) (c tid : Nat) (e : LutEntry) (bs : List Byte) (poison : Bool) : State :=
  ({ s with mem := s.mem.store .lut (lutAddr c (e.first * 4096)) bs poison }).onDev (·.setTable c tid e)

/-! ### Scores -/

/-- What looking up one code gives: the sum S, the words that failed parity, in the order met, and whether poison was read. -/
structure Looked where
  sum : Nat
  badWords : List Nat
  poison : Bool
  deriving DecidableEq, Repr

/-- Looks up a code, one entry per unit (R128, R145); `bad` lists the words with a parity error. -/
def lookCode (s : State) (c : Nat) (e : LutEntry) (bad : List Nat) (code : List Byte) : Looked :=
  let us := (unitsOf (unitBits e.fmt) code).take e.t
  (us.zip (List.range us.length)).foldl (fun r (x, u) =>
    let off := e.first * 4096 + (u * e.v + x) * e.width / 8
    let n := leNat (s.mem.read .lut (lutAddr c off) (e.width / 8))
    { sum := r.sum + n, badWords := r.badWords ++ (bad.filter (· = off / 4)).take 1,
      poison := r.poison || s.mem.isPoisoned .lut (lutAddr c off) (e.width / 8) }) ⟨0, [], false⟩

/-- The score of a sum (R128, R129). -/
def scoreOf (e : LutEntry) (sum : Nat) : Nat :=
  if e.nonfinite then nan32 else ffma (to32 (ofInt sum)) e.delta e.zsum

/-- A parity error met by a lookup (R145, R147, R148); the table is to be rewritten at the next cairn (R447). -/
def Dev.lutParity (d : Dev) (c tid word : Nat) : Dev :=
  let page := word / 1024
  let d := { d with seq := { d.seq with lutDue := d.seq.lutDue ++ [(c, tid)] } }
  ((((d.raise .lookupLutParity (Dev.srcGallery c) [(1, c), (2, tid), (2, page)] true).bump (Ctr.chLutParity c)).putFlag
    (Reg.ldeStatusParity c) true).put (Reg.ldeErrTid c) tid).put (Reg.ldeErrPage c) page

/-- The parity errors of one code, one after another: each counts, and LDE_ERR keeps the last (R147, R148). -/
def Dev.lutParities (d : Dev) (c tid : Nat) (words : List Nat) : Dev := words.foldl (fun d w => d.lutParity c tid w) d

/-- A 16-byte result record (R153). -/
def recordOf (id score flags aux : Nat) : List Byte := leBytes 8 id ++ leBytes 4 score ++ leBytes 2 flags ++ leBytes 2 aux

/-- LOOKUP_NO_TABLE (R136, R137, R145); `entry` is 0xFFFF for SCORE and SAVE (R149). The step is abandoned. -/
def Dev.noTable (d : Dev) (x : Ctx) (entry tid : Nat) : Dev :=
  ((d.raise .lookupNoTable x.src [(1, x.c), (2, x.hdr.index), (2, entry), (2, tid)] true).putFlag (Reg.ldeStatusNoTable x.c) true).abandon x

/-! ### Reading operands whose range is known only at run time -/

/-- A read with the fault of R94 and R232 when it passes the end of its space. -/
def State.locUse (s : State) (x : Ctx) (l : Loc) (n : Nat) : State × List Byte × Bool :=
  if n = 0 then (s, [], false) else (s.locCheck x.c l n x.hdr.index, s.locRead x.c l n)

/-- A device read of the same kind. -/
def State.devUse (s : State) (x : Ctx) (a n : Nat) : State × List Byte × Bool := s.locUse x (.dev a) n

def words32 (bs : List Byte) : List Nat := (chunks 4 bs).map leNat

/-! ### Quantisers -/

/-- A quantiser descriptor (R125). -/
structure Quant where
  fmt : Nat
  d : Nat
  m : Nat
  norms : Bool
  codebook : Nat
  normAddr : Nat
  scaleAddr : Nat
  quantId : Nat
  deriving DecidableEq, Repr

def Quant.t (q : Quant) : Nat := if isPq q.fmt then q.m else q.d
def Quant.v (q : Quant) : Nat := codeV q.fmt

def quantParse (b : List Byte) : Quant :=
  { fmt := fieldAt b 4 1 % 16, d := fieldAt b 6 2, m := fieldAt b 8 2, norms := bit (fieldAt b 5 1) 0,
    codebook := fieldAt b 12 4, normAddr := fieldAt b 16 4, scaleAddr := fieldAt b 20 4, quantId := fieldAt b 24 8 }

/-- The first field that fails R125, in the order of R135: CHECK, MAGIC, then ascending offsets. -/
def quantField (addr : Nat) (b : List Byte) : Option Nat :=
  let q := quantParse b
  let pq := isPq q.fmt
  let tests : List (Nat × Bool) := ([
    (0x3C, fieldAt b 60 4 = check32c addr (b.take 60)),
    (0x00, fieldAt b 0 4 = 0x5A514431),
    (0x04, isCodeFmt (fieldAt b 4 1)),
    (0x05, decide (fieldAt b 5 1 < 2)),
    (0x06, between 8 q.d 4096 && q.d % 8 = 0),
    (0x08, if pq then between 1 q.m 1024 && q.d % q.m = 0 && (q.fmt != 0xA || q.m % 2 = 0) else q.m = 0),
    (0x0A, fieldAt b 10 1 = 0), (0x0B, fieldAt b 11 1 = 0),
    (0x0C, if pq then q.codebook % 64 = 0 else q.codebook = 0),
    (0x10, q.norms || q.normAddr = 0)] : List (Nat × Bool)) ++ (List.range 28).map fun i => (32 + i, decide (fieldAt b (32 + i) 1 = 0))
  (tests.find? fun t => !t.2).map (·.1)

/-- The four tests that follow in R135, with the field codes of its last paragraph. -/
def quantTest (q : Quant) (p : BuildP) (scales : List Nat) : Option Nat :=
  if isPq q.fmt && p.metric = 3 then some 0x40
  else if isPq q.fmt && p.metric = 1 && !q.norms then some 0x41
  else if !scales.all finiteNonzero then some 0x42
  else if 64 < p.pageFirst + p.ntables * tablePages q.t q.v p.width then some 0x43
  else none

/-! ### Tables -/

/-- Quotient of two FP32 values, rounded once; infinite or NaN where an operand is. -/
def fdiv (a b : Nat) : Nat :=
  match f32 a, f32 b with
  | .nan, _ => nan32
  | _, .nan => nan32
  | .inf n, y => if n == y.isNeg then inf32 else signed32 true inf32
  | _, .inf _ => 0
  | .fin n m e, .fin n' m' e' =>
    if m' = 0 then nan32 else
    let x := dyadic m e
    let y := dyadic m' e'
    (encodeRat fp32 (n != n') (x.1 * y.2) (x.2 * y.1)).bits

def isFinite32 (b : Nat) : Bool := match f32 b with | .fin _ _ _ => true | _ => false

def toBf16 (x : Value) : Value := decode bf16 (encode bf16 x).bits

/-- dot_m[c] of R126: BF16 operands on the matrix unit, once for QPREC 1 and for both halves of a for QPREC 2. -/
def pqDot (qprec : Nat) (a : List Nat) (w : List Value) : Nat :=
  let hi := a.map fun x => toBf16 (f32 x)
  let ones := List.replicate a.length 127
  let dot (xs : List Value) : Nat := floatDot 0 xs w ones ones false
  if qprec = 2 then fadd (dot hi) (dot ((a.zip hi).map fun (x, h) => toBf16 (sub (f32 x) h))) else dot hi

/-- h_u of R126: the nearest integer by the conversion of R82, 0 for NaN, clamped to 0 to V - 1. -/
def hammingUnit (v b : Nat) : Nat := (clampInt 0 (v - 1 : Nat) (toSigned 32 (toIntFmt 32 (f32 b)).1)).toNat

/-- What the conversions of a Hamming vector count (R82, R99). -/
def hammingTally (vec : List Nat) : Tally := (vec.map fun b => (toIntFmt 32 (f32 b)).2).foldl Tally.plus {}

def popcount (w n : Nat) : Nat := ((List.range w).map fun i => bits n i 1).sum

/-- The FP32 entries e_u[c] of R126 for every metric but Hamming, sub-table by sub-table. -/
def fpEntries (q : Quant) (p : BuildP) (vec scales : List Nat) (book : List Value) (norms : List Nat) : List (List Nat) :=
  let a := (vec.zip scales).map fun (v, sc) => fmul sc v
  if isPq q.fmt then
    let k := q.d / q.m
    (List.range q.m).map fun m =>
      let av := (a.drop (m * k)).take k
      let vv := (vec.drop (m * k)).take k
      (List.range q.v).map fun c =>
        let dot := pqDot p.qprec av ((book.drop ((m * q.v + c) * k)).take k)
        if p.metric = 1 then
          let pu := treeSum (vv.map fun x => fmul x x)
          to32 (f32 (fadd (ffma (to32 (ofInt (-2))) dot pu) (norms.getD (m * q.v + c) 0))).neg
        else dot
  else
    (List.range q.d).map fun u =>
      (List.range q.v).map fun c =>
        let dec := to32 (ofInt (toSigned (unitBits q.fmt) c))
        if p.metric = 1 then
          let d := fsub (vec.getD u 0) (fmul (scales.getD u 0) dec)
          to32 (f32 (fmul d d)).neg
        else fmul (a.getD u 0) dec

/-- quantise_table of R127: the entries, Δ, zsum and NONFINITE, whose entries are zero (R129). -/
def quantiseTable (e : List (List Nat)) (qmax : Nat) : List Nat × Nat × Nat × Bool :=
  let z := e.map fun row => row.foldl fmin (row.headD 0)
  let tops := e.map fun row => row.foldl fmax (row.headD 0)
  let rs := (tops.zip z).map fun (a, b) => fsub a b
  let r := rs.foldl fmax (rs.headD 0)
  let d0 := if (f32 r).isZero then one32 else fdiv r (to32 (ofInt qmax))
  let delta := if (f32 d0).isZero then one32 else d0
  let zsum := treeSum z
  let ok := (z ++ [r, delta, zsum]).all isFinite32 && e.all (·.all isFinite32)
  let t := (e.zip z).flatMap fun (row, zu) => row.map fun x =>
    if ok then (match f32 (fdiv (fsub x zu) delta) with
      | .fin n m k => (clampInt 0 qmax (toInt n m k)).toNat
      | .inf n => if n then 0 else qmax
      | .nan => 0) else 0
  (t, delta, zsum, !ok)

/-- The exact table of R127 for Hamming. -/
def hammingTable (q : Quant) (vec : List Nat) : List Nat × Nat × Nat × Bool :=
  let b := unitBits q.fmt
  let t := (List.range q.d).flatMap fun u =>
    let h := hammingUnit q.v (vec.getD u 0)
    (List.range q.v).map fun c => b - popcount b (h ^^^ c)
  (t, one32, treeSum (List.replicate q.d (to32 (ofInt (-(b : Int))))), false)

/-- Cycles of a BUILD: the product phase, and the whole (R138). -/
def buildCycles (q : Quant) (p : BuildP) : Nat × Nat :=
  if isPq q.fmt then
    let prod := max (ceilDiv (p.ntables * p.qprec * q.v * q.d) 2048) (ceilDiv (q.v * q.d * 2) 512)
    (prod, prod + 2 * ceilDiv (p.ntables * q.t * q.v) 256 + 32)
  else (0, 3 * ceilDiv (p.ntables * q.d * q.v) 256 + 32)

/-! ### The steps -/

/-- One table of a BUILD into the LUT store (R127, R129, R130). -/
def buildTable (q : Quant) (p : BuildP) (x : Ctx) (vec scales : List Nat) (book : List Value) (norms : List Nat) (poison : Bool)
    (s : State) (i : Nat) : State :=
  let r := if p.metric = 3 then hammingTable q vec
    else quantiseTable (fpEntries q p vec scales book norms) (if p.width = 8 then 255 else 65535)
  let pages := tablePages q.t q.v p.width
  let e : LutEntry := { first := p.pageFirst + i * pages, pages, fmt := q.fmt, metric := p.metric, width := p.width, t := q.t, v := q.v,
                        delta := r.2.1, zsum := r.2.2.1, nonfinite := r.2.2.2, quantId := q.quantId }
  let s := s.putTable x.c (p.tidFirst + i) e (r.1.flatMap (leBytes (p.width / 8))) poison
  s.onDev fun d =>
    let d := (if p.metric = 3 then d.tally x (hammingTally (vec.take q.d)) else d).bump (Ctr.chTablesBuilt x.c)
    if r.2.2.2 then
      let d := (d.bump (Ctr.chTableNonfinite x.c)).putFlag (Reg.ldeStatusNonfinite x.c) true
      if d.on (Reg.ldeCtrlNonfiniteFault x.c) then
        d.raise .lookupNonfinite x.src [(1, x.c), (2, x.hdr.index), (2, p.tidFirst + i)] else d
    else d

/-- LOOKUP BUILD (R135). -/
def buildRun (p : BuildP) (x : Ctx) (s : State) : State × Option (List Nat) :=
  let addr := columnBase x.c + p.quantAddr
  let (s, b, bad0) := s.devUse x addr 64
  let q := quantParse b
  let field := quantField addr b
  let (s, scaleBs, bad1) := if field.isSome then (s, [], false) else s.devUse x (columnBase x.c + q.scaleAddr) (4 * q.d)
  let scales := words32 scaleBs
  match field.or (quantTest q p scales) with
  | some f =>
    (s.onDev fun d => (((List.range p.ntables).foldl (fun d i => d.dropTable x.c (p.tidFirst + i)) d).raise .lookupBadQuant x.src
      [(1, x.c), (2, x.hdr.index), (4, p.quantAddr), (1, f)]), none)
  | none =>
    let pq := isPq q.fmt
    let (s, bookBs, bad2) := if pq then s.devUse x (columnBase x.c + q.codebook) (q.v * q.d * 2) else (s, [], false)
    let (s, normBs, bad3) := if pq && p.metric = 1 then s.devUse x (columnBase x.c + q.normAddr) (4 * q.m * q.v) else (s, [], false)
    let (s, vecBs, bad4) := s.locUse x (.store p.vecAddr) (4 * q.d * p.ntables)
    let book := ((chunks 2 bookBs).map leNat).map (decode bf16)
    let poison := bad0 || bad1 || bad2 || bad3 || bad4
    let vecs := words32 vecBs
    let s := (List.range p.ntables).foldl (fun s i =>
      buildTable q p x ((vecs.drop (i * q.d)).take q.d) scales book (words32 normBs) poison s i) s
    (s.onDev fun d =>
      let d := (d.put (Reg.ldeScalesId x.c) q.quantId).bump (Ctr.chMatrixBusy x.c) (buildCycles q p).1
      if pq then d.meter x.hdr 2 (p.ntables * p.qprec * q.v * q.d) else d, none)

/-- One record of a SCORE (R136, R145). -/
def scoreOne (p : ScoreP) (e : LutEntry) (bad : List Nat) (x : Ctx) (codes ids : List Byte) (pc pi : Bool) (s : State) (i : Nat) : State :=
  let cl := codeLen e.fmt e.t
  let r := lookCode s x.c e bad ((codes.drop (i * cl)).take cl)
  let poison := r.poison || r.badWords != []
    || (pc && (s.locRead x.c ((locOf x.c p.codeAddr).plus (i * cl)) cl).2) || (pi && (s.locRead x.c ((locOf x.c p.idAddr).plus (8 * i)) 8).2)
  let s := if r.badWords = [] then s else s.onDev (·.lutParities x.c p.tid r.badWords)
  s.locWrite x.c (.store (p.outAddr + 16 * i)) (recordOf (fieldAt ids (8 * i) 8) (scoreOf e r.sum) 0 p.aux) poison

/-- The words of the LUT store that fail parity in this step. -/
def badWords (us : List Upset) : List Nat := us.filterMap fun u => match u with | .lutBad w => some w | _ => none

/-- LOOKUP SCORE (R136). -/
def scoreRun (us : List Upset) (p : ScoreP) (x : Ctx) (s : State) : State × Option (List Nat) :=
  match s.dev.table x.c p.tid with
  | none => (s.onDev (·.noTable x 0xFFFF p.tid), none)
  | some e =>
    let (s, codes, pc) := s.locUse x (locOf x.c p.codeAddr) (p.count * codeLen e.fmt e.t)
    let (s, ids, pi) := s.locUse x (locOf x.c p.idAddr) (8 * p.count)
    let s := (List.range p.count).foldl (scoreOne p e (badWords us) x codes ids pc pi) s
    (s.onDev fun d => ((d.bump (Ctr.chLookups x.c) (p.count * e.t)).bump (Ctr.chRecordsOut x.c) p.count).meter x.hdr 1 (p.count * e.t), none)

/-- Bytes 0 to 59 of a table image's header (R137). -/
def imageHead (e : LutEntry) : List Byte :=
  leBytes 4 0x5A544231 ++ leBytes 1 e.fmt ++ leBytes 1 e.metric ++ leBytes 1 e.width ++ leBytes 1 (boolNat e.nonfinite)
    ++ leBytes 2 e.t ++ leBytes 2 e.v ++ leBytes 2 e.pages ++ leBytes 2 0 ++ leBytes 4 e.delta ++ leBytes 4 e.zsum
    ++ leBytes 8 e.quantId ++ List.replicate 28 0

def LutEntry.bytes (e : LutEntry) : Nat := e.t * e.v * e.width / 8

/-- LOOKUP SAVE (R137). -/
def saveRun (us : List Upset) (p : SaveP) (x : Ctx) (s : State) : State × Option (List Nat) :=
  match s.dev.table x.c p.tid with
  | none => (s.onDev (·.noTable x 0xFFFF p.tid), none)
  | some e =>
    let entries := s.mem.read .lut (lutAddr x.c (e.first * 4096)) e.bytes
    let hit := (badWords us).filter fun w => decide (e.first * 1024 ≤ w) && decide (w < e.first * 1024 + ceilDiv e.bytes 4)
    let poison := hit != [] || s.mem.isPoisoned .lut (lutAddr x.c (e.first * 4096)) e.bytes
    let head := imageHead e
    let a := columnBase x.c + p.imgAddr
    let s := s.onDev (·.lutParities x.c p.tid hit)
    let s := s.locCheck x.c (.dev a) (64 + e.bytes) x.hdr.index
    (s.devWrite a (head ++ leBytes 4 (check32c a (head ++ entries)) ++ entries) poison, none)

/-- The entry an image's header describes, when its magic, ranges and fit hold (R137). -/
def imageEntry (b : List Byte) (pageFirst : Nat) : Option LutEntry :=
  let e : LutEntry := { first := pageFirst, pages := fieldAt b 12 2, fmt := fieldAt b 4 1, metric := fieldAt b 5 1, width := fieldAt b 6 1,
                        t := fieldAt b 8 2, v := fieldAt b 10 2, delta := fieldAt b 16 4, zsum := fieldAt b 20 4,
                        nonfinite := fieldAt b 7 1 = 1, quantId := fieldAt b 24 8 }
  if fieldAt b 0 4 = 0x5A544231 && isCodeFmt e.fmt && decide (e.metric ≤ 3) && (e.width = 8 || e.width = 16)
      && decide (fieldAt b 7 1 < 2) && between 1 e.t 4096 && e.v = codeV e.fmt && e.pages = tablePages e.t e.v e.width
      && fieldAt b 14 2 = 0 && (b.drop 32).take 28 = List.replicate 28 0 && decide (pageFirst + e.pages ≤ 64) then some e else none

/-- LOOKUP LOAD (R137). -/
def loadRun (p : LoadP) (x : Ctx) (s : State) : State × Option (List Nat) :=
  let a := columnBase x.c + p.imgAddr
  let (s, head, bad) := s.devUse x a 64
  let fail (s : State) : State × Option (List Nat) :=
    (s.onDev fun d => (d.dropTable x.c p.tid).raise .lookupImageCheck x.src [(1, x.c), (2, x.hdr.index), (4, p.imgAddr)], none)
  match imageEntry head p.pageFirst with
  | none => fail s
  | some e =>
    let (s, entries, bad') := s.devUse x (a + 64) e.bytes
    if fieldAt head 60 4 = check32c a (head.take 60 ++ entries) then
      ((s.putTable x.c p.tid e entries (bad || bad')).onDev (·.bump (Ctr.chTableLoads x.c)), none)
    else fail s

/-! ### The commands -/

def execLookupBuild (c : Nat) (h : Hdr) (p : BuildP) (us : List Upset) (s : State) : Host.Outcome State Fault Refusal :=
  stepCmd c h (.build p) us (buildRun p) s

def execLookupScore (c : Nat) (h : Hdr) (p : ScoreP) (us : List Upset) (s : State) : Host.Outcome State Fault Refusal :=
  stepCmd c h (.score p) us (scoreRun us p) s

def execLookupSave (c : Nat) (h : Hdr) (p : SaveP) (us : List Upset) (s : State) : Host.Outcome State Fault Refusal :=
  stepCmd c h (.save p) us (saveRun us p) s

def execLookupLoad (c : Nat) (h : Hdr) (p : LoadP) (us : List Upset) (s : State) : Host.Outcome State Fault Refusal :=
  stepCmd c h (.load p) us (loadRun p) s

end Sys2Proof.Machine
end

