-- ==== Sys2Proof/Machine/Plan.lean ====
section
/-! DEFINITION. The plan banks: their headers in the header windows (02_epochs_and_plans.md R41), their slot indices and
descriptors in the strata columns (R40). -/

namespace Sys2Proof.Machine

/-- The bytes of a bank's header window (R41). -/
def State.hdrBytes (s : State) (bank : Nat) : List Byte := s.mem.read .hdr (bank * 512) 512

/-- A header field of `n` bytes at `off`. -/
def State.hdrField (s : State) (bank off n : Nat) : Nat := leNat (s.mem.read .hdr (bank * 512 + off) n)

def Dev.activeBank (d : Dev) : Nat := d.rd Reg.plnCtrlActiveBank
def Dev.idleBank (d : Dev) : Nat := 1 - d.activeBank

/-- Fields of the active plan's header. -/
def State.planStages (s : State) : Nat := s.hdrField s.dev.activeBank 7 1
def State.slotCount (s : State) : Nat := s.hdrField s.dev.activeBank 8 2
def State.rsvFirst (s : State) : Nat := s.hdrField s.dev.activeBank 10 2
def State.rsvCount (s : State) : Nat := s.hdrField s.dev.activeBank 12 2
def State.cutoffSlot (s : State) : Nat := s.hdrField s.dev.activeBank 14 2
def State.ingressCap (s : State) : Nat := s.hdrField s.dev.activeBank 16 4
def State.planRole (s : State) : Nat := s.hdrField s.dev.activeBank 6 1
def State.planMinOpp (s : State) : Nat := s.hdrField s.dev.activeBank 20 1
def State.planId (s : State) : Nat := s.hdrField s.dev.activeBank 24 8

/-- Has a chamber a section in a bank's plan (R41)? -/
def State.masked (s : State) (bank c : Nat) : Bool := bit (s.hdrField bank 32 32) c

/-- The base of a chamber's area of a bank (R40). -/
def bankBase (bank c : Nat) : Nat := columnBase c + 0x3F00000 + bank * 0x80000

/-- Entry `m` of a slot index (R40). -/
def State.slotEntry (s : State) (bank c m : Nat) : Nat := s.devNat (bankBase bank c + 2 * m) 2

/-- The 64 bytes of descriptor `i`, with their poison (R40). -/
def State.descrBytes (s : State) (bank c i : Nat) : List Byte × Bool := s.devRead (bankBase bank c + 0x400 + 64 * i) 64

/-- The group of slot `m`: its first descriptor and the end of the group (R40). -/
def State.slotGroup (s : State) (bank c m : Nat) : Nat × Nat :=
  let f := s.slotEntry bank c m
  if f = 0xFFFF then (0, 0) else
    let later := ((List.range 495).drop (m + 1)).map (s.slotEntry bank c)
    (f, (later.find? (· != 0xFFFF)).getD (s.slotEntry bank c 495))

/-- The addresses that a step of chamber `c` names, with their tiers: device addresses of the strata and the stacks, and logical blocks (R47, R231). -/
def namedBy (c : Nat) : Params → List (Nat × Nat) :=
  let col (off : Nat) : Nat × Nat := (0, columnBase c + off)
  let own (as : List Nat) : List (Nat × Nat) := (as.filter (bit · 31)).map fun a => col (bits a 0 26)
  let dev (a : Nat) : Nat × Nat := (if a < 0x1000000000 then 0 else 1, a)
  let row (st r : Nat) : Nat × Nat := (1, 0x1000000000 + st * 0xC00000000 + r * 0x100000)
  fun
  | .scan p => [col p.probeAddr]
  | .build p => [col p.quantAddr]
  | .score p => own [p.codeAddr, p.idAddr, p.outAddr]
  | .save p => [col p.imgAddr]
  | .load p => [col p.imgAddr]
  | .matmul p => own [p.aAddr, p.bAddr, p.aScale, p.bScale]
  | .vecop _ p => own [p.addr]
  | .activate _ _ => []
  | .convert p => own [p.srcAddr, p.dstAddr, p.srcScale, p.dstScale]
  | .selectRecords p => own [p.inAddr, p.outAddr]
  | .selectRuns p => col p.probeAddr :: own [p.inAddr, p.outAddr]
  | .merge p => own [p.outAddr]
  | .gather _ p => [col p.boxAddr, col p.snapAddr] ++ own [p.idxAddr, p.outAddr, p.refAddr, p.statusAddr]
  | .scatter p => own [p.idxAddr, p.srcAddr, p.ordAddr]
  | .send p => own [p.srcAddr]
  | .recv p => own [p.dstAddr]
  | .pimRun p => col p.progAddr :: [p.row0, p.row1, p.row2, p.row3].map (row p.stack)
  | .pimSeal p => [row p.stack p.rowFirst]
  | .flashRead p => own [p.listAddr, p.dstAddr, p.statusAddr]
  | .flashWrite p => (2, p.lbn) :: own [p.srcAddr]
  | .checkRange p => dev p.addr :: own [p.expectAddr, p.resultAddr]
  | .checkTapval p => own [p.expectAddr, p.resultAddr]
  | .checkWeight p => dev p.addr :: own [p.resultAddr]
  | .note _ => []
  | .sump _ => []

/-- The steps of a chamber in a bank's plan, in INDEX order. -/
def State.planSteps (s : State) (bank c : Nat) : List Step :=
  if s.masked bank c then (List.range (s.slotEntry bank c 495)).filterMap fun i => parseStep (s.descrBytes bank c i).1 else []

/-- Does the active plan name an address of a tier's range (R240)? -/
def State.planNames (s : State) (tier first n : Nat) : Bool :=
  (List.range 256).any fun c => (s.planSteps s.dev.activeBank c).any fun st => (namedBy c st.params).any fun (t, a) =>
    t = tier && decide (first ≤ a) && decide (a < first + n)

end Sys2Proof.Machine
end

