-- ==== Sys2Proof/Machine/Cvu.lean ====
section
/-! DEFINITION. The check-value units, the CHECK steps and weight blocks (12_check_value_units.md R320 to R328,
04_models_and_low_rank_weights.md R114 to R121). -/

namespace Sys2Proof.Machine

open Sys2Proof.Crypto

/-! ### Taps (R320, R321) -/

namespace Dev

/-- Is the unit attached to a tap: enabled, in effect, and not disabled by its self-test (R322, R327)? -/
def cvuOn (d : Dev) (u tap : Nat) : Bool :=
  d.on (Reg.cvuCfgEnable u) && d.val (Reg.cvuCfgTap u) = tap && !bit (d.rd Reg.cvuSelftestFail) u

/-- What a unit computes for a transfer. -/
def cvuValue (d : Dev) (u a : Nat) (bs : List Byte) : Nat :=
  let p := d.val (Reg.cvuCfgPoly u)
  match d.cvu.faulty.find? (·.1 = u) with
  | some (_, v) => v % 2 ^ (crcOf p).width
  | none => check (crcOf p) a bs

/-- The units attached to a tap. -/
def cvuUnits (d : Dev) (tap : Nat) : List Nat := (List.range 16).filter (d.cvuOn · tap)

/-- A transfer passes a tap: every attached unit takes it; units that share a POLY and disagree raise CVU_DISAGREE. -/
def tapPass (d : Dev) (tap a : Nat) (bs : List Byte) (poison : Bool) : Dev :=
  let got := (d.cvuUnits tap).map fun u => (u, d.val (Reg.cvuCfgPoly u), d.cvuValue u a bs)
  let odd (p : Nat) : Bool := ((got.filter (·.2.1 = p)).map (·.2.2)).eraseDups.length != 1
  let d := got.foldl (fun d (u, p, v) =>
    let mine := d.cvu.taps.filter (·.unit = u)
    let keep := match mine with
      | old :: _ => if mine.length < 64 then d.cvu.taps else d.cvu.taps.erase old
      | [] => d.cvu.taps
    let e : TapEntry := { unit := u, tap, poly := p, tag := a, value := v, poison, disagree := odd p }
    let d := { d with cvu := { d.cvu with taps := keep ++ [e] } }
    let d := ((d.put (Reg.cvuLast u) v).bump (Ctr.cvuTransfers u)).bump (Ctr.cvuBytes u) bs.length
    if poison then d.bump (Ctr.cvuPoisoned u) else d) d
  let bad := (got.filter fun g => odd g.2.1).map (·.1)
  let d := { d with cvu := { d.cvu with faulty := d.cvu.faulty.filter fun f => !got.any (·.1 = f.1) } }
  if bad = [] then d else
    let d := (d.raise .cvuDisagree srcLantern [(1, tap), (1, bad.headD 0), (1, bad.getD 1 0), (8, a)] false).putFlag Reg.cvuStatusDisagree true
    if d.repeatedNow .cvuDisagree srcLantern tap then
      { d with cvu := { d.cvu with swapDue := d.cvu.swapDue ++ [(bad.headD 0, bad.getD 1 (bad.headD 0), tap)] } }
    else d

/-- The comparison of a transfer with the value it carries (taps 0 and 4): the lowest-numbered unit of POLY `p` decides,
and disagreeing units make it a mismatch. A tap without such a unit compares nothing. -/
def tapMatch (d : Dev) (tap a p : Nat) (bs : List Byte) (want : Nat) : Dev × Bool :=
  let us := (d.cvuUnits tap).filter fun u => d.val (Reg.cvuCfgPoly u) = p
  let vs := us.map fun u => (u, d.cvuValue u a bs)
  let ok := vs.all fun (_, v) => v = want
  let d := (vs.filter fun (_, v) => v != want).foldl (fun d (u, _) => d.bump (Ctr.cvuMismatches u)) d
  (d, ok)

/-- The entry a CHECK reads: the newest with that TAG in the lowest-numbered enabled unit of the TAP and POLY;
`none` where there is no such unit. -/
def tapEntry (d : Dev) (tap poly tag : Nat) : Option (Option TapEntry) :=
  ((d.cvuUnits tap).find? fun u => d.val (Reg.cvuCfgPoly u) = poly).map fun u =>
    d.cvu.taps.reverse.find? fun e => e.unit = u && e.tag = tag

end Dev

/-! ### CHECK (R323 to R325) -/

def ckMatch : Nat := 0
def ckMismatch : Nat := 1
def ckPoison : Nat := 2
def ckNoTag : Nat := 3
def ckNoUnit : Nat := 4

namespace State

/-- Writes a CHECK's result, without poison, and counts it. -/
def checkResult (s : State) (c resultAddr value status reason : Nat) : State :=
  let bs := leBytes 8 value ++ leBytes 1 status ++ leBytes 1 reason ++ List.replicate 6 0
  (s.locWrite c (locOf c resultAddr) bs).onDev fun d =>
    let d := d.bump Ctr.cvuCheckSteps
    if status = ckMatch then d else d.bump Ctr.cvuCheckFails

/-- The expected value in memory: as many bytes as the algorithm's width, and its poison. -/
def expected (s : State) (c addr poly : Nat) : Nat × Bool :=
  let (b, bad) := s.locRead c (locOf c addr) ((crcOf poly).width / 8)
  (leNat b, bad)

end State

/-- The first status that applies of NO_UNIT, NO_TAG, POISON, MISMATCH and MATCH. -/
def checkStatus (tap : Option (Option (Option TapEntry))) (poison : Bool) (same : Bool) : Nat :=
  match tap with
  | some none => ckNoUnit
  | some (some none) => ckNoTag
  | some (some (some e)) => if poison || e.poison then ckPoison else if same && !e.disagree then ckMatch else ckMismatch
  | none => if poison then ckPoison else if same then ckMatch else ckMismatch

/-- CHECK RANGE: work units of 65,536 bytes; a continuation carries the bytes done, the register and the poison seen. -/
def checkRangeRun (p : CheckRangeP) (x : Ctx) (s : State) : State × Option (List Nat) :=
  let crc := crcOf p.poly
  let start := x.resume.getD 0 0
  let reg := x.resume.getD 1 (crcStart crc p.addr)
  let units := ceilDiv (p.length - start) 65536
  let n := min (p.length - start) (unitsNow x.hdr 32 256 units * 65536)
  let (bs, bad) := s.devRead (p.addr + start) n
  let reg := crcRun crc reg bs
  let bad := bad || x.resume.getD 2 0 != 0
  if start + n < p.length then (s, some [start + n, reg, boolNat bad])
  else
    let value := crcEnd crc reg
    if p.fromTap = 1 then
      let e := s.dev.tapEntry p.tap p.poly p.addr
      (s.checkResult x.c p.resultAddr value (checkStatus (some e) bad ((e.join).any (·.value = value))) 0, none)
    else
      let (want, wb) := s.expected x.c p.expectAddr p.poly
      (s.checkResult x.c p.resultAddr value (checkStatus none (bad || wb) (value = want)) 0, none)

/-- CHECK TAPVAL: no data is read; without an entry the value is 0. -/
def checkTapvalRun (p : CheckTapvalP) (x : Ctx) (s : State) : State × Option (List Nat) :=
  let e := s.dev.tapEntry p.tap p.poly p.tag
  let value := ((e.join).map (·.value)).getD 0
  let (want, wb) := s.expected x.c p.expectAddr p.poly
  (s.checkResult x.c p.resultAddr value (checkStatus (some e) wb (value = want)) 0, none)

/-! ### Weight blocks (R114 to R119) -/

/-- A weight block's header. -/
structure WeightHdr where
  fmtW : Nat
  fmtF : Nat
  rows : Nat
  cols : Nat
  rank : Nat
  deriving DecidableEq, Repr

namespace WeightHdr

def parse (b : List Byte) : WeightHdr :=
  { fmtW := fieldAt b 6 1, fmtF := fieldAt b 7 1, rows := fieldAt b 8 2, cols := fieldAt b 10 2, rank := fieldAt b 12 2 }

def scales (fmt n : Nat) : Nat := if fmt = 5 then n / 32 else 0

/-- Columns of the first part: RANK for U, COLS for W. -/
def width (w : WeightHdr) : Nat := if w.rank = 0 then w.cols else w.rank

def uSlices (w : WeightHdr) : Nat := w.rows / 64
def vSlices (w : WeightHdr) : Nat := if w.rank = 0 then 0 else w.cols / 64
def tableBytes (w : WeightHdr) : Nat := roundUp (4 * (w.uSlices + w.vSlices)) 64

/-- Offsets of U, its scales, V and its scales, and the end of the last part (R115). -/
def uOff (w : WeightHdr) : Nat := 64 + w.tableBytes
def uScaleOff (w : WeightHdr) : Nat := roundUp (w.uOff + fmtBytes w.fmtF (w.rows * w.width)) 64
def uEnd (w : WeightHdr) : Nat :=
  if w.fmtF = 5 then w.uScaleOff + scales w.fmtF (w.rows * w.width) else w.uOff + fmtBytes w.fmtF (w.rows * w.width)
def vOff (w : WeightHdr) : Nat := roundUp w.uEnd 64
def vScaleOff (w : WeightHdr) : Nat := roundUp (w.vOff + fmtBytes w.fmtF (w.cols * w.rank)) 64
def byteLength (w : WeightHdr) : Nat :=
  if w.rank = 0 then w.uEnd
  else if w.fmtF = 5 then w.vScaleOff + scales w.fmtF (w.cols * w.rank) else w.vOff + fmtBytes w.fmtF (w.cols * w.rank)

/-- FULL_LENGTH: the dense form in FMT_W, rounded up to 4,096. -/
def fullLength (w : WeightHdr) : Nat := roundUp ({ w with rank := 0, fmtF := w.fmtW }).byteLength 4096

def fmtOk (f : Nat) : Bool := between 1 f 7

/-- Test 2 of R118 on the whole header. -/
def fieldsOk (b : List Byte) : Bool :=
  let w := parse b
  let dim (n : Nat) : Bool := n % 64 = 0 && between 64 n 65472
  fmtOk w.fmtW && fmtOk w.fmtF && matGroup w.fmtW = matGroup w.fmtF && dim w.rows && dim w.cols
    && (if w.rank = 0 then w.fmtF = w.fmtW && fieldAt b 16 4 = 0x3F800000 else w.rank % 32 = 0 && between 32 w.rank 512)
    && fieldAt b 14 2 = 0 && fieldAt b 44 8 = 0 && fieldAt b 52 8 = 0

/-- The pieces of slice `i` of the table, U slices first: (offset, length), elements then scales. -/
def slice (w : WeightHdr) (i : Nat) : List (Nat × Nat) :=
  let part (off sOff cols k : Nat) : List (Nat × Nat) :=
    let n := fmtBytes w.fmtF (64 * cols)
    [(off + k * n, n)] ++ if w.fmtF = 5 then [(sOff + k * scales 5 (64 * cols), scales 5 (64 * cols))] else []
  if i < w.uSlices then part w.uOff w.uScaleOff w.width i else part w.vOff w.vScaleOff w.rank (i - w.uSlices)

end WeightHdr

namespace State

def pieces (s : State) (a : Nat) (ps : List (Nat × Nat)) : List Byte × Bool :=
  (ps.flatMap fun (o, n) => (s.devRead (a + o) n).1, ps.any fun (o, n) => (s.devRead (a + o) n).2)

/-- Does slice `i` of a block at `a` match its table entry, folded with the slice's device address (R115)? -/
def sliceOk (s : State) (a : Nat) (w : WeightHdr) (i : Nat) : Bool :=
  let ps := w.slice i
  s.devNat (a + 64 + 4 * i) 4 = check32c (a + (ps.headD (0, 0)).1) (s.pieces a ps).1

/-- The first test of R118 that a block fails, with the first failing slice: (0, 0) for none. `idx` are the slices read. -/
def weightTest (s : State) (a : Nat) (want : WeightHdr) (wantLen : Nat) (idx : List Nat) : Nat × Nat :=
  let b := (s.devRead a 64).1
  let w := WeightHdr.parse b
  let poison := (s.devRead a (64 + want.tableBytes)).2 || idx.any fun i => (s.pieces a (want.slice i)).2
  if s.dev.cvu.reloading.contains a then (8, 0)
  else if s.dev.cvu.damaged.contains a then (9, 0)
  else if poison then (7, 0)
  else if fieldAt b 0 4 != 0x5A574231 || fieldAt b 4 2 != 1 then (1, 0)
  else if !WeightHdr.fieldsOk b then (2, 0)
  else if fieldAt b 20 8 != w.byteLength || fieldAt b 28 8 != w.fullLength then (3, 0)
  else if fieldAt b 60 4 != check32c a (b.take 60) then (4, 0)
  else if w != want || fieldAt b 20 8 != wantLen then (5, 0)
  else match idx.find? fun i => !s.sliceOk a w i with
    | some i => (6, i)
    | none => (0, 0)

end State

/-- Does a step check a weight block? -/
def isWeightCheck (p : Params) : Bool := match p with | .checkWeight _ => true | _ => false

/-- Does it check the block at `a`? -/
def checksBlock (a : Nat) (p : Params) : Bool := match p with | .checkWeight q => q.addr = a | _ => false

/-- The steps of a chamber that depend on the model, by INDEX: of the plan's steps of a stage, those that check its weight blocks and all that
depend on them. -/
def State.modelSteps (s : State) (c stage : Nat) : List Nat :=
  let steps := s.planSteps s.dev.activeBank c
  closure ((steps.filter fun st => st.hdr.stage = stage && isWeightCheck st.params).map (·.hdr.index)) (steps.map fun st => (st.hdr.index, st.hdr.depends))

/-- A failed check (R119): in every chamber of the group, which is every chamber whose plan checks the block in that stage, the steps of the cohort
that depend on the model are abandoned; so are those in flight anywhere that name the block, with their dependants. -/
def State.weightFail (s : State) (x : Ctx) (a : Nat) : State :=
  let group := (List.range 256).filter fun c => (s.planSteps s.dev.activeBank c).any fun st => st.hdr.stage = x.hdr.stage && checksBlock a st.params
  let roots := group.map fun c => (c, s.modelSteps c x.hdr.stage)
  let hits := s.dev.seq.inflight.filter fun f => cohortOf f.origin f.step.hdr.stage = x.cohort && checksBlock a f.step.params
  s.onDev fun d =>
    let d := roots.foldl (fun d (c, is) => (d.abandonSteps c x.origin is).1) d
    (hits.foldl (fun d f => (d.abandonSteps f.chamber f.origin [f.step.hdr.index]).1) d).abandon x

/-- CHECK WEIGHT (R118, R119, R324). -/
def checkWeightRun (p : CheckWeightP) (x : Ctx) (s : State) : State × Option (List Nat) :=
  let want : WeightHdr := ⟨p.fmtW, p.fmtF, p.rows, p.cols, p.rank⟩
  let us := ((List.range want.uSlices).filter fun i => p.uFirst ≤ i && decide (i < p.uFirst + p.uCount))
  let vs := if p.vAll = 1 then (List.range want.vSlices).map (want.uSlices + ·) else []
  let (reason, slice) := s.weightTest p.addr want p.byteLength (us ++ vs)
  let status := if reason = 0 then ckMatch else if reason = 7 then ckPoison else ckMismatch
  let value := (Config.weightValue s.dev.freeCtr).toNat
  let s := (s.onDev fun d => { d with freeCtr := d.freeCtr + 1 }).checkResult x.c p.resultAddr value status reason
  let id := s.devNat (p.addr + 36) 8
  let s := s.onDev (·.bump (Ctr.chWeightChecks x.c))
  if reason = 0 then (s, none) else
  ((((s.onDev (·.bump (Ctr.chWeightFailed x.c))).weightFail x p.addr).onDev fun d =>
    if reason = 8 || reason = 9 then d
    else d.raise .weightDamaged x.src [(5, p.addr), (8, id), (1, reason), (1, x.c), (2, slice)] true), none)

/-- At a cairn the marks of reloaded blocks are cleared (R120). -/
def Dev.clearReloaded (d : Dev) : Dev :=
  { d with cvu := { d.cvu with reloading := d.cvu.reloading.filter fun a => !d.cvu.readable.contains a, readable := [] } }

/-! ### The commands -/

/-- CHECK in RANGE mode. -/
def execCheckRange (c : Nat) (h : Hdr) (p : CheckRangeP) (us : List Upset) (s : State) : Host.Outcome State Fault Refusal :=
  stepCmd c h (.checkRange p) us (checkRangeRun p) s

/-- CHECK in TAPVAL mode. -/
def execCheckTapval (c : Nat) (h : Hdr) (p : CheckTapvalP) (us : List Upset) (s : State) : Host.Outcome State Fault Refusal :=
  stepCmd c h (.checkTapval p) us (checkTapvalRun p) s

/-- CHECK in WEIGHT mode. -/
def execCheckWeight (c : Nat) (h : Hdr) (p : CheckWeightP) (us : List Upset) (s : State) : Host.Outcome State Fault Refusal :=
  stepCmd c h (.checkWeight p) us (checkWeightRun p) s

end Sys2Proof.Machine
end

