-- ==== Sys2Proof/Machine/Pim.lean ====
section
/-! DEFINITION. Processing inside the memory stacks: programs and their checks, runs in chunks, refresh and temperature of
dies, region modes and seals (10_in_stack_processing.md R259 to R286). -/

namespace Sys2Proof.Machine

open Sys2Proof.Crypto
open Sys2Proof.Fp (Value)

/-! ### Programs (R263 to R267) -/

/-- ETYPE and ACCESS of operand `k` of a program (R264). -/
def pimOperand (b : List Byte) (k : Nat) : Nat := fieldAt b (8 + k) 1
def pimEtype (b : List Byte) (k : Nat) : Nat := bits (pimOperand b k) 0 3
def pimReads (b : List Byte) (k : Nat) : Bool := bit (pimOperand b k) 3
def pimWrites (b : List Byte) (k : Nat) : Bool := bit (pimOperand b k) 4
def pimUsed (b : List Byte) (k : Nat) : Bool := pimReads b k || pimWrites b k
def pimRepeat (b : List Byte) (k : Nat) : Nat := fieldAt b (12 + 2 * k) 2
def pimScalar (b : List Byte) (i : Nat) : Nat := fieldAt b (32 + 4 * i) 4

/-- Element size in bytes of an ETYPE: INT8, UINT16, INT32, FP16 and BF16. -/
def pimSize (etype : Nat) : Nat := [1, 2, 4, 2, 2].getD etype 1

/-- An instruction (R265). -/
structure PimInstr where
  opc : Nat
  dst : Nat
  a : Nat
  b : Nat
  fmt : Nat
  shift : Nat
  sidx : Nat
  deriving DecidableEq, Repr

def pimInstr (p : List Byte) (i : Nat) : PimInstr :=
  let f (k : Nat) := fieldAt p (256 + 8 * i + k) 1
  { opc := f 0, dst := f 1, a := f 2, b := f 3, fmt := f 4, shift := f 5, sidx := f 6 }

def pimInstrs (p : List Byte) : List PimInstr := (List.range (fieldAt p 6 1)).map (pimInstr p)

def opLd : Nat := 1
def opSt : Nat := 2
def opMul : Nat := 5
def opClamp : Nat := 0xA
def opPwl : Nat := 0xC
def opCvt : Nat := 0xD

/-- Unit cycles of an instruction, and P, those of a group (R265, R268). -/
def pimCycles (p : List Byte) (i : PimInstr) : Nat :=
  if i.opc = opLd ∨ i.opc = opSt then pimSize (pimEtype p i.a) else 1
def pimCost (p : List Byte) : Nat := ((pimInstrs p).map (pimCycles p)).sum
/-- N: the operands used (R273). -/
def pimOperands (p : List Byte) : List Nat := (List.range 4).filter (pimUsed p)

def pwlBp (p : List Byte) (i : Nat) : Nat := fieldAt p (64 + 12 * i) 4
def pwlSlope (p : List Byte) (i : Nat) : Nat := fieldAt p (68 + 12 * i) 4
def pwlOff (p : List Byte) (i : Nat) : Nat := fieldAt p (72 + 12 * i) 4

/-- Break points: none NaN, and non-decreasing; the offset of the first that is not (R267). -/
def pwlBad (p : List Byte) : Option Nat :=
  ((List.range 16).drop 1).findSome? fun i =>
    let ok := !Fp.isNan32 (pwlBp p i) && (i = 1 || decide (0 ≤ Fp.cmp (Fp.f32 (pwlBp p i)) (Fp.f32 (pwlBp p (i - 1)))))
    if ok then none else some (64 + 12 * i)

/-- S[SIDX] ≤ S[SIDX + 1], read under FMT, and neither NaN (R267). -/
def clampOk (p : List Byte) (i : PimInstr) : Bool :=
  let a := pimScalar p i.sidx
  let b := pimScalar p (i.sidx + 1)
  decide (i.sidx ≤ 6) && (if i.fmt = 0 then decide (toSigned 32 a ≤ toSigned 32 b)
    else !Fp.isNan32 a && !Fp.isNan32 b && decide (Fp.cmp (Fp.f32 a) (Fp.f32 b) ≤ 0))

/-- The offset within an instruction of its first bad byte (R265, R267). -/
def instrBad (p : List Byte) (i : Nat) : Option Nat :=
  let q := pimInstr p i
  let ldst := q.opc = opLd || q.opc = opSt
  let at' (ok : Bool) (k : Nat) : Option Nat := if ok then none else some (256 + 8 * i + k)
  (at' (between 1 q.opc 0xE) 0)
    <|> (at' (decide (q.dst < 8)) 1)
    <|> (at' (if ldst then decide (q.a < 4) && (if q.opc = opLd then pimReads p q.a else pimWrites p q.a) else decide (q.a < 8)) 2)
    <|> (at' (if q.opc = opCvt then decide (q.b < 3) else decide (q.b < 8)) 3)
    <|> (at' (decide (q.fmt < 3) && (q.opc != opLd || (q.fmt = 0) == decide (pimEtype p q.a < 3))) 4)
    <|> (at' (decide (q.shift < 32) && (q.shift = 0 || (q.opc = opMul && q.fmt = 0))) 5)
    <|> (at' (decide (q.sidx < 8) && (q.opc != opClamp || clampOk p q)) 6)
    <|> (at' (fieldAt p (256 + 8 * i + 7) 1 = 0) 7)
    <|> (if q.opc = opPwl then pwlBad p else none)

/-- A byte of a range that is not 0. -/
def nonzeroIn (p : List Byte) (lo n : Nat) : Option Nat :=
  ((List.range n).find? fun i => fieldAt p (lo + i) 1 != 0).map (lo + ·)

/-- The byte offset of a program's first bad field, in the order of R270. -/
def programBad (a : Nat) (p : List Byte) (poison : Bool) : Option Nat :=
  let at' (ok : Bool) (k : Nat) : Option Nat := if ok then none else some k
  let n := fieldAt p 6 1
  (at' (!poison && fieldAt p 1020 4 = check32c a (p.take 1020)) 1020)
    <|> (at' (fieldAt p 0 4 = 0x5A504D31) 0)
    <|> (at' (fieldAt p 4 2 = 1) 4)
    <|> (at' (between 1 n 64) 6)
    <|> (nonzeroIn p 7 1) <|> (nonzeroIn p 20 12) <|> (nonzeroIn p (256 + 8 * n) (512 - 8 * n)) <|> (nonzeroIn p 768 252)
    <|> ((List.range 4).findSome? fun k =>
      at' (decide (pimEtype p k < 5) && bits (pimOperand p k) 5 3 = 0) (8 + k)
        <|> at' (pimRepeat p k = 0 || (decide (pimRepeat p k ≤ 49152) && pimReads p k && !pimWrites p k)) (12 + 2 * k))
    <|> (at' ((List.range 4).any (pimWrites p)) 8)
    <|> ((List.range n).findSome? (instrBad p))

/-! ### Ranges and modes (R268, R270, R277) -/

/-- The groups an operand spans: COUNT, or REPEAT where that is less. -/
def pimSpan (p : List Byte) (count k : Nat) : Nat := if pimRepeat p k = 0 then count else min count (pimRepeat p k)

/-- The end of an operand's range as a unit-local offset. -/
def pimEnd (p : List Byte) (rows : List Nat) (count k : Nat) : Nat :=
  rows.getD k 0 * 2048 + pimSpan p count k * 32 * pimSize (pimEtype p k)

/-- The local rows, and so the stripes, that an operand touches: the first and how many. -/
def pimRows (p : List Byte) (rows : List Nat) (count k : Nat) : Nat × Nat :=
  (rows.getD k 0, ceilDiv (pimEnd p rows count k) 2048 - rows.getD k 0)

/-- The first stripe whose mode refuses a run, with the reason: 2 OUTER, 3 SEALING written (R270; log entry 19). -/
def modeBad (d : Dev) (st : Nat) (p : List Byte) (rows : List Nat) (count : Nat) : Option (Nat × Nat) :=
  (pimOperands p).findSome? fun k =>
    let (r, n) := pimRows p rows count k
    (List.range n).findSome? fun i =>
      let m := d.stripeMode st (r + i)
      if m = 1 then none else if m = 2 then (if pimWrites p k then some (3, r + i) else none) else some (2, r + i)

/-- Rows of a run that are written, and all its rows, as (first, count). -/
def runWrites (r : PimRun) (total : Nat) : List (Nat × Nat) := ((List.range 4).filter (pimWrites r.prog)).map (pimRows r.prog r.rows total)
def runRows (r : PimRun) (total : Nat) : List (Nat × Nat) := (pimOperands r.prog).map (pimRows r.prog r.rows total)

def rowsMeet (xs ys : List (Nat × Nat)) : Bool :=
  xs.any fun (a, n) => ys.any fun (b, m) => decide (a < b + m) && decide (b < a + n)

/-! ### Lanes (R266, R267) -/

/-- A lane's new value and whether it counts in PIM_SAT. -/
abbrev Lane := Nat × Bool

/-- An exact integer into an INT32 lane. -/
def satLane (i : Int) : Lane :=
  let c := clampInt (-2147483648) 2147483647 i
  (ofSigned 32 c, c != i)

/-- An exact value into a lane of FMT: INT32 by R82, or rounded once to FP16 or BF16 and held as FP32. -/
def toLane (fmt : Nat) (x : Value) : Lane :=
  if fmt = 0 then
    let r := toIntFmt 32 x
    (r.1, r.2.intSat != 0)
  else
    let f := if fmt = 1 then Fp.fp16 else Fp.bf16
    (Fp.to32 (Fp.decode f (Fp.encode f x).bits), false)

/-- The value of a lane read under FMT. -/
def laneNum (fmt v : Nat) : Value := if fmt = 0 then Fp.ofInt (toSigned 32 v) else Fp.f32 v

/-- PWL (R267): the piece, then one rounding. -/
def pwlLane (p : List Byte) (fmt a : Nat) : Lane :=
  let x := laneNum fmt a
  if x.isNan then toLane fmt .nan else
    let i := ((List.range 16).drop 1).foldl (fun k i => if 0 ≤ Fp.cmp x (Fp.f32 (pwlBp p i)) then i else k) 0
    toLane fmt (Fp.add (Fp.mul (Fp.f32 (pwlSlope p i)) x) (Fp.f32 (pwlOff p i)))

/-- One lane of every instruction but LD and ST. -/
def pimLane (p : List Byte) (i : PimInstr) (a b : Nat) : Lane :=
  let s := pimScalar p i.sidx
  let t := pimScalar p (i.sidx + 1)
  let x := toSigned 32 a
  let y := toSigned 32 b
  let int := i.fmt = 0
  let fl (v : Nat) : Lane := toLane i.fmt (Fp.f32 v)
  match i.opc with
  | 0x03 => if int then satLane (x + y) else toLane i.fmt (Fp.add (Fp.f32 a) (Fp.f32 b))
  | 0x04 => if int then satLane (x - y) else toLane i.fmt (Fp.sub (Fp.f32 a) (Fp.f32 b))
  | 0x05 => if int then satLane (x * y / (2 ^ i.shift : Nat)) else toLane i.fmt (Fp.mul (Fp.f32 a) (Fp.f32 b))
  | 0x06 => if int then satLane (x * toSigned 32 s + y) else toLane i.fmt (Fp.add (Fp.mul (Fp.f32 a) (Fp.f32 s)) (Fp.f32 b))
  | 0x07 => if int then satLane (max x y) else fl (Fp.fmax a b)
  | 0x08 => if int then satLane (min x y) else fl (Fp.fmin a b)
  | 0x09 => if int then satLane (max x 0) else fl (Fp.relu a)
  | 0x0A => if int then satLane (min (max x (toSigned 32 s)) (toSigned 32 t)) else fl (Fp.clamp s t a)
  | 0x0B => if int then satLane x.sign else fl (Fp.sign a)
  | 0x0C => pwlLane p i.fmt a
  | 0x0D => toLane i.fmt (laneNum i.b a)
  | _ => if int then (s, false) else fl s

/-- LD of one element (R265). -/
def loadLane (etype v : Nat) : Nat :=
  match etype with
  | 0 => ofSigned 32 (toSigned 8 v)
  | 3 => Fp.to32 (Fp.decode Fp.fp16 v)
  | 4 => Fp.to32 (Fp.decode Fp.bf16 v)
  | _ => v

/-- ST of one lane: the element's bits (R265, R266). -/
def storeLane (etype fmt v : Nat) : Lane :=
  let x := laneNum fmt v
  let int (lo hi : Int) (w : Nat) : Lane :=
    match x with
    | .nan => (0, true)
    | .inf n => (ofSigned w (if n then lo else hi), true)
    | .fin n m e =>
      let i := Fp.toInt n m e
      let c := clampInt lo hi i
      (ofSigned w c, c != i)
  match etype with
  | 0 => int (-128) 127 8
  | 1 => int 0 65535 16
  | 2 => int (-2147483648) 2147483647 32
  | 3 => ((Fp.encode Fp.fp16 x).bits, false)
  | _ => ((Fp.encode Fp.bf16 x).bits, false)

/-! ### Groups and chunks (R268, R274) -/

/-- The device address of a unit-local offset (R260, R261). -/
def unitAddr (st die pair l : Nat) : Nat :=
  0x1000000000 + st * 0xC00000000 + l / 2048 * 0x100000 + die * 0x10000 + l / 1024 % 2 * 0x8000 + pair * 0x400 + l % 1024

/-- The unit-local offset of group `g` of operand `k`. -/
def groupOffset (p : List Byte) (rows : List Nat) (k g : Nat) : Nat :=
  let h := if pimRepeat p k = 0 then g else g % pimRepeat p k
  rows.getD k 0 * 2048 + h * 32 * pimSize (pimEtype p k)

/-- What a unit has at hand inside a group: the machine, its registers, the places it has written, the first unit-local
offset read with poison, whether poison reached the group, and PIM_SAT. -/
structure UnitState where
  s : State
  regs : List WorkReg
  wrote : List (Nat × Nat)
  badAt : Option Nat
  bad : Bool
  sat : Nat

def noWork : List WorkReg := List.replicate 8 ⟨List.replicate 32 0, false⟩

def UnitState.reg (u : UnitState) (k : Nat) : WorkReg := u.regs.getD k ⟨[], false⟩

/-- One instruction of group `g` in the unit of a die and pair. -/
def unitInstr (p : List Byte) (rows : List Nat) (st die pair g : Nat) (u : UnitState) (i : PimInstr) : UnitState :=
  if i.opc = opLd then
    let l := groupOffset p rows i.a g
    let e := pimEtype p i.a
    let (bs, bad) := u.s.devRead (unitAddr st die pair l) (32 * pimSize e)
    { u with regs := u.regs.set i.dst ⟨(chunks (pimSize e) bs).map fun x => loadLane e (leNat x), bad⟩,
             badAt := if bad then u.badAt.or (some l) else u.badAt, bad := u.bad || bad }
  else if i.opc = opSt then
    let l := groupOffset p rows i.a g
    let e := pimEtype p i.a
    let w := u.reg i.b
    let xs := w.lanes.map (storeLane e i.fmt)
    let a := unitAddr st die pair l
    { u with s := u.s.devWrite a (xs.flatMap fun x => leBytes (pimSize e) x.1), wrote := u.wrote ++ [(a, 32 * pimSize e)],
             bad := u.bad || w.bad, sat := u.sat + (xs.filter (·.2)).length }
  else
    let wa := u.reg i.a
    let wb := u.reg i.b
    let two := i.opc = 3 || i.opc = 4 || i.opc = 5 || i.opc = 6 || i.opc = 7 || i.opc = 8
    let xs := (List.range 32).map fun k => pimLane p i (wa.lanes.getD k 0) (wb.lanes.getD k 0)
    { u with regs := u.regs.set i.dst ⟨xs.map (·.1), (i.opc != 0xE && wa.bad) || (two && wb.bad)⟩, sat := u.sat + (xs.filter (·.2)).length }

/-- One group: its instructions, and poison on every atom it wrote when poison reached it (R280). -/
def unitGroup (p : List Byte) (rows : List Nat) (st die pair : Nat) (u : UnitState) (g : Nat) : UnitState :=
  let v := (pimInstrs p).foldl (unitInstr p rows st die pair g) { u with wrote := [], bad := false }
  if v.bad then { v with s := v.wrote.foldl (fun s (a, n) => s.devMark (a / 64 * 64) (roundUp n 64) true) v.s } else v

/-- `n` groups from `g` in one unit of a run: the machine, the run with the unit's registers kept, the PIM_SAT count and where
poison was first read. -/
def unitChunk (r : PimRun) (die pair g n : Nat) (s : State) : State × PimRun × Nat × Option Nat :=
  let key := die * 32 + pair
  let w := ((r.work.find? (·.unit' = key)).map (·.regs)).getD noWork
  let u := (List.range n).foldl (fun u i => unitGroup r.prog r.rows r.stack die pair u (g + i))
    { s, regs := w, wrote := [], badAt := none, bad := false, sat := 0 }
  (u.s, { r with work := (r.work.filter (·.unit' != key)) ++ [⟨key, u.regs⟩] }, u.sat, u.badAt)

namespace Dev

def dieTemp (d : Dev) (st die : Nat) : Int := toSigned 8 (bits (d.rd (Reg.stkTemp st (die / 4))) (8 * (die % 4)) 8)
def setRate (d : Dev) (st die n : Nat) : Dev := d.put (Reg.stkRate st) (setBits (d.rd (Reg.stkRate st)) (2 * die) 2 n)

/-- A run replaced by a later state of itself. -/
def putRun (d : Dev) (r : PimRun) : Dev :=
  { d with pim := { d.pim with queue := d.pim.queue.map fun q =>
    if q.chamber = r.chamber ∧ q.idx = r.idx ∧ q.origin = r.origin ∧ q.stack = r.stack then r else q } }

/-- A run all of whose dies have finished leaves the queue; a continuation will find its registers. -/
def retireRuns (d : Dev) (st : Nat) : Dev :=
  let ended (r : PimRun) : Bool := r.stack = st && r.next.all fun (_, g) => decide (r.until' ≤ g)
  let kept := (d.pim.queue.filter fun r => ended r && r.more).map fun r =>
    { chamber := r.chamber, idx := r.idx, origin := r.origin, work := r.work, next := r.next, said := r.said }
  { d with pim := { d.pim with queue := d.pim.queue.filter (!ended ·), kept := d.pim.kept ++ kept } }.pimShow st

/-- Do two runs share a unit? -/
def shareUnit (q r : PimRun) : Bool := q.stack = r.stack && q.dieMask &&& r.dieMask != 0 && q.pairMask &&& r.pairMask != 0

/-- A run enters the queue of its stack, and starts on every die that is free; a wait for an earlier run's rows is counted (R271). -/
def admitRun (d : Dev) (r : PimRun) : Dev :=
  let waits := d.pim.queue.any fun q => shareUnit q r && rowsMeet (runWrites q q.until') (runRows r r.until')
  let d := { d with pim := { d.pim with queue := d.pim.queue ++ [r] } }.bump (Ctr.stkPimPrograms r.stack)
  let d := (if waits then d.bump (Ctr.stkPimHolds r.stack) else d).pimShow r.stack
  r.next.foldl (fun d x => d.startChunk r.stack x.1) d

end Dev

/-- Refresh intervals in ns at 1×, 2× and 4× (R274). -/
def refreshNs (rate : Nat) : Nat := [3900, 1950, 975].getD rate 975

/-- n: the groups of a chunk at a rate (R274). -/
def chunkGroups (p : List Byte) (rate : Nat) : Nat := max 1 ((refreshNs rate - 48 * (pimOperands p).length) / (2 * max 1 (pimCost p)))

/-- Nominal CORE cycles of `c` chunks holding `groups` groups (R273). -/
def runCycles (d : Dev) (p : List Byte) (c groups : Nat) : Nat :=
  ceilDiv ((200 + 2 * (24 * (pimOperands p).length * c + groups * pimCost p) + 350 * (c - 1)) * d.coreMhz) 1000

/-- The groups a RUN processes now (R50, R273): the greatest number of whole chunks its BUDGET holds, at
least one, reckoned at the fastest refresh rate among the selected dies. -/
def runNow (d : Dev) (h : Hdr) (p : PimRunP) (prog : List Byte) (left : Nat) : Nat :=
    let rate := ((List.range 16).filter (bit p.dieMask ·)).foldl (fun m k => max m (d.dieRate p.stack k)) 0
    let n := chunkGroups prog rate
    let fits := (List.range (ceilDiv left n)).countP fun c => decide (runCycles d prog (c + 1) (min left ((c + 1) * n)) ≤ h.budget)
    min left (max 1 fits * n)

/-- A refused step (R270). -/
def pimRefuse (x : Ctx) (st : Nat) (code : FaultCode) (items : List (Nat × Nat)) (s : State) : State × Option (List Nat) :=
  (s.onDev fun d => ((d.raise code (Dev.srcStack st) ([(1, x.c), (2, x.hdr.index)] ++ items) true).bump (Ctr.stkPimRefused st)).abandon x, none)

/-- A RUN enters the queue of its stack, or is held where the queue is full, or where others are held already (R271). -/
def Dev.takeRun (d : Dev) (r : PimRun) : Dev :=
  if decide (16 ≤ (d.pim.queue.filter (·.stack = r.stack)).length) || d.pim.held.any (·.stack = r.stack) then
    { d with pim := { d.pim with held := d.pim.held ++ [r] } }
  else d.admitRun r

/-- RUN (R270, R271, R273). A continuation goes on where each die stopped. -/
def pimRunStep (p : PimRunP) (x : Ctx) (s : State) : State × Option (List Nat) :=
  let d := s.dev
  let rows := [p.row0, p.row1, p.row2, p.row3]
  let a := columnBase x.c + p.progAddr
  let (prog, poison) := s.devRead a 1024
  if !d.on (Reg.stkCtrlPimEn p.stack) then pimRefuse x p.stack .pimModeFault [(1, p.stack), (1, 1), (2, p.row0)] s
  else match programBad a prog poison with
  | some off => pimRefuse x p.stack .pimBadProgram [(4, p.progAddr), (4, off)] s
  | none =>
    match (pimOperands prog).find? fun k => decide (0x6000000 < pimEnd prog rows p.count k) with
    | some k => pimRefuse x p.stack .pimRange [(1, k)] s
    | none =>
      match modeBad d p.stack prog rows p.count with
      | some (why, r) => pimRefuse x p.stack .pimModeFault [(1, p.stack), (1, why), (2, r)] s
      | none =>
        let base := x.resume.headD 0
        let now := runNow d x.hdr p prog (p.count - base)
        let more := decide (base + now < p.count)
        let mine (k : KeptWork) : Bool := k.chamber = x.c && k.idx = x.hdr.index && k.origin = x.origin
        let kept := d.pim.kept.find? mine
        let dies := (List.range 16).filter (bit p.dieMask ·)
        let next := dies.map fun k => (k, max base (assocD base k ((kept.map (·.next)).getD [])))
        let r : PimRun := { chamber := x.c, idx := x.hdr.index, origin := x.origin, tenant := x.hdr.tenant, metered := x.hdr.metered,
                            stack := p.stack, prog, pairMask := p.pairMask, dieMask := p.dieMask, rows, until' := base + now, more := more && d.continues x,
                            next, work := (kept.map (·.work)).getD [], said := (kept.map (·.said)).getD false }
        (s.onDev fun d => { d with pim := { d.pim with kept := d.pim.kept.filter (!mine ·) } }.takeRun r, if more then some [base + now] else none)

/-- Of two PIM RUNs of one slot that name the same bank pair, the one of the lower chamber is admitted first (R23, R271): does a RUN of chamber `c`
wait for such a step that is issued and has not come to its stack? -/
def Dev.runWaits (d : Dev) (c : Nat) (h : Hdr) (p : PimRunP) : Bool :=
  match d.inFlight c h.index with
  | none => false
  | some f => d.seq.inflight.any fun g => decide (g.chamber < c) && g.issued && !g.executed && g.origin = f.origin && g.step.hdr.slot = f.step.hdr.slot
      && match g.step.params with
        | .pimRun q => q.stack = p.stack && q.dieMask &&& p.dieMask != 0 && q.pairMask &&& p.pairMask != 0
        | _ => false

/-- Does an admitted run write a byte of a device range, in its 1 KiB pieces (R260, R271)? -/
def Dev.runMeets (d : Dev) (a n : Nat) : Bool :=
  d.pim.queue.any fun r => (List.range (ceilDiv n 1024)).any fun i =>
    let o := a - 0x1000000000 + 1024 * i
    decide (0x1000000000 ≤ a) && o / 0xC00000000 = r.stack
      && (let o := o % 0xC00000000
          bit r.dieMask (o / 65536 % 16) && bit r.pairMask (o / 1024 % 32)
            && (runWrites r r.until').any fun (row, k) => decide (row ≤ o / 0x100000) && decide (o / 0x100000 < row + k))

/-- PIM_QUEUE_ADMIT: the first held run of a stack enters its queue once there is room (R271), while epochs run (R281). -/
def Dev.admitHeld (d : Dev) (st : Nat) : Dev :=
  if !d.running then d else match d.pim.held.find? (·.stack = st) with
  | none => d
  | some r =>
    if 16 ≤ (d.pim.queue.filter (·.stack = st)).length then d
    else { d with pim := { d.pim with held := d.pim.held.erase r } }.admitRun r

/-- `n` groups of a run from `g` on are processed in every selected unit of a die (R268, R280, R282, R285). -/
def State.runGroups (s : State) (r : PimRun) (die g n : Nat) : State :=
  let st := r.stack
  let pairs := (List.range 32).filter (bit r.pairMask ·)
  let (s, r, sat, hit) := pairs.foldl (fun (s, r, sat, hit) pair =>
    let (s, r, k, b) := unitChunk r die pair g n s
    (s, r, sat + k, hit.or (b.map (pair, ·)))) (s, r, 0, none)
  let arith := ((pimInstrs r.prog).filter fun i => i.opc != opLd && i.opc != opSt).length
  let ops := 32 * n * arith * pairs.length
  s.onDev fun d =>
    let d := match hit with
      | some (pair, l) => if r.said then d else d.raise .pimUncorrectable (Dev.srcStack st) [(1, st), (1, die), (1, pair), (4, l), (2, r.idx)]
      | none => d
    let d := (((d.bump (Ctr.stkPimGroups st) (n * pairs.length)).bump (Ctr.stkPimChunks st)).bump (Ctr.stkPimOps st) ops).bump (Ctr.stkPimSat st) sat
    let d := if r.metered then d.meterTenant r.tenant 13 ops else d
    ((d.putRun { r with next := assocPut die (g + n) r.next, said := r.said || hit.isSome }).endChunk st die).retireRuns st

/-- The end of a chunk on a die: `groups` groups of its run are processed in every selected unit, with `idle` unit cycles inserted by
the throttle and the addresses in `bad` found uncorrectable by the units' reads (R274, R276, R280). -/
def State.chunkEnd (s : State) (st die groups idle : Nat) (bad : List Nat) : State :=
  match s.dev.dieRun st die, s.dev.pim.chunks.find? (·.1 = st * 16 + die) with
  | some r, some (_, rate) =>
    let g := assocD r.until' die r.next
    let n := min groups (min (chunkGroups r.prog rate) (r.until' - g))
    if n = 0 || !s.dev.running then s else
    (((bad.foldl (fun s a => s.devUncorrectable a) s).runGroups r die g n).onDev fun d => d.bump (Ctr.stkThrottledCycles st) idle)
  | _, _ => s

/-! ### Seals (R279) -/

/-- The stripes that a SEAL takes become SEALING, at its admission; a continuation takes none (R279). -/
def Dev.markSeal (d : Dev) (p : PimSealP) (x : Ctx) : Dev :=
  if x.resume != [] then d else
  (((List.range p.rowCount).map (p.rowFirst + ·)).filter fun r => d.stripeMode p.stack r = 1).foldl (fun d r =>
    let d := d.setMode p.stack r 2
    { d with pim := { d.pim with seals := d.pim.seals ++ [⟨p.stack, r, x.c, x.hdr.index, x.origin, none⟩] } }) d

/-- One stripe of a seal: its atoms are read, corrected, passed to tap 7 and written with their outer code. A stripe with an atom the inner code
cannot correct is PIM again, and that atom is written with poison (R279). -/
def State.sealOne (s : State) (st : Nat) (h : Hdr) (r : Nat) : State :=
  let a := 0x1000000000 + st * 0xC00000000 + r * 0x100000
  let (bs, poison) := s.devRead a 0x100000
  let s := s.onDev fun d => (((d.tapPass 7 a bs poison).meter h 3 0x100000).meter h 4 0x100000)
  let here (x : SealMark) : Bool := x.stack = st && x.stripe = r
  match (List.range 16384).find? fun k => s.devPoison (a + 64 * k) 64 with
  | some k => (s.devMark (a + 64 * k) 64 true).onDev fun d =>
      let d := (d.setMode st r 1).raise .pimSealFail (Dev.srcStack st) [(1, st), (2, r), (2, k)]
      { d with pim := { d.pim with seals := d.pim.seals.filter (!here ·) } }
  | none => s.onDev fun d =>
      { d with pim := { d.pim with seals := d.pim.seals.map fun x => if here x then { x with written := some d.epoch } else x } }

/-- SEAL: the stripes of the range are taken, and those its BUDGET holds are sealed (R273, R279). -/
def pimSealStep (p : PimSealP) (x : Ctx) (s : State) : State × Option (List Nat) :=
  let st := p.stack
  if !s.dev.on (Reg.stkCtrlPimEn st) then pimRefuse x st .pimModeFault [(1, st), (1, 1), (2, p.rowFirst)] s else
  let done := x.resume.headD 0
  let now := unitsNow x.hdr 64 2048 (p.rowCount - done)
  let s := s.onDev (·.markSeal p x)
  let mine (r : Nat) : Bool := s.dev.pim.seals.any fun m => m.stack = st && m.stripe = r && m.chamber = x.c && m.idx = x.hdr.index
    && m.origin = x.origin && m.written.isNone
  let s := (((List.range now).map (p.rowFirst + done + ·)).filter mine).foldl (fun s r => s.sealOne st x.hdr r) s
  let more := decide (done + now < p.rowCount)
  let s := if more && !s.dev.continues x then s.onDev (·.dropSeals fun m => m.stack = st && m.chamber = x.c && m.idx = x.hdr.index
    && m.origin = x.origin && m.written.isNone) else s
  (s.onDev (·.pimShow st), if more then some [done + now] else none)

/-- SEAL_STRIPE_COMPLETE: at the first cairn after its last atom was written, a stripe becomes OUTER. -/
def Dev.sealStripe (d : Dev) (st r : Nat) : Dev :=
  if d.epc.inCairn && d.pim.seals.any fun m => m.stack = st && m.stripe = r && m.written.any (· < d.epoch) then
    let d := (d.setMode st r 0).bump (Ctr.stkSealStripes st)
    { d with pim := { d.pim with seals := d.pim.seals.filter fun m => !(m.stack = st && m.stripe = r) } }.pimShow st
  else d

/-! ### RETAIN (R281) -/

/-- Before RETAIN the admitted programs complete. -/
def State.finishRuns (s : State) : State :=
  let todo := s.dev.pim.queue.flatMap fun r => r.next.filterMap fun x => if x.2 < r.until' then some (r.chamber, r.idx, r.origin, r.stack, x.1) else none
  todo.foldl (fun s (c, i, o, st, die) =>
    match s.dev.pim.queue.find? fun r => r.chamber = c && r.idx = i && r.origin = o && r.stack = st with
    | some r => let g := assocD r.until' die r.next; s.runGroups r die g (r.until' - g)
    | none => s) s

/-- The seals of a stack that RETAIN breaks off, each as the step that seals its stripes again: SUMPABLE, with the budget of one stripe and the
longest EXPIRY (log entry 145). -/
def Dev.sealSteps (d : Dev) : List (Nat × Step) :=
  let keys := (d.pim.seals.map fun m => (m.chamber, m.idx, m.origin, m.stack)).eraseDups
  keys.map fun (c, i, o, st) =>
    let rows := (d.pim.seals.filter fun m => m.chamber = c && m.idx = i && m.origin = o && m.stack = st).map (·.stripe)
    let lo := rows.foldl min 49151
    let hi := rows.foldl max 0
    (c, ⟨{ Hdr.zero with index := i, budget := 2112, expiry := 16, flags := 1 }, .pimSeal { stack := st, rowFirst := lo, rowCount := hi + 1 - lo }⟩)

/-- SEALING stripes return to PIM before RETAIN, and their seals wait to be issued again. -/
def Dev.pauseSeals (d : Dev) : Dev :=
  let steps := d.sealSteps
  let d := d.dropSeals fun _ => true
  { d with pim := { d.pim with reissue := d.pim.reissue ++ steps } }

/-- The seals are issued again in the first epoch after RETAIN, as work of their chambers' sumps (log entry 145). -/
def Dev.reissueSeals (d : Dev) : Dev :=
  d.pim.reissue.foldl (fun d (c, st) => d.sumpAppend { chamber := c, step := st, origin := d.epoch, reason := 3, resume := [] })
    { d with pim := { d.pim with reissue := [] } }

/-- A write to STK_MODE j (R278): OUTER to PIM waits for the next cairn, writing a stripe's present mode changes nothing, and
anything else is rejected. -/
def Dev.writeModes (d : Dev) (st j v : Nat) : Dev :=
  let f := Reg.stkMode st j
  let d := (List.range 16).foldl (fun d i =>
    let m := bits v (2 * i) 2
    let now := d.stripeMode st (16 * j + i)
    if m = now then d
    else if m = 1 && now = 0 then d.put f (setBits (d.rd f) (2 * i) 2 1)
    else d.putFlag (Reg.stkStatusModeReject st) true) d
  if d.regs.waiting.contains f then d else { d with regs := { d.regs with waiting := d.regs.waiting ++ [f] } }

/-! ### Refresh and temperature (R275, R276) -/

/-- STACK_REFRESH_DUE: issued, or postponed while a chunk runs, or forced when 8 are outstanding. -/
def Dev.refreshDue (d : Dev) (st die : Nat) (running : Bool) : Dev :=
  let d := if running && d.pim.chunks.any (·.1 = st * 16 + die) then
      if d.postponed st die < 8 then (d.setPostponed st die (d.postponed st die + 1)).bump (Ctr.stkRefreshesPostponed st)
      else (d.bump (Ctr.stkRefreshes st)).raise .stkRefreshOverdue (srcStack st) [(1, st), (1, die), (8, d.epoch)]
    else d.bump (Ctr.stkRefreshes st)
  d

/-- The rate a temperature asks for, with the floor of STK_CTRL (R276). -/
def Dev.rateFor (d : Dev) (st : Nat) (t : Int) : Nat :=
  max (if 90 < t then 2 else if 85 < t then 1 else 0) (d.val (Reg.stkCtrlRateFloor st))

/-- The THROTTLED and HALTED bits of a stack. -/
def Dev.stackHeat (d : Dev) (st : Nat) : Dev :=
  (d.putFlag (Reg.stkStatusThrottled st) ((List.range 16).any fun k => decide ((d.val (Reg.stkThermalThrottleC st) : Int) < d.dieTemp st k))).putFlag
    (Reg.stkStatusHalted st) (d.pim.halted.any (· / 16 = st))

/-- DIE_TEMP_SAMPLE (R276): a rise of the rate takes effect, and the die halts or resumes. -/
def Dev.dieSample (d : Dev) (st die : Nat) (t : Int) : Dev :=
  let key := st * 16 + die
  let d := d.put (Reg.stkTemp st (die / 4)) (setBits (d.rd (Reg.stkTemp st (die / 4))) (8 * (die % 4)) 8 (ofSigned 8 t))
  let d := { d with pim := { d.pim with maxTemp := assocPut key (max t (assocD t key d.pim.maxTemp)) d.pim.maxTemp } }
  let d := if d.dieRate st die < d.rateFor st t then d.setRate st die (d.rateFor st t) else d
  let d :=
    if d.pim.halted.contains key then
      if t < d.val (Reg.stkThermalResumeC st) then { d with pim := { d.pim with halted := d.pim.halted.filter (· != key) } }.startChunk st die else d
    else if (d.val (Reg.stkThermalHaltC st) : Int) < t then
      let d := { d with pim := { d.pim with halted := d.pim.halted ++ [key] } }
      (d.bump (Ctr.stkThermalHalts st)).raise .pimThermalHalt (srcStack st) [(1, st), (1, die), (1, ofSigned 8 t)]
    else d
  d.stackHeat st

/-- At a cairn a rate falls for a die that stayed 2 °C below the threshold for the whole epoch, and the epoch's greatest temperatures
start anew (R276). -/
def Dev.stackCairn (d : Dev) : Dev :=
  let d := (List.range 12).foldl (fun d st => (List.range 16).foldl (fun d die =>
    let t := assocD (d.dieTemp st die) (st * 16 + die) d.pim.maxTemp
    let want := d.rateFor st (t + 2)
    if want < d.dieRate st die then d.setRate st die want else d) d) d
  { d with pim := { d.pim with maxTemp := [] } }

/-! ### The commands -/

/-- PIM_RUN. No program is admitted while no epochs run (R281), nor before one of a lower chamber in the same slot (R23). -/
def execPimRun (c : Nat) (h : Hdr) (p : PimRunP) (us : List Upset) (s : State) : Host.Outcome State Fault Refusal :=
  if chamberOk c && stepOk ⟨h, .pimRun p⟩ && (!s.dev.running || s.dev.runWaits c h p) then done s else stepCmd c h (.pimRun p) us (pimRunStep p) s

/-- PIM_QUEUE_ADMIT. -/
def execPimQueueAdmit (st : Nat) (s : State) : Host.Outcome State Fault Refusal := devOnly s (·.admitHeld st)

/-- PIM_CHUNK_END. -/
def execPimChunkEnd (st die groups idle : Nat) (bad : List Nat) (s : State) : Host.Outcome State Fault Refusal :=
  done (s.chunkEnd st die groups idle bad)

/-- PIM_SEAL, while epochs run (R281). -/
def execPimSeal (c : Nat) (h : Hdr) (p : PimSealP) (us : List Upset) (s : State) : Host.Outcome State Fault Refusal :=
  if chamberOk c && stepOk ⟨h, .pimSeal p⟩ && !s.dev.running then done s else stepCmd c h (.pimSeal p) us (pimSealStep p) s

/-- SEAL_STRIPE_COMPLETE. -/
def execSealStripeComplete (st r : Nat) (s : State) : Host.Outcome State Fault Refusal := devOnly s (·.sealStripe st r)

/-- STACK_REFRESH_DUE. -/
def execStackRefreshDue (st die : Nat) (running : Bool) (s : State) : Host.Outcome State Fault Refusal :=
  devOnly s fun d => if st < 12 ∧ die < 16 then d.refreshDue st die running else d

/-- DIE_TEMP_SAMPLE. -/
def execDieTempSample (st die : Nat) (t : Int) (s : State) : Host.Outcome State Fault Refusal :=
  devOnly s fun d => if st < 12 ∧ die < 16 then d.dieSample st die t else d

/-- STK_MODE_WRITE: a write of `v` to STK_MODE `j` of a stack. -/
def execStkModeWrite (st j v : Nat) (s : State) : Host.Outcome State Fault Refusal :=
  devOnly s fun d => if st < 12 ∧ j < 3072 then d.writeModes st j v else d

end Sys2Proof.Machine
end

