-- ==== Sys2Proof/Machine/Image.lean ====
section
/-! DEFINITION. The image: where it is staged, its manifest, its checks, and its configuration and calibration records
(19_start_configuration_identity.md R468 to R478). -/

namespace Sys2Proof.Machine

open Sys2Proof.Crypto

/-! ### The offsets of the register map (R502, R512) -/

namespace Reg

/-- The fields whose register lies at a BAR0 offset. -/
def fieldsAt (o : Nat) : List Field := rows.filterMap (·.find o)

/-- Does a register of 64 bits begin at an offset? -/
def wide (o : Nat) : Bool := (fieldsAt o).any fun f => decide (32 < f.lsb + f.width)

/-- The header windows of the plan banks (R70, R512). -/
def inHeaders (o : Nat) : Bool := decide (0x21000 ≤ o) && decide (o < 0x21400)

/-- The debug windows (R502, R508). -/
def inDebug (o : Nat) : Bool := decide (0x2000000 ≤ o) && decide (o < 0x4000000)

/-- Does a table list an offset as reserved? -/
def isReserved (o : Nat) : Bool := reservedRegs.any fun (b, dims) => b ≤ o && (indices dims (o - b)).isSome

/-- Is an offset in the register map? -/
def listed (o : Nat) : Bool :=
  o % 4 = 0 && ((fieldsAt o) != [] || Ctr.isCounter o || isReserved o || inHeaders o || (decide (4 ≤ o) && (wide (o - 4) || Ctr.isCounter (o - 4))))

end Reg

/-! ### Staging (R468) -/

/-- The device address of byte `off` of the staged image: offsets 0 to 0x3EB_FFFF of strata columns 128, 129 and so on. -/
def stagingAddr (off : Nat) : Nat := (128 + off / 0x3EC0000) * 0x4000000 + off % 0x3EC0000

namespace State

def staged (s : State) (off n : Nat) : List Byte := (List.range n).map fun i => s.mem.get .dram (s.xlate (stagingAddr (off + i)))

/-- Bytes are staged from a byte whose offset is a multiple of 4,096 on, so that no part lies in two columns. -/
def stage (s : State) (off : Nat) (bs : List Byte) : State :=
  (chunks 4096 bs).zipIdx.foldl (fun s (part, i) => s.devWrite (stagingAddr (off + 4096 * i)) part) s

def norRead (s : State) (off n : Nat) : List Byte := s.mem.read .nor off n

end State

/-! ### Header, manifest and signature section (R469 to R473) -/

/-- Where an image is read: `src off n` are `n` bytes of it. -/
abbrev Source := Nat → Nat → List Byte

/-- A manifest entry (R470). -/
structure Section where
  kind : Nat
  flags : Nat
  off : Nat
  len : Nat
  hash : List Byte
  rest : List Byte
  deriving DecidableEq, Repr

def sectionOf (b : List Byte) : Section :=
  { kind := fieldAt b 0 1, flags := fieldAt b 1 1, off := fieldAt b 8 8, len := fieldAt b 16 8, hash := (b.drop 24).take 32,
    rest := (b.drop 2).take 6 ++ (b.drop 56).take 8 }

def secFirmware : Nat := 1
def secConfig : Nat := 2
def secCal : Nat := 3
def secPlans : Nat := 4
def secSig : Nat := 5

/-- Does a 64-byte signature of a 64-byte key verify over a digest (R472)? -/
def hashSigOk (key hash sig : List Byte) : Bool := key.length = 64 && ecdsaVerifyHash (beNat (key.take 32)) (beNat (key.drop 32)) hash sig

namespace Source

def num (src : Source) (off n : Nat) : Nat := leNat (src off n)

def count (src : Source) : Nat := src.num 6 1
def length (src : Source) : Nat := src.num 8 8
def version (src : Source) : Nat := src.num 16 8
def buildId (src : Source) : Nat := src.num 24 8

def sections (src : Source) : List Section := (List.range src.count).map fun i => sectionOf (src (128 + 64 * i) 64)

/-- The first section of a type, with the number of its entry. -/
def find (src : Source) (kind : Nat) : Option (Section × Nat) := src.sections.zipIdx.find? fun e => e.1.kind = kind

def bytesOf (src : Source) (kind : Nat) : List Byte :=
  match src.find kind with
  | some (e, _) => src e.off e.len
  | none => []

/-- A field of the signature section (R471). -/
def sig (src : Source) (off n : Nat) : List Byte :=
  match src.find secSig with
  | some (e, _) => src (e.off + off) n
  | none => []

def vendorKey (src : Source) : List Byte := src.sig 8 64
def operator (src : Source) : Bool := bit (leNat (src.sig 4 1)) 0
def cert (src : Source) : List Byte := src.sig 136 256
def operatorKey (src : Source) : List Byte := src.cert.drop 8 |>.take 64

/-- Bytes 8 to 55 of the DEVICE entry read as 0 for D. -/
def entryForD (b : List Byte) : List Byte := if bit (fieldAt b 1 1) 0 then b.take 8 ++ List.replicate 48 0 ++ b.drop 56 else b

/-- The signed digest D (R471). -/
def digest (src : Source) : List Byte :=
  sha256 (src 0 128 ++ (List.range src.count).flatMap fun i => entryForD (src (128 + 64 * i) 64))

/-- Check 1 of R474 on the header. -/
def headerOk (src : Source) (maxLen : Nat) : Bool :=
  src.num 0 4 = 0x5A494D47 && src.num 4 2 = 1 && between 4 src.count 12 && src.num 7 1 = 0 && decide (src.length ≤ maxLen)
    && (src 32 96).all (· == 0)

/-- Check 1 on a manifest entry, against the sections before it. A CALIBRATION entry of length 0 awaits its section (R476), so its OFFSET is not
compared. -/
def entryOk (src : Source) (before : List Section) (e : Section) : Bool :=
  let free := e.kind = secCal && e.len = 0
  let prior := before.filter fun p => !(p.kind = secCal && p.len = 0)
  between 1 e.kind 5 && e.flags = boolNat (e.kind = secCal) && e.rest.all (· == 0) && e.off % 4096 = 0
    && (free || (decide (e.off + e.len ≤ src.length) && decide (128 + 64 * src.count ≤ e.off)
      && prior.all fun p => decide (p.off < e.off) && decide (p.off + p.len ≤ e.off)))
    && (e.kind != secFirmware || decide (e.len ≤ 0x1000000)) && (e.kind != secSig || e.len = 4096)
    && (e.kind = secPlans || before.all (·.kind != e.kind))

/-- The signature section's own fields (R471). -/
def sigOk (src : Source) : Bool :=
  src.sig 0 4 = leBytes 4 0x5A534731 && decide (leNat (src.sig 4 1) ≤ 1) && (src.sig 5 3).all (· == 0) && (src.sig 456 3640).all (· == 0)
    && (src.operator || (src.sig 136 320).all (· == 0))

/-- Check 1: the entry concerned, 0 for the header. -/
def check1 (src : Source) (maxLen : Nat) : Option Nat :=
  if !src.headerOk maxLen then some 0 else
  match src.sections.zipIdx.find? fun x => !src.entryOk (src.sections.take x.2) x.1 with
  | some x => some x.2
  | none =>
    if [secFirmware, secConfig, secCal, secSig].any fun k => (src.find k).isNone then some 0
    else if src.sigOk then none else (src.find secSig).map (·.2)

/-- Check 4 but for its SERIAL test: the operator certificate and signature (R473). -/
def operatorOk (src : Source) : Bool :=
  let c := src.cert
  fieldAt c 0 4 = 0x5A4F4331 && fieldAt c 4 2 = 1 && decide (fieldAt c 6 1 ≤ 3) && fieldAt c 7 1 = 0 && ((c.drop 88).take 104).all (· == 0)
    && hashSigOk src.vendorKey (sha256 (c.take 192)) (c.drop 192) && bit (fieldAt c 6 1) 0 && hashSigOk src.operatorKey src.digest (src.sig 392 64)

/-- The SERIAL test of check 4. -/
def serialOk (src : Source) (serial : Nat) : Bool := fieldAt src.cert 72 16 = 0 || fieldAt src.cert 72 16 = serial

/-- Check 5: the entry of the first section but CALIBRATION whose SHA-256 differs. -/
def check5 (src : Source) : Option Nat :=
  (src.sections.zipIdx.find? fun e => e.1.kind != secCal && sha256 (src e.1.off e.1.len) != e.1.hash).map (·.2)

end Source

/-! ### Records of the configuration and calibration sections (R477, R478) -/

structure CfgRec where
  kind : Nat
  off : Nat
  body : List Byte
  deriving DecidableEq, Repr

/-- The records from byte `off` up to END, and the type and byte offset at which they fail: a reserved type or a malformed body, or the end of
the section without an END. -/
def cfgRecords (ok : Nat → List Byte → Bool) : Nat → Nat → List Byte → List CfgRec × Option (Nat × Nat)
  | 0, off, _ => ([], some (0, off))
  | fuel + 1, off, bs =>
    let kind := fieldAt bs 0 2
    let n := fieldAt bs 2 2
    if bs.length < 8 then ([], some (0, off))
    else if n % 8 != 0 || decide (bs.length < 8 + n) || !ok kind ((bs.drop 8).take n) then ([], some (kind, off))
    else if kind = 0 then ([], none)
    else
      let (rs, e) := cfgRecords ok fuel (off + 8 + n) (bs.drop (8 + n))
      ({ kind, off, body := (bs.drop 8).take n } :: rs, e)

/-- A REGISTER_WRITE body: pairs of an offset in the register map, outside the debug windows, and a value. -/
def regWritesOk (body : List Byte) : Bool := (chunks 8 body).all fun p => Reg.listed (fieldAt p 0 4)

/-- The bodies of R477; those whose layout the spec does not give are laid out as log entry 24 says. -/
def configOk (kind : Nat) (body : List Byte) : Bool :=
  match kind with
  | 0 => body = []
  | 1 => regWritesOk body
  | 2 => body.length = 32
  | 3 => body.length = 8 && between 1 (fieldAt body 0 4) 20 && between 4 (fieldAt body 4 4) 50
  | 4 => decide (body.length ≤ 256)
  | 5 => body.length = 64
  | 6 => body.length = 8
  | _ => false

/-- The bodies of R478: ENERGY_COEF is eleven 4-byte values filled up to a multiple of 8. -/
def calOk (kind : Nat) (body : List Byte) : Bool :=
  match kind with
  | 0 => body = []
  | 0x101 | 0x102 | 0x103 | 0x105 => true
  | 0x104 => body.length = 48
  | _ => false

/-- The configuration records of an image. -/
def configOf (bs : List Byte) : List CfgRec × Option (Nat × Nat) := cfgRecords configOk (bs.length / 8 + 1) 0 bs

/-- OPERATOR_POLICY of a configuration: REQUIRE_IMAGE and LOCK_KEY; both clear without the record. -/
def policyOf (rs : List CfgRec) : Nat := ((rs.filter (·.kind = 6)).map fun r => fieldAt r.body 0 1 % 4).getLast?.getD 0

/-- What fails in a calibration section (R478): a reason (0 header, 1 signature, 2 SERIAL, 3 record; log entry 19) and a record type. -/
def calBad (bs key : List Byte) (serial : Nat) : Option (Nat × Nat) :=
  let body := bs.take (bs.length - 64)
  if bs.length < 128 ∨ fieldAt bs 0 4 != 0x5A43414C ∨ fieldAt bs 4 2 != 1 then some (0, 0)
  else if !hashSigOk key (sha256 body) (bs.drop (bs.length - 64)) then some (1, 0)
  else if fieldAt bs 16 16 != serial then some (2, 0)
  else (cfgRecords calOk (body.length / 8 + 1) 64 (body.drop 64)).2.map fun e => (3, e.1)

/-- The records of a calibration section. -/
def calRecords (bs : List Byte) : List CfgRec :=
  let body := bs.take (bs.length - 64)
  (cfgRecords calOk (body.length / 8 + 1) 64 (body.drop 64)).1

/-! ### The checks of R474 -/

/-- A failing check of R474, with the manifest entry concerned. -/
structure CheckFail where
  check : Nat
  entry : Nat
  deriving DecidableEq, Repr

namespace Source

def signed (src : Source) : Option CheckFail :=
  if sha256 src.vendorKey != Config.rootKeyHash then some ⟨2, 0⟩
  else if !hashSigOk src.vendorKey src.digest (src.sig 72 64) then some ⟨3, 0⟩
  else if src.operator && !src.operatorOk then some ⟨4, 0⟩
  else none

/-- Checks 1 to 4 but for the SERIAL test. -/
def checks14 (src : Source) (maxLen : Nat) : Option CheckFail :=
  match src.check1 maxLen with
  | some e => some ⟨1, e⟩
  | none => src.signed

/-- Checks 1 to 6 in order: the first that fails. -/
def checks (src : Source) (maxLen serial : Nat) : Option CheckFail :=
  match src.checks14 maxLen with
  | some f => some f
  | none =>
    if src.operator && !src.serialOk serial then some ⟨4, 0⟩ else
    match src.check5 with
    | some e => some ⟨5, e⟩
    | none => if bit (policyOf (configOf (src.bytesOf secConfig)).1) 0 && !src.operator then some ⟨6, 0⟩ else none

end Source

/-- The fault of a failing check, and its detail: check and section, or check and BUILD_ID (R474, R490). -/
def checkFault (f : CheckFail) (build : Nat) (d : Dev) : Dev :=
  match f.check with
  | 1 | 5 => d.raise .bootImageBad Dev.srcLantern [(1, f.check), (1, f.entry)]
  | 2 | 3 => d.raise .bootVendorSigFail Dev.srcLantern [(1, f.check), (8, build)]
  | _ => d.raise .bootOperatorFail Dev.srcLantern [(1, f.check), (8, build)]

/-! ### An image written through the module (R476) -/

namespace State

/-- The greatest LENGTH of an image: the NOR less its last MiB. -/
def imageMax (s : State) : Nat := 2 ^ s.dev.rd Reg.btNorSizeLog2 - 0x100000

/-- The serial of the module, as BT_SERIAL shows it. -/
def serial (s : State) : Nat := leNat ((List.range 4).flatMap fun i => leBytes 4 (s.dev.rd (Reg.btSerial i)))

/-- The staged bytes as an image. -/
def stagedImage (s : State) : Source := s.staged

/-- The image in the NOR. -/
def norImage (s : State) : Source := s.norRead

/-- Step 2: while a valid image runs, its policy. -/
def policyVerdict (s : State) : Option CheckFail :=
  let src := s.stagedImage
  if !s.dev.flag Reg.btStatusImageValid then none
  else if (s.dev.flag Reg.btNorRequireImage && !src.operator) || (s.dev.flag Reg.btNorLockKey && !(src.operator && src.operatorKey = s.dev.boot.imageKey))
    then some ⟨6, 0⟩ else none

/-- The calibration section that a supplied image with an empty CALIBRATION entry receives (step 3). -/
def calSource (s : State) : List Byte :=
  if s.dev.flag Reg.btStatusImageValid then s.dev.boot.cal
  else
    let bs := s.norImage.bytesOf secCal
    if (calBad bs s.stagedImage.vendorKey s.serial).isNone then bs else []

/-- Step 3: the section is placed after the sections before it, its entry's OFFSET, LENGTH and SHA-256 are rewritten; none when it does not fit before
the next section, or there is none to take. -/
def fillCal (s : State) : Option State :=
  let src := s.stagedImage
  match src.find secCal with
  | some (e, i) =>
    if e.len != 0 then some s else
    let cal := s.calSource
    let off := roundUp (((src.sections.take i).map fun p => p.off + p.len).foldl max (128 + 64 * src.count)) 4096
    let next := ((src.sections.drop (i + 1)).map (·.off)).foldl min src.length
    if cal = [] || decide (next < off + cal.length) then none else
    let entry := leBytes 8 off ++ leBytes 8 cal.length ++ sha256 cal
    let man := src 0 4096
    let at' := 128 + 64 * i + 8
    some ((s.stage off cal).stage 0 (man.take at' ++ entry ++ man.drop (at' + 48)))
  | none => none

/-- Step 4: the sectors that the image covers are erased, it is programmed and read back. `bad` is the NOR offset and reason of what fails in the
device (the model's own reasons: 0 erase, 1 program, 2 read-back). Answers whether the image is written. -/
def writeNor (s : State) (bad : Option (Nat × Nat)) : State × Bool :=
  let len := s.stagedImage.length
  let src := s.stagedImage 0 len
  let s := s.onMem fun m => (m.clearRange .nor 0 (roundUp len 0x10000)).write .nor 0 (src ++ List.replicate (roundUp len 0x10000 - len) 0xFF)
  let s := s.onDev (·.putFlag Reg.btStatusStaged false)
  match bad with
  | some (off, why) => (s.onDev (·.raise .imageWriteFail Dev.srcLantern [(4, off), (1, why)]), false)
  | none => (s.onDev fun d => (d.bump Ctr.btImageWrites).putFlag Reg.btStatusStaged true, true)

/-- Steps 2 to 4 of R476 on the staged bytes, after the verdict of step 1: whether the image was accepted and written. A refusal raises the fault of
its check. -/
def replaceImage (s : State) (verdict : Option CheckFail) (bad : Option (Nat × Nat)) : State × Bool :=
  let build := s.stagedImage.buildId
  match verdict.or s.policyVerdict with
  | some f => (s.onDev (checkFault f build), false)
  | none =>
    match s.fillCal with
    | none => (s.onDev (checkFault ⟨1, ((s.stagedImage.find secCal).map (·.2)).getD 0⟩ build), false)
    | some s => s.writeNor bad

/-- The whole procedure. -/
def supplyImage (s : State) (bad : Option (Nat × Nat)) : State × Bool :=
  s.replaceImage (s.stagedImage.checks s.imageMax s.serial) bad

end State

end Sys2Proof.Machine
end

