-- ==== Sys2Proof/Machine/Egress.lean ====
section
/-! DEFINITION. Egress scheduling and shaping (14_egress_scheduling.md R359 to R376). -/

namespace Sys2Proof.Machine

/-- Ethernet bytes of a queued frame from destination MAC to FCS (R361). -/
def QFrame.size (f : QFrame) : Nat := f.eth.length + f.zft.length + 8

/-- Buckets by number: of port p, S1 128p, S2 128p + 1 and tenant t 128p + 2 + t; of peer i, 1024 + i. -/
def bucketRate (b : Nat) : Field :=
  if 1024 ≤ b then Reg.egsPeerRate (b - 1024) else if b % 128 < 2 then Reg.egsRate (b / 128) (b % 128) else Reg.tntRate (b / 128) (b % 128 - 2)
def bucketBurst (b : Nat) : Field :=
  if 1024 ≤ b then Reg.egsPeerBurst (b - 1024) else if b % 128 < 2 then Reg.egsBurst (b / 128) (b % 128) else Reg.tntBurst (b / 128) (b % 128 - 2)

/-- The buckets a frame is charged to (R359). -/
def QFrame.buckets (f : QFrame) : List Nat :=
  if f.queue = 0 then [] else if f.queue = 1 then [128 * f.port]
  else if f.queue = 2 then [128 * f.port + 1, 1024 + f.peer] else [1024 + f.peer, 128 * f.port + 2 + f.tenant]

namespace Dev

def portUp (d : Dev) (p : Nat) : Bool := d.rd (Reg.portStatusState p) = 3

/-- L of R361. -/
def frameLen (d : Dev) (f : QFrame) : Nat := (max 1 ((f.size : Int) + toSigned 9 (d.val (Reg.egsPortCfgOverhead f.port)))).toNat

def bucketFull (d : Dev) (b : Nat) : Nat := 1000 * d.val (bucketBurst b)
def level (d : Dev) (b : Nat) : Nat := assocD (d.bucketFull b) b d.egs.levels
def setLevel (d : Dev) (b n : Nat) : Dev := { d with egs := { d.egs with levels := assocPut b n d.egs.levels } }

/-- R362: every bucket with a rate holds the frame. -/
def conforms (d : Dev) (f : QFrame) : Bool :=
  f.buckets.all fun b => d.val (bucketRate b) = 0 || decide (1000 * d.frameLen f ≤ d.level b)

def debit (d : Dev) (f : QFrame) : Dev :=
  (f.buckets.filter fun b => d.val (bucketRate b) != 0).foldl (fun d b => d.setLevel b (d.level b - 1000 * d.frameLen f)) d

/-- The frames of a queue, oldest first. -/
def queueOf (d : Dev) (p q : Nat) : List QFrame := d.egs.queues.filter fun f => f.port = p && f.queue = q

def queueBytes (d : Dev) (p q : Nat) : Nat := ((d.queueOf p q).map QFrame.size).sum

/-- The 32-bit trailer of a frame (R318, R320): the value of tap 1, from the lowest-numbered unit of POLY 2. -/
def frameTrailer (d : Dev) (seq : Nat) (zft : List Byte) : Nat :=
  match (d.cvuUnits 1).find? fun u => d.val (Reg.cvuCfgPoly u) = 2 with
  | some u => d.cvuValue u seq zft
  | none => Crypto.check32c seq zft

def zftSeq (zft : List Byte) : Nat := fieldAt zft 24 8

/-- A frame is placed in its queue, or discarded: at a port that is not UP (R343), or beyond the queue's limit (R367). -/
def enqueue (d : Dev) (f : QFrame) : Dev :=
  let f := { f with since := d.now }
  if !d.portUp f.port then (d.bump Ctr.fabDownDrops).bump (Ctr.egsDownDrops f.port)
  else if 1024 * d.val (Reg.egsQlimitKib f.port f.queue) < d.queueBytes f.port f.queue + f.size then
    let d := d.bump (Ctr.egsDrops f.port f.queue)
    if f.queue = 0 then
      let d := d.putFlag Reg.egsStatusS0Drop true
      if d.egs.dropSaid.contains f.port then d
      else { (d.raise .egsS0Drop srcFabric [(1, f.port), (8, d.epoch), (4, 1)]) with egs := { d.egs with dropSaid := d.egs.dropSaid ++ [f.port] } }
    else d
  else { d with egs := { d.egs with queues := d.egs.queues ++ [f] } }

/-- A frame starts transmission: its buckets are debited, its time is inserted, and its bytes leave the port (R349, R361, R362). -/
def transmit (d : Dev) (f : QFrame) : Dev :=
  let d := { d.debit f with egs := { (d.debit f).egs with queues := d.egs.queues.erase f } }
  let place := if f.stamp = 1 then 32 else if f.stamp = 2 then 56 else 72
  let zft := if f.stamp = 0 then f.zft else f.zft.take place ++ leBytes 8 d.now ++ f.zft.drop (place + 8)
  let t := f.trailer.getD (d.frameTrailer (zftSeq zft) zft)
  let d := if f.trailer.isSome then d else d.tapPass 1 (zftSeq zft) zft false
  let d := ((d.emit (.frame f.port f.peer f.queue (f.eth ++ zft ++ leBytes 4 t))).bump (Ctr.portFramesOut f.port)).bump (Ctr.portBytesOut f.port) f.size
  let d := (d.bump (Ctr.egsFrames f.port f.queue)).bump (Ctr.egsBytes f.port f.queue) (d.frameLen f)
  d.meterTenant f.tenant 11 f.size

/-! ### The weighted group (R364, R365) -/

def deficit (d : Dev) (p w : Nat) : Int := assocD 0 (p * 16 + 4 + w) d.egs.deficits
def setDeficit (d : Dev) (p w : Nat) (n : Int) : Dev := { d with egs := { d.egs with deficits := assocPut (p * 16 + 4 + w) n d.egs.deficits } }

/-- The candidate of a W queue: the oldest of its first 16 frames that conforms and has no older frame to its peer before it. -/
def candidateIn (d : Dev) : List Nat → List QFrame → Option QFrame
  | _, [] => none
  | seen, f :: rest => if !seen.contains f.peer && d.conforms f then some f else candidateIn d (f.peer :: seen) rest

def candidate (d : Dev) (p w : Nat) : Option QFrame := d.candidateIn [] ((d.queueOf p (4 + w)).take 16)

def visitOf (d : Dev) (p : Nat) : Nat × Bool := assocD (11, false) p d.egs.visits
def setVisit (d : Dev) (p w : Nat) (on : Bool) : Dev := { d with egs := { d.egs with visits := assocPut p (w, on) d.egs.visits } }

/-- Service of the weighted group at one choice: a visit under way goes on, or ends, and the next eligible queue is visited; a
queue with a negative deficit may need a further round. -/
def serveWeighted (p : Nat) : Nat → Dev → Dev
  | 0, d => d
  | fuel + 1, d =>
    let (w, on) := d.visitOf p
    let q := d.val (Reg.egsWCfgQuantum p w)
    if on then
      match d.candidate p w with
      | some f =>
        let l := d.frameLen f
        if (l : Int) ≤ d.deficit p w then
          let d := (d.transmit f).setDeficit p w (d.deficit p w - l)
          if d.queueOf p (4 + w) = [] then (d.setDeficit p w 0).setVisit p w false else d
        else serveWeighted p fuel ((d.setDeficit p w (min (d.deficit p w) q)).setVisit p w false)
      | none =>
        let left : Int := if d.queueOf p (4 + w) = [] then 0 else min (d.deficit p w) q
        serveWeighted p fuel ((d.setDeficit p w left).setVisit p w false)
    else
      match ((List.range 12).map fun i => (w + 1 + i) % 12).find? fun v => (d.candidate p v).isSome with
      | none => d
      | some v =>
        let qv : Int := d.val (Reg.egsWCfgQuantum p v)
        let d := (d.setDeficit p v (min (d.deficit p v + qv) (2 * qv))).setVisit p v true
        serveWeighted p fuel { d with egs := { d.egs with served := d.egs.served.filter (· != p * 16 + 4 + v) } }

/-- Urgent service (R366) of the lowest-numbered urgent queue whose oldest frame may be sent. -/
def serveUrgent (d : Dev) (p : Nat) : Option Dev :=
  ((List.range 12).filter fun w => d.egs.urgent.contains (p * 16 + 4 + w)).findSome? fun w =>
    match (d.queueOf p (4 + w)).head? with
    | some f =>
      if d.conforms f then
        let k := p * 16 + 4 + w
        let d := ((d.transmit f).setDeficit p w (d.deficit p w - d.frameLen f)).bump (Ctr.egsUrgent p (4 + w))
        let d := if d.queueOf p (4 + w) = [] then d.setDeficit p w 0 else d
        some { d with egs := { d.egs with urgent := d.egs.urgent.filter (· != k), served := d.egs.served ++ [k] } }
      else none
    | none => none

/-- The oldest frame of a strict queue, when it may be sent. -/
def strictHead (d : Dev) (p q : Nat) : Option QFrame := (d.queueOf p q).head?.filter d.conforms

/-- The choice of R360 on an UP port whose transmitter is idle. -/
def choose (d : Dev) (p : Nat) : Dev :=
  if !d.portUp p then d else
  match (d.strictHead p 0 <|> d.strictHead p 1 <|> d.strictHead p 2) with
  | some f => d.transmit f
  | none => match d.serveUrgent p with
    | some d => d
    | none => serveWeighted p 64 d

/-- Every frame of a port's queues is discarded; deficits and urgent marks go, bucket levels stay (R368). -/
def dropQueues (d : Dev) (p : Nat) : Dev :=
  let n := (d.egs.queues.filter (·.port = p)).length
  let d := (d.bump Ctr.fabDownDrops n).bump (Ctr.egsDownDrops p) n
  { d with egs := { d.egs with
    queues := d.egs.queues.filter (·.port != p), deficits := d.egs.deficits.filter (·.1 / 16 != p),
    urgent := d.egs.urgent.filter (· / 16 != p), served := d.egs.served.filter (· / 16 != p),
    visits := d.egs.visits.filter (·.1 != p) } }

/-- What entry to READY resets: every peer's sequence state, with the messages under way, and every bucket's level (R354, R362). -/
def resetFabric (d : Dev) : Dev :=
  { d with fab := { d.fab with peers := [], partials := [], inbox := [] }, egs := { d.egs with levels := [] } }

/-- A port leaves its states for DOWN (R353, R355): its queues are discarded when it was UP (R368). -/
def portDown (d : Dev) (p : Nat) : Dev :=
  let d := if d.portUp p then d.dropQueues p else d
  (d.put (Reg.portStatusState p) 0).put Reg.fabStatusPortUp (setBits (d.rd Reg.fabStatusPortUp) p 1 0)

/-- A parity failure of a queue descriptor or a bucket level (R376); when it repeats, Lantern clears the port's PORT_EN bit (R447). -/
def egressParity (d : Dev) (p : Nat) (bucket : Bool) (k : Nat) : Dev :=
  let d := if bucket then d.setLevel k (d.bucketFull k)
    else match (d.queueOf p k).head? with
      | some f => { d with egs := { d.egs with queues := d.egs.queues.erase f } }.bump (Ctr.egsDrops p k)
      | none => d
  let d := (d.raise .egsStateParity srcFabric [(1, p), (if bucket then 2 else 1, k)]).bump (Ctr.egsStateParity p)
  if d.val Reg.fltRepeatRepeatN ≤ d.repeats { code := .egsStateParity, source := srcFabric, first := p, epoch := d.epoch } then
    (d.put Reg.fabCtrlPortEn (d.rd Reg.fabCtrlPortEn / 2 ^ (p + 1) * 2 ^ (p + 1) + d.rd Reg.fabCtrlPortEn % 2 ^ p)).portDown p
  else d

/-- TOKEN_REFILL (R362, R363): RATE and BURST writes take effect, a bucket whose RATE leaves 0 is full, and levels rise. -/
def refill (d : Dev) : Dev :=
  let due := d.regs.waiting.filter (·.app = .refill)
  let old := (List.range (1024 + 4096)).filter fun b => due.contains (bucketRate b) || due.contains (bucketBurst b)
  let was := old.map fun b => (b, d.val (bucketRate b), d.level b)
  let d : Dev := due.foldl adopt { d with regs := { d.regs with waiting := d.regs.waiting.filter fun (f : Field) => f.app != Apply.refill } }
  let d := was.foldl (fun d (b, r, l) => d.setLevel b (if r = 0 && d.val (bucketRate b) != 0 then d.bucketFull b else l)) d
  let next := d.egs.levels.map fun (b, l) => (b, min (l + 8 * d.val (bucketRate b)) (d.bucketFull b))
  { d with egs := { d.egs with levels := next.filter fun (b, l) => l != d.bucketFull b } }

/-- QUEUE_URGENT (R366): a W queue whose oldest conforming frame has waited more than AGE_US. -/
def markUrgent (d : Dev) (p w : Nat) : Dev :=
  let k := p * 16 + 4 + w
  match (d.queueOf p (4 + w)).head? with
  | some f =>
    if 1000 * d.val (Reg.egsWCfgAgeUs p w) < d.now - f.since ∧ d.conforms f ∧ !d.egs.urgent.contains k ∧ !d.egs.served.contains k
    then { d with egs := { d.egs with urgent := d.egs.urgent ++ [k] } } else d
  | none => d

/-- EGRESS_SAMPLE (R369): depth and delay of every queue, while epochs run. -/
def sampleQueues (d : Dev) : Dev :=
  if !d.flag Reg.epcStatusRunning then d else
  (List.range 128).foldl (fun d k =>
    let (p, q) := (k / 16, k % 16)
    let n := d.queueBytes p q
    let t := ((d.queueOf p q).head?.map fun f => d.now - f.since).getD 0
    let s := assocD (⟨0, n, n, 0, t, t, 0⟩ : QSample) k d.egs.samples
    let s : QSample := ⟨s.n + 1, min s.depthMin n, max s.depthMax n, s.depthSum + n, min s.delayMin t, max s.delayMax t, s.delaySum + t⟩
    { d with egs := { d.egs with samples := assocPut k s d.egs.samples } }) d

/-- At a cairn the samples of the epoch that ended reach the observation registers. -/
def showSamples (d : Dev) : Dev :=
  let d := d.egs.samples.foldl (fun d (k, s) =>
    let (p, q) := (k / 16, k % 16)
    [s.depthMin, s.depthMax, s.depthSum / max 1 s.n, s.delayMin, s.delayMax, s.delaySum / max 1 s.n].zipIdx.foldl
      (fun d (v, i) => d.put (Reg.egsObs p q i) (min v (2 ^ 32 - 1))) d) d
  { d with egs := { d.egs with samples := [], dropSaid := [] } }

/-- TIME has reached `t`; the cairn window of a closing boundary ends 10 µs after it (R35, R36). -/
def clock (d : Dev) (t : Nat) : Dev :=
  if d.now < t then
    let past := !d.flag Reg.epcStatusRunning && decide (d.rd Reg.epcBoundary + 10000 ≤ t)
    { d.put Reg.epcTime t with epc := { d.epc with inCairn := d.epc.inCairn && !past } }
  else d

end Dev

/-! ### The commands -/

/-- EGRESS_CHOICE on a port at `t`, after a parity failure of a queue or bucket, if any. -/
def execEgressChoice (p t : Nat) (parity : Option (Bool × Nat)) (s : State) : Host.Outcome State Fault Refusal :=
  devOnly s fun d => if p < 8 then
      let d := d.clock t
      let d := match parity with | some (b, k) => d.egressParity p b k | none => d
      d.choose p
    else d

/-- TOKEN_REFILL. -/
def execTokenRefill (t : Nat) (s : State) : Host.Outcome State Fault Refusal := devOnly s fun d => (d.clock t).refill

/-- QUEUE_URGENT: queue Ww of a port. -/
def execQueueUrgent (p w t : Nat) (s : State) : Host.Outcome State Fault Refusal :=
  devOnly s fun d => if p < 8 ∧ w < 12 then (d.clock t).markUrgent p w else d

/-- EGRESS_SAMPLE. -/
def execEgressSample (t : Nat) (s : State) : Host.Outcome State Fault Refusal := devOnly s fun d => (d.clock t).sampleQueues

end Sys2Proof.Machine
end

