-- ==== Sys2Proof/Machine/Flash.lean ====
section
/-! DEFINITION. Flash: the logical block map, buffer sets and log blocks, reads and writes, background moves and the
flash steps (11_flash_translation.md R287 to R311). -/

namespace Sys2Proof.Machine

/-! ### Geometry and the two tables -/

def pageBytes : Nat := 16384

/-- SLC blocks of a buffer set: bits per native cell (R293). -/
def Dev.cellBits (d : Dev) : Nat := if d.rd Reg.flsGeomCell = 3 then 4 else 3
def Dev.slcPages (d : Dev) : Nat := d.rd Reg.flsBlocksSlcPages
/-- Pages of a native block, which are those of a logical block (R289). -/
def Dev.lbPages (d : Dev) : Nat := d.rd Reg.flsLbBytes / pageBytes
/-- Physical blocks of a channel (R290). -/
def Dev.chanBlocks (d : Dev) : Nat := (d.rd Reg.flsGeomCes + 1) * (d.rd Reg.flsGeomLuns + 1) * d.rd Reg.flsBlocksBlocksPerLun

def chanOf (lbn : Nat) : Nat := lbn % 32

/-- A map entry (R290). -/
structure MapEntry where
  pblock : Nat
  kind : Nat
  log : Bool
  wp : Bool
  tenant : Nat
  system : Bool
  deriving DecidableEq, Repr

def mapParse (n : Nat) : MapEntry :=
  { pblock := bits n 0 20, kind := bits n 20 2, log := bit n 22, wp := bit n 23, tenant := bits n 24 6, system := bit n 30 }

def mapEncode (e : MapEntry) : Nat :=
  e.pblock % 2 ^ 20 + e.kind % 4 * 2 ^ 20 + boolNat e.log * 2 ^ 22 + boolNat e.wp * 2 ^ 23 + e.tenant % 64 * 2 ^ 24
    + boolNat e.system * 2 ^ 30

def kUnmapped : Nat := 0
def kData : Nat := 1
def kBuffered : Nat := 2

/-- A physical block table entry (R290). -/
structure Pbe where
  erased : Nat
  state : Nat
  valid : Nat
  lbn : Nat
  deriving DecidableEq, Repr

def pbeParse (n : Nat) : Pbe := { erased := bits n 0 24, state := bits n 24 4, valid := bits n 28 12, lbn := bits n 40 23 }
def pbeEncode (e : Pbe) : Nat := e.erased % 2 ^ 24 + e.state % 16 * 2 ^ 24 + e.valid % 4096 * 2 ^ 28 + e.lbn % 2 ^ 23 * 2 ^ 40

/-- The block states in the order R290 lists them (log entry 16). -/
def bFree : Nat := 0
def bData : Nat := 1
def bSlcFree : Nat := 2
def bSlcBuffer : Nat := 3
def bLog : Nat := 4
def bSystem : Nat := 5
def bFactoryBad : Nat := 6
def bGrownBad : Nat := 7

namespace State

def mapBits (s : State) (lbn : Nat) : Nat := s.devNat (s.dev.rd Reg.flsMapBase + 4 * lbn) 4

/-- The entry of a logical block; a reserved KIND reads as UNMAPPED. -/
def mapEntry (s : State) (lbn : Nat) : MapEntry :=
  let e := mapParse (s.mapBits lbn)
  if e.kind = 3 then { e with kind := kUnmapped, log := false } else e

/-- FLASH_MAP_BAD, when an entry is read that carries the reserved KIND. -/
def mapLook (s : State) (lbn : Nat) : State :=
  if (mapParse (s.mapBits lbn)).kind = 3 then s.onDev (·.raise .flashMapBad Dev.srcFlash [(3, lbn), (4, s.mapBits lbn)]) else s

/-- The entries of several logical blocks are read. -/
def mapLooks (s : State) (lbns : List Nat) : State := lbns.foldl mapLook s

/-- A map change, journalled before it takes effect (R305). -/
def putMap (s : State) (lbn : Nat) (e : MapEntry) : State :=
  let s := s.onDev fun d => { d with fls := { d.fls with journal := d.fls.journal ++ [(lbn, mapEncode e)], journalSeq := d.fls.writeSeq } }
  s.devWrite (s.dev.rd Reg.flsMapBase + 4 * lbn) (leBytes 4 (mapEncode e))

def pbtAddr (s : State) (ch pb : Nat) : Nat := s.dev.rd Reg.flsPbtBase + 8 * (ch * s.dev.chanBlocks + pb)
def pbe (s : State) (ch pb : Nat) : Pbe := pbeParse (s.devNat (s.pbtAddr ch pb) 8)

def putPbe (s : State) (ch pb : Nat) (e : Pbe) : State :=
  (s.devWrite (s.pbtAddr ch pb) (leBytes 8 (pbeEncode e))).onDev fun d =>
    { d with fls := { d.fls with pbt := assocPut (ch * 2 ^ 20 + pb) (pbeEncode e) d.fls.pbt } }

/-- The blocks of a channel in a state, in ascending index. -/
def blocksIn (s : State) (ch st : Nat) : List Nat := (List.range s.dev.chanBlocks).filter fun pb => (s.pbe ch pb).state = st

/-- Lowest erase count, ties to the lowest index (R296); greatest with `hi` (R297). -/
def pickBlock (s : State) (ch : Nat) (hi : Bool) (pbs : List Nat) : Option Nat :=
  pbs.foldl (fun best pb => match best with
    | none => some pb
    | some b =>
      let x := (s.pbe ch pb).erased
      let y := (s.pbe ch b).erased
      if (if hi then y < x else x < y) then some pb else some b) none

/-- The registers of a channel follow its tables (R313). -/
def showChannel (s : State) (ch : Nat) : State :=
  let good := s.blocksIn ch bFree ++ s.blocksIn ch bData
  let ecs := good.map fun pb => (s.pbe ch pb).erased
  s.onDev fun d =>
    ((((d.put (Reg.chFreeCount ch) (s.blocksIn ch bFree).length).put (Reg.chSlcFreeCount ch) (s.blocksIn ch bSlcFree).length).put
      (Reg.chEcMinCount ch) (ecs.foldl min (ecs.headD 0))).put (Reg.chEcMaxCount ch) (ecs.foldl max 0)).put
      (Reg.chLogsCount ch) (d.fls.logs.filter fun l => chanOf l.lbn = ch).length

def offline (s : State) (ch : Nat) : Bool := s.dev.flag (Reg.chStatusOffline ch)
def readOnly (s : State) (ch : Nat) : Bool := s.dev.flag (Reg.chStatusReadOnly ch)

/-! ### Pages -/

/-- The key of a page of a physical block. -/
def nandKey (ch pb page : Nat) : Nat := ((ch * 2 ^ 20 + pb) * 2 ^ 12 + page) * pageBytes

def nandPage (s : State) (ch pb page : Nat) : List Byte × Bool :=
  (s.mem.read .nand (nandKey ch pb page) pageBytes, s.mem.isPoisoned .nand (nandKey ch pb page) pageBytes)

/-- Programs one page: the bytes, the counters, the write sequence. -/
def program (s : State) (ch pb page : Nat) (data : List Byte) (poison : Bool) : State :=
  ({ s with mem := s.mem.store .nand (nandKey ch pb page) (padTo pageBytes data) poison }).onDev fun d =>
    let d := (d.bump Ctr.flsPagesProgrammed).bump Ctr.flsNandBytesWritten pageBytes
    { d with fls := { d.fls with writeSeq := d.fls.writeSeq + 1 } }

def setOf (s : State) (lbn : Nat) : Option BufSet := s.dev.fls.sets.find? (·.lbn = lbn)
def logOf (s : State) (lbn : Nat) : Option LogBlock := s.dev.fls.logs.find? (·.lbn = lbn)

/-- A page of a set: block and page within it. -/
def setPlace (d : Dev) (b : BufSet) (page : Nat) : Nat × Nat := (b.blocks.getD (page / max 1 d.slcPages) 0, page % max 1 d.slcPages)

/-- Where the newest copy of a logical page lies; `none` for a page never written (R292, R294). -/
def pagePlace (s : State) (lbn page : Nat) : Option (Nat × Nat) :=
  let e := s.mapEntry lbn
  let inLog := match s.logOf lbn with
    | some l => if e.log then ((List.range l.pages.length).filter fun i => l.pages.getD i 0 = page).getLast?.map fun i => (l.pblock, i) else none
    | none => none
  match inLog with
  | some p => some p
  | none =>
    if e.kind = kData then some (e.pblock, page)
    else if e.kind = kBuffered then
      match s.setOf lbn with
      | some b => if page < b.written then some (setPlace s.dev b page) else none
      | none => none
    else none

/-- The bytes of a logical page with their poison. -/
def flashPage (s : State) (lbn page : Nat) : List Byte × Bool :=
  match s.pagePlace lbn page with
  | some (pb, i) => s.nandPage (chanOf lbn) pb i
  | none => (List.replicate pageBytes 0, false)

/-- Bytes of a logical block. -/
def flashBytes (s : State) (lbn off len : Nat) : List Byte × Bool :=
  if len = 0 then ([], false) else
  let first := off / pageBytes
  let ps := (List.range ((off + len - 1) / pageBytes + 1 - first)).map fun i => s.flashPage lbn (first + i)
  (((ps.flatMap (·.1)).drop (off % pageBytes)).take len, ps.any (·.2))

/-- Bytes of a flash home: `off` counts from the start of its first logical block. -/
def flashRun (s : State) (lbn off len : Nat) : List Byte × Bool :=
  let lb := max 1 (s.dev.rd Reg.flsLbBytes)
  if len = 0 then ([], false) else
  let ks := (List.range ((off + len - 1) / lb + 1 - off / lb)).map fun i =>
    let n := off / lb + i
    let lo := max off (n * lb)
    let hi := min (off + len) ((n + 1) * lb)
    s.flashBytes (lbn + n) (lo - n * lb) (hi - lo)
  (ks.flatMap (·.1), ks.any (·.2))

/-! ### Failures and reserves (R304) -/

/-- SPARE_c is lowered and its thresholds are tested. -/
def lessSpare (s : State) (ch : Nat) : State :=
  s.onDev fun d =>
    let before := d.rd (Reg.chSpareCount ch)
    let n := before - 1
    let d := d.put (Reg.chSpareCount ch) n
    let low := 2 * d.val Reg.flsGcGcLow
    let crit := d.val Reg.flsGcGcCrit
    let d := if n < low ∧ low ≤ before then (d.raise .flashReserveLow srcFlash [(1, ch), (4, n)]).putFlag Reg.flsStatusReserveLow true else d
    if n < crit ∧ !d.flag (Reg.chStatusReadOnly ch) then
      ((d.raise .flashReadOnly srcFlash [(1, ch), (4, n)]).putFlag (Reg.chStatusReadOnly ch) true).putFlag Reg.flsStatusReadOnly true
    else d
where srcFlash := Dev.srcFlash

/-- A block is retired as grown bad. -/
def retire (s : State) (ch pb : Nat) : State :=
  let e := s.pbe ch pb
  ((s.putPbe ch pb { e with state := bGrownBad, valid := 0 }).onDev (·.bump Ctr.flsGrownBad)).lessSpare ch

/-- A freed block waits for its erase (R298, class 10). -/
def freeBlock (s : State) (ch pb : Nat) : State :=
  let s := s.putPbe ch pb { s.pbe ch pb with valid := 0, lbn := 0 }
  s.onDev fun d => { d with fls := { d.fls with erases := d.fls.erases ++ [(ch, pb)] } }

/-- Takes a block from a free list: it is now in state `st` for logical block `lbn`. -/
def takeBlock (s : State) (ch from' st lbn : Nat) : Option (State × Nat) :=
  (s.pickBlock ch false (s.blocksIn ch from')).map fun pb => (s.putPbe ch pb { s.pbe ch pb with state := st, valid := 0, lbn }, pb)

/-- Takes `n` blocks. -/
def takeBlocks (s : State) (ch from' st lbn : Nat) : Nat → Option (State × List Nat)
  | 0 => some (s, [])
  | n + 1 => match s.takeBlock ch from' st lbn with
    | none => none
    | some (s, pb) => match takeBlocks s ch from' st lbn n with
      | none => none
      | some (s, pbs) => some (s, pb :: pbs)

/-- A failed SLC program: the pages already in the block are copied to a new SLC block, the old one is retired, and a good
native block joins the SLC pool (R304). Answers the new block. -/
def slcFail (s : State) (ch pb pages lbn cls : Nat) : Option (State × Nat) :=
  let st := (s.pbe ch pb).state
  match s.takeBlock ch bSlcFree st lbn with
  | none => none
  | some (s, nb) =>
    let s := s.onDev (·.raise .flashProgramFail Dev.srcFlash [(1, ch), (4, pb), (1, cls)])
    let s := (List.range pages).foldl (fun s i => let (bs, bad) := s.nandPage ch pb i; s.program ch nb i bs bad) s
    let s := (s.putPbe ch nb { s.pbe ch nb with valid := pages }).retire ch pb
    let s := match s.takeBlock ch bFree bSlcFree 0 with
      | some (s, _) => s
      | none => s
    some (s, nb)

/-! ### Page writes (R292 to R294) -/

/-- The next free buffer-set index of a channel. -/
def freeSetIndex (s : State) (ch : Nat) : Nat :=
  let used := (s.dev.fls.sets.filter fun b => chanOf b.lbn = ch).map (·.index)
  ((List.range (used.length + 1)).find? fun i => !used.contains i).getD 0

def putSet (s : State) (b : BufSet) : State :=
  s.onDev fun d => { d with fls := { d.fls with sets := (d.fls.sets.filter (·.lbn != b.lbn)) ++ [b] } }

def putLog (s : State) (l : LogBlock) : State :=
  s.onDev fun d => { d with fls := { d.fls with logs := (d.fls.logs.filter (·.lbn != l.lbn)) ++ [l] } }

/-- The page map of a log names the newest copy of each page: a copy in the log of a page that its set takes now is the older one (R294). -/
def supersede (s : State) (lbn page : Nat) : State :=
  match s.logOf lbn with
  | some l => if l.pages.contains page then s.putLog { l with pages := l.pages.map fun q => if q = page then 2 ^ 12 else q } else s
  | none => s

/-- A page into a buffer set; `ok` says that its program passed. -/
def writeToSet (s : State) (b : BufSet) (data : List Byte) (poison ok : Bool) : Option State :=
  let ch := chanOf b.lbn
  let (pb, i) := setPlace s.dev b b.written
  let s := s.supersede b.lbn b.written
  let step (s : State) (b : BufSet) (pb : Nat) : State :=
    let s := (s.program ch pb i data poison).putSet { b with written := b.written + 1 }
    (s.putPbe ch pb { s.pbe ch pb with valid := i + 1 }).showChannel ch
  if ok then some (step s b pb)
  else (s.slcFail ch pb i b.lbn 3).map fun (s, nb) => step s { b with blocks := b.blocks.map fun x => if x = pb then nb else x } nb

/-- A page into a log block. -/
def writeToLog (s : State) (l : LogBlock) (page : Nat) (data : List Byte) (poison ok : Bool) : Option State :=
  let ch := chanOf l.lbn
  let i := l.pages.length
  let step (s : State) (l : LogBlock) : State :=
    let s := (s.program ch l.pblock i data poison).putLog { l with pages := l.pages ++ [page], last := s.dev.fls.writeSeq + 1 }
    (s.putPbe ch l.pblock { s.pbe ch l.pblock with valid := i + 1 }).showChannel ch
  if ok then some (step s l) else (s.slcFail ch l.pblock i l.lbn 3).map fun (s, nb) => step s { l with pblock := nb }

/-- Is this the page a logical block's buffer set takes next (R292)? -/
def goesToSet (s : State) (lbn page : Nat) : Bool :=
  let e := s.mapEntry lbn
  if e.kind = kUnmapped then page = 0
  else if e.kind = kBuffered then (s.setOf lbn).any fun b => b.written = page
  else false

/-- One page write; `none` while it must wait for a fold or a merge. -/
def writePage (s : State) (lbn page : Nat) (data : List Byte) (poison ok : Bool) : Option State :=
  let s := s.mapLook lbn
  let ch := chanOf lbn
  let e := s.mapEntry lbn
  if s.goesToSet lbn page then
    match s.setOf lbn with
    | some b => if e.kind = kBuffered then s.writeToSet b data poison ok else none
    | none =>
      match s.takeBlocks ch bSlcFree bSlcBuffer lbn s.dev.cellBits with
      | none => none
      | some (s, pbs) =>
        let b : BufSet := { index := s.freeSetIndex ch, lbn, blocks := pbs, written := 0, opened := s.dev.fls.writeSeq }
        ((s.putSet b).putMap lbn { e with pblock := b.index, kind := kBuffered }).writeToSet b data poison ok
  else
    match s.logOf lbn with
    | some l => if l.pages.length < s.dev.slcPages then s.writeToLog l page data poison ok else none
    | none =>
      if 16 ≤ (s.dev.fls.logs.filter fun l => chanOf l.lbn = ch).length then none else
      match s.takeBlock ch bSlcFree bLog lbn with
      | none => none
      | some (s, pb) =>
        let l : LogBlock := { lbn, pblock := pb, pages := [], last := s.dev.fls.writeSeq }
        ((s.putLog l).putMap lbn { e with log := true }).writeToLog l page data poison ok

/-! ### Background moves (R293 to R301) -/

/-- An uncorrectable codeword (R302): the fault, the register, the counter and the datum that is LOST. -/
def flashUncorrectable (s : State) (lbn page cw : Nat) : State :=
  (s.onDev fun d => ((d.raise .flashUncorrectable Dev.srcFlash [(1, chanOf lbn), (3, lbn), (2, page), (1, cw)]).bump Ctr.flsUncorrectable).put
    Reg.flsErr (lbn + page % 4096 * 2 ^ 23 + cw % 4 * 2 ^ 35)).loseAt 2 lbn

/-- A source page of a move: zero words with poison in the codewords `bad` names. -/
def movePage (s : State) (bad : List (Nat × Nat)) (lbn page : Nat) : List Byte × Bool :=
  let (bs, p) := s.flashPage lbn page
  let hit := [0, 1, 2, 3].filter fun k => bad.contains (page, k)
  (hit.foldl (fun bs k => bs.take (4096 * k) ++ List.replicate 4096 0 ++ bs.drop (4096 * (k + 1))) bs, p || hit != [])

/-- Builds a native block from the newest copy of every page of a logical block: `fails` destination blocks fail their
program first, `hi` takes the free block with the highest erase count, and `cls` is the class of the work in R298 (R295, R304). -/
def buildNative (s : State) (lbn : Nat) (hi : Bool) (cls : Nat) (bad : List (Nat × Nat)) : Nat → Option (State × Nat)
  | 0 =>
    let ch := chanOf lbn
    match s.pickBlock ch hi (s.blocksIn ch bFree) with
    | none => none
    | some pb =>
      let n := s.dev.lbPages
      let pages := (List.range n).map (s.movePage bad lbn)
      let read := ((List.range n).filter fun p => (s.pagePlace lbn p).isSome).length
      let s := bad.foldl (fun s (p, k) => s.flashUncorrectable lbn p k) s
      let s := (pages.zip (List.range n)).foldl (fun s ((bs, p), i) => s.program ch pb i bs p) s
      some ((s.putPbe ch pb { s.pbe ch pb with state := bData, valid := n, lbn }).onDev (·.bump Ctr.flsCodewordsRead (4 * read)), pb)
  | k + 1 =>
    let ch := chanOf lbn
    match s.pickBlock ch hi (s.blocksIn ch bFree) with
    | none => none
    | some pb => ((s.onDev (·.raise .flashProgramFail Dev.srcFlash [(1, ch), (4, pb), (1, cls)])).retire ch pb).buildNative lbn hi cls bad k

/-- The SLC blocks of a logical block's set and log are freed, with the data block it had. -/
def freeOld (s : State) (lbn : Nat) (e : MapEntry) : State :=
  let ch := chanOf lbn
  let old := (if e.kind = kData then [e.pblock] else ((s.setOf lbn).map (·.blocks)).getD []) ++ ((s.logOf lbn).map fun l => [l.pblock]).getD []
  let s := old.foldl (fun s pb => s.freeBlock ch pb) s
  s.onDev fun d => { d with fls := { d.fls with sets := d.fls.sets.filter (·.lbn != lbn), logs := d.fls.logs.filter (·.lbn != lbn) } }

/-- The logical block is rebuilt in one native block, remapped, and what it had is freed. -/
def rebuild (s : State) (lbn fails : Nat) (hi : Bool) (cls : Nat) (bad : List (Nat × Nat)) (count : Nat) : State :=
  let s := s.mapLook lbn
  let e := s.mapEntry lbn
  match s.buildNative lbn hi cls bad fails with
  | none => s
  | some (t, pb) =>
    let t := t.putMap lbn { e with pblock := pb, kind := kData, log := false }
    ((t.freeOld lbn e).onDev (·.bump count)).showChannel (chanOf lbn)

/-- The class of a merge in R298: 2 while its channel has fewer than GC_CRIT free native blocks, else 7. -/
def mergeClass (s : State) (ch : Nat) : Nat := if (s.blocksIn ch bFree).length < s.dev.val Reg.flsGcGcCrit then 2 else 7

/-- Does any page wait for a new log block of the channel? -/
def wantsLog (s : State) (ch : Nat) : Bool :=
  s.dev.fls.progs.any fun p => chanOf p.lbn = ch && !s.goesToSet p.lbn p.page && (s.logOf p.lbn).isNone

def chanLogs (s : State) (ch : Nat) : List LogBlock := s.dev.fls.logs.filter fun l => chanOf l.lbn = ch

/-- The first of a list by a key, ties to the smaller second key. -/
def least {α : Type} (key : α → Nat × Nat) (xs : List α) : Option α :=
  xs.foldl (fun b x => match b with
    | none => some x
    | some y => if (key x).1 < (key y).1 || (key x).1 = (key y).1 && (key x).2 < (key y).2 then some x else some y) none

/-- The oldest open set of a channel. -/
def oldestSet (s : State) (ch : Nat) : Option BufSet :=
  least (fun b => (b.opened, b.lbn)) (s.dev.fls.sets.filter fun b => chanOf b.lbn = ch)

/-- FOLD of a logical block's set: full, or the oldest of a channel with fewer than 32 free SLC blocks (R293, R299). -/
def fold (s : State) (lbn fails : Nat) (bad : List (Nat × Nat)) : State :=
  let ch := chanOf lbn
  match s.setOf lbn with
  | none => s
  | some b =>
    let low := decide ((s.blocksIn ch bSlcFree).length < 32) && (s.oldestSet ch).any (·.lbn = lbn)
    let full := decide (s.dev.lbPages ≤ b.written) && s.dev.on Reg.flsCtrlBgEn
    if (low || full) && !s.readOnly ch && !s.offline ch then
      let s := s.mapLook lbn
      let e := s.mapEntry lbn
      match s.buildNative lbn false 6 (bad.filter fun x => x.1 < b.written) fails with
      | none => s
      | some (t, pb) =>
        let t := t.putMap lbn { e with pblock := pb, kind := kData }
        let t := b.blocks.foldl (fun t x => t.freeBlock ch x) t
        ((t.onDev fun d => { d with fls := { d.fls with sets := d.fls.sets.filter (·.lbn != lbn) } }).onDev (·.bump Ctr.flsFolds)).showChannel ch
    else s

/-- A full merge of R294: of a full log, or of the log least recently written when a write needs one of 16. -/
def logMerge (s : State) (lbn fails : Nat) (bad : List (Nat × Nat)) : State :=
  let ch := chanOf lbn
  match s.logOf lbn with
  | none => s
  | some l =>
    let full := decide (s.dev.slcPages ≤ l.pages.length) && s.dev.on Reg.flsCtrlBgEn
    let need := decide (16 ≤ (s.chanLogs ch).length) && s.wantsLog ch && (least (fun l => (l.last, l.lbn)) (s.chanLogs ch)).any (·.lbn = lbn)
    let stuck := decide (s.dev.slcPages ≤ l.pages.length) && s.dev.fls.progs.any (·.lbn = lbn)
    if (full || need || stuck) && !s.readOnly ch && !s.offline ch then s.rebuild lbn fails false (s.mergeClass ch) bad Ctr.flsLogMerges else s

/-- Pages of a logical block's data block or set that its log does not supersede. -/
def unsuperseded (s : State) (l : LogBlock) : Nat :=
  let e := s.mapEntry l.lbn
  let n := if e.kind = kData then s.dev.lbPages else ((s.setOf l.lbn).map (·.written)).getD 0
  ((List.range n).filter fun p => !l.pages.contains p).length

/-- The victim of garbage collection (R296). -/
def victim (s : State) (ch : Nat) : Option LogBlock :=
  let block (l : LogBlock) : Nat :=
    let e := s.mapEntry l.lbn
    if e.kind = kData then e.pblock else (((s.setOf l.lbn).map (·.blocks)).getD []).headD 0
  least (fun l => (s.unsuperseded l, (s.pbe ch (block l)).erased * 2 ^ 20 + block l)) (s.chanLogs ch)

/-- The map entries that the choice of a victim reads. -/
def lookVictims (s : State) (ch : Nat) : State := s.mapLooks ((s.chanLogs ch).map (·.lbn))

/-- GC_MERGE on a channel with fewer than GC_LOW free native blocks; below GC_CRIT it is of class 2 and needs no BG_EN. -/
def gcMerge (s : State) (ch fails : Nat) (bad : List (Nat × Nat)) : State :=
  let free := (s.blocksIn ch bFree).length
  if free < s.dev.val Reg.flsGcGcLow && (s.dev.on Reg.flsCtrlBgEn || decide (free < s.dev.val Reg.flsGcGcCrit)) && !s.readOnly ch && !s.offline ch then
    match s.victim ch with
    | some l => (s.lookVictims ch).rebuild l.lbn fails false (s.mergeClass ch) bad Ctr.flsGcMerges
    | none => s
  else s

/-- RELOCATION of a queued logical block to a fresh native block (R301). -/
def relocateBlock (s : State) (lbn fails : Nat) (bad : List (Nat × Nat)) : State :=
  let ch := chanOf lbn
  if s.dev.fls.relocate.contains lbn && s.dev.on Reg.flsCtrlBgEn && !s.offline ch && (s.mapEntry lbn).kind != kUnmapped then
    (s.rebuild lbn fails false 8 bad Ctr.flsRelocations).onDev fun d =>
      { d with fls := { d.fls with relocate := d.fls.relocate.filter (· != lbn) } }
  else s

/-- WEAR_CHECK of one channel, and the wear move it starts (R297). -/
def wearCheck (s : State) (ch : Nat) : State :=
  let free := s.blocksIn ch bFree
  let ecs := (free ++ s.blocksIn ch bData).map fun pb => (s.pbe ch pb).erased
  let spread := ecs.foldl max 0 - ecs.foldl min (ecs.headD 0)
  if s.dev.val Reg.flsWearWearSpread < spread && s.dev.on Reg.flsCtrlBgEn && !s.offline ch then
    let srcs := (s.blocksIn ch bData).filter fun pb =>
      let e := s.mapEntry (s.pbe ch pb).lbn
      e.kind = kData && e.pblock = pb && !e.log
    match s.pickBlock ch false srcs with
    | some pb => (s.mapLooks ((s.blocksIn ch bData).map fun pb => (s.pbe ch pb).lbn)).rebuild (s.pbe ch pb).lbn 0 true 9 [] Ctr.flsWearMoves
    | none => s
  else s

/-- MAP_CHECKPOINT (R305): the journal is folded into the checkpoint. -/
def checkpoint (s : State) : State :=
  s.onDev fun d => { d with fls := { d.fls with
    ckpt := d.fls.journal.foldl (fun m (k, v) => assocPut k v m) d.fls.ckpt, journal := [], ckptEpoch := d.epoch } }

/-- Background work runs in READY, ACTIVE and DRAIN, once the map is rebuilt, and the sequencers start no new program or erase while the input
has not recovered from a VIN trip (R305, R312). -/
def unlessVin (s : State) (f : State → State) : State := if s.dev.aon.vinAt.isSome || !s.dev.flag Reg.flsStatusReady then s else f s

/-- A freed home's logical blocks are unmapped and their blocks freed without a copy (R296). -/
def unmapBlock (s : State) (lbn : Nat) : State :=
  let s := s.mapLook lbn
  let e := s.mapEntry lbn
  ((s.putMap lbn { pblock := 0, kind := kUnmapped, log := false, wp := false, tenant := 0, system := false }).freeOld lbn e).showChannel (chanOf lbn)

/-! ### Reads in the sequencers (R300 to R302, R308, R250) -/

/-- The status byte of a read: as it is, or mapped to a row status (R308). -/
def readStatus (row : Bool) (st : Nat) : Nat := if row then [0, 4, 0, 2, 3].getD st 0 else st

/-- Poison on every granule of bytes written before. -/
def locSpoil (s : State) (c : Nat) (l : Loc) (n : Nat) : State := if n = 0 then s else s.locWrite c l (s.locRead c l n).1 true

/-- Writes a read's bytes and statuses to all their places; poison in it spoils the step's other outputs too (R94). -/
def deliver (s : State) (r : FlashRead) (bs : List Byte) (st : Nat) (poison : Bool) : State :=
  let bad := poison || r.dirty
  let s := r.dsts.foldl (fun s a => s.locWrite r.chamber (locOf r.chamber a) bs bad) s
  let s := r.stats.foldl (fun s a => s.locWrite r.chamber (locOf r.chamber a) [BitVec.ofNat 8 (readStatus r.row st)] r.dirty) s
  if poison then r.outs.foldl (fun s o => s.locSpoil r.chamber (locOf r.chamber o.1) o.2) s else s

/-- The access counter of a row gains 1 and stays at 0xFFFF (R225). -/
def touchRow (s : State) (a : Nat) : State :=
  if a = 0 then s else s.devWrite a (leBytes 2 (min 0xFFFF (s.devNat a 2 + 1)))

/-- Read `k` of the queue has its codewords: they are classified, and unless the read is late its bytes are delivered. -/
def readComplete (s : State) (k : Nat) (cws : List Codeword) : State :=
  match s.dev.fls.reads[k]? with
  | none => s
  | some r =>
    if s.dev.fls.progs.any fun p => p.lbn = r.lbn && (decide (p.origin < r.origin) || p.origin = r.origin && decide (p.slot < r.slot)) && decide (p.page * pageBytes < r.off + r.len) && decide (r.off < (p.page + 1) * pageBytes) then s else
    let s := s.mapLook r.lbn
    let first := r.off / 4096
    let n := (r.off + r.len - 1) / 4096 + 1 - first
    let cw (i : Nat) : Codeword := cws.getD i ⟨0, 0, false, true⟩
    let tries (i : Nat) : Nat := if (cw i).ok then min (cw i).retries (s.dev.val Reg.flsReadRetryMax) else s.dev.val Reg.flsReadRetryMax
    let badAt := (List.range n).filter fun i => !(cw i).ok
    let s := s.onDev fun d =>
      let d := ((d.bump Ctr.flsCodewordsRead n).bump Ctr.flsReadRetries ((List.range n).map tries).sum).bump Ctr.flsCorrectedBits
        ((List.range n).map fun i => if (cw i).ok then (cw i).corrected else 0).sum
      let again := (List.range n).any fun i => decide (1 ≤ tries i) || (cw i).heavy
      let d := d.meterTenant r.tenant 8 n
      { d with fls := { d.fls with
        reads := d.fls.reads.eraseIdx k,
        level := match ((List.range n).filter fun i => (cw i).ok).getLast? with
          | some i => assocPut r.lbn (assocD 0 r.lbn d.fls.level + tries i) d.fls.level
          | none => d.fls.level,
        relocate := if again && !d.fls.relocate.contains r.lbn then d.fls.relocate ++ [r.lbn] else d.fls.relocate } }
    let s := badAt.foldl (fun s i => s.flashUncorrectable r.lbn ((first + i) / 4) ((first + i) % 4)) s
    let (bs, bad) := s.flashBytes r.lbn r.off r.len
    let s := s.onDev (·.tapPass 2 (r.lbn * s.dev.rd Reg.flsLbBytes + r.off) bs (bad || badAt != []))
    if r.late then s.onDev (·.bump Ctr.tierLateArrivals)
    else if badAt != [] then (s.deliver r (List.replicate r.len 0) 2 true).touchRow r.counter
    else (s.deliver r bs 0 bad).touchRow r.counter

/-- The DEADLINE slot of a deadline-mode read's step has ended: what is not delivered is LATE (R250). -/
def readsLate (s : State) (c idx : Nat) : State :=
  let due (r : FlashRead) : Bool := r.chamber = c && r.idx = idx && r.deadline && !r.late
  let rs := s.dev.fls.reads.filter due
  let s := rs.foldl (fun s r =>
    let s := s.deliver r (List.replicate r.len 0) 1 false
    if r.row then s.onDev (·.bump Ctr.rowRowsLate) else s) s
  s.onDev fun d => { d with fls := { d.fls with reads := d.fls.reads.map fun r => if due r then { r with late := true } else r } }

/-! ### The steps -/

/-- How many leading costs a budget holds beside `fixed`: at least one. -/
def fitCount (fixed budget : Nat) (costs : List Nat) : Nat :=
  max 1 (costs.foldl (fun (acc : Nat × Nat) c => if acc.1 + c ≤ budget then (acc.1 + c, acc.2 + 1) else (budget + 1, acc.2)) (fixed, 0)).2

end State

/-- An extent of a list (R307). -/
structure Extent where
  lbn : Nat
  off : Nat
  len : Nat
  dst : Nat
  deriving DecidableEq, Repr

def extentParse (b : List Byte) : Extent := ⟨fieldAt b 0 4, fieldAt b 4 4, fieldAt b 8 4, fieldAt b 12 4⟩

/-- An operand in the form of A_ADDR moved on by `n` bytes. -/
def addrPlus (a n : Nat) : Nat := a + n

/-- The status an extent has at issue: 3 BAD_EXTENT, 4 OFFLINE, or 0 for a read that is queued (R308). -/
def extentStatus (s : State) (tenant cap : Nat) (e : Extent) : Nat :=
  if s.dev.rd Reg.flsLbCount ≤ e.lbn || e.lbn ≥ 2 ^ 23 || e.len = 0 || decide (s.dev.rd Reg.flsLbBytes < e.off + e.len) || decide (cap < e.dst + e.len) then 3
  else
    let m := s.mapEntry e.lbn
    if !m.system && m.tenant != tenant then 3 else if s.offline (chanOf e.lbn) then 4 else 0

/-- One extent of a FLASHREAD comes to issue. -/
def issueExtent (p : FlashReadP) (x : Ctx) (dirty : Bool) (s : State) (i : Nat) (e : Extent) : State :=
  let s := if e.lbn < s.dev.rd Reg.flsLbCount then s.mapLook e.lbn else s
  let st := extentStatus s x.hdr.tenant p.dstCap e
  let r : FlashRead :=
    { chamber := x.c, idx := x.hdr.index, origin := x.origin, slot := x.hdr.slot, tenant := x.hdr.tenant, lbn := e.lbn,
      off := e.off, len := e.len, dsts := [addrPlus p.dstAddr e.dst], stats := [addrPlus p.statusAddr i], row := false, table := 0, counter := 0,
      deadline := bit p.mode 0, late := false, dirty, outs := [] }
  if st = 0 then s.onDev fun d => { d with fls := { d.fls with reads := d.fls.reads ++ [r] } }
  else s.deliver { r with dsts := if e.dst + e.len ≤ p.dstCap then r.dsts else [] } (List.replicate e.len 0) st (st = 4)

/-- FLASHREAD (R307 to R309). -/
def flashReadRun (p : FlashReadP) (x : Ctx) (s : State) : State × Option (List Nat) :=
  let start := x.resume.getD 0 0
  let (s, list, bad) := s.locUse x (locOf x.c p.listAddr) (16 * p.count)
  let es := (chunks 16 list).map extentParse
  let costs := (es.drop start).map fun e => ceilDiv e.len 512
  let n := min (p.count - start) (State.fitCount (ceilDiv p.count 16 + 32) x.hdr.budget costs)
  let s := (List.range n).foldl (fun s i => issueExtent p x bad s (start + i) (es.getD (start + i) ⟨0, 0, 0, 0⟩)) s
  let s := if bad then s.onDev (·.putFlag (Reg.arithStatusPoisoned x.c) true) else s
  (s, if start + n < p.count then some [start + n] else none)

/-- The reason a FLASHWRITE is refused, in the order R310 lists them (log entry 17). -/
def writeReason (s : State) (tenant : Nat) (p : FlashWriteP) : Option Nat :=
  let m := s.mapEntry p.lbn
  if !s.dev.on Reg.flsCtrlWriteEn then some 1
  else if s.dev.rd Reg.flsLbCount ≤ p.lbn then some 2
  else if m.system || m.tenant != tenant then some 3
  else if m.wp then some 4
  else if s.readOnly (chanOf p.lbn) || s.offline (chanOf p.lbn) then some 5
  else none

/-- FLASHWRITE (R310): its pages are read and queued for their programs. -/
def flashWriteRun (p : FlashWriteP) (x : Ctx) (s : State) : State × Option (List Nat) :=
  if s.dev.lbPages < p.page + p.pages then
    (s.onDev (·.raise .planBadStep Dev.srcLantern [(1, s.dev.rd Reg.plnCtrlActiveBank), (1, x.c), (2, x.hdr.index)]), none)
  else
  let s := if p.lbn < s.dev.rd Reg.flsLbCount then s.mapLook p.lbn else s
  match writeReason s x.hdr.tenant p with
  | some why =>
    let ch := chanOf p.lbn
    (s.onDev fun d =>
      let d := (d.raise .flashWriteRefused Dev.srcFlash [(1, x.c), (2, x.hdr.index), (3, p.lbn), (1, why)] true).abandon x
      if why = 5 && d.flag (Reg.chStatusReadOnly ch) && !d.fls.withdrawn.contains ch then
        { d.withdraw with fls := { d.fls with withdrawn := d.fls.withdrawn ++ [ch] } } else d, none)
  | none =>
    let start := x.resume.getD 0 0
    let n := unitsNow x.hdr 32 32 (p.pages - start)
    let src := locOf x.c p.srcAddr
    let pages := (List.range n).map fun i => (start + i, s.locRead x.c (src.plus (pageBytes * (start + i))) pageBytes)
    let s := s.onDev fun d =>
      let d := d.tapPass 3 (p.lbn * d.rd Reg.flsLbBytes + pageBytes * (p.page + start)) (pages.flatMap (·.2.1)) (pages.any (·.2.2))
      let queued : List FlashProg := pages.map fun (i, bs, bad) =>
        { chamber := x.c, idx := x.hdr.index, origin := x.origin, slot := x.hdr.slot, tenant := x.hdr.tenant, lbn := p.lbn, page := p.page + i,
          data := bs, poison := bad }
      { d with fls := { d.fls with progs := d.fls.progs ++ queued } }
    (s, if start + n < p.pages then some [start + n] else none)

/-- Is a queued page before another of its logical block in the order of R311: (slot, chamber, INDEX), epoch by epoch? -/
def FlashProg.before (a b : FlashProg) : Bool :=
  let key (q : FlashProg) : List Nat := [q.origin, q.slot, q.chamber, q.idx, q.page]
  a.lbn = b.lbn && decide (key a < key b)

/-- Page `k` of the program queue has its status read: it is routed and stored, on a failure in another block (R292, R304, R305, R311). -/
def State.programComplete (s : State) (k : Nat) (ok : Bool) : State :=
  match s.dev.fls.progs[k]? with
  | none => s
  | some p =>
    if s.dev.fls.progs.any (·.before p) then s else
    match s.writePage p.lbn p.page p.data p.poison ok with
    | none => s
    | some t => t.onDev fun d =>
      let d := (d.bump Ctr.flsPlanBytesWritten pageBytes).meterTenant p.tenant 9 1
      { d with fls := { d.fls with progs := d.fls.progs.eraseIdx k } }

/-- The erase of a freed block ends (R304): a good one joins its free list. While BG_EN is 0 it waits until its channel is short of blocks (R299). -/
def State.eraseComplete (s : State) (ch pb : Nat) (ok : Bool) : State :=
  let waits := !s.dev.on Reg.flsCtrlBgEn && decide (s.dev.val Reg.flsGcGcLow ≤ (s.blocksIn ch bFree).length)
  if !s.dev.fls.erases.contains (ch, pb) || waits then s else
  let s := s.onDev fun d => { d with fls := { d.fls with erases := d.fls.erases.erase (ch, pb) } }
  let e := s.pbe ch pb
  let slc := e.state = bSlcBuffer || e.state = bLog
  (if ok then (s.putPbe ch pb { erased := e.erased + 1, state := if slc then bSlcFree else bFree, valid := 0, lbn := 0 }).onDev (·.bump Ctr.flsBlocksErased)
   else
    let s := (s.onDev (·.raise .flashEraseFail Dev.srcFlash [(1, ch), (4, pb)])).retire ch pb
    if slc then (match s.takeBlock ch bFree bSlcFree 0 with | some (s, _) => s | none => s) else s).showChannel ch

/-! ### The commands -/

/-- FLASHREAD. -/
def execFlashread (c : Nat) (h : Hdr) (p : FlashReadP) (us : List Upset) (s : State) : Host.Outcome State Fault Refusal :=
  stepCmd c h (.flashRead p) us (flashReadRun p) s

/-- FLASHREAD_DEADLINE of the step with that INDEX in a chamber. -/
def execFlashreadDeadline (c idx : Nat) (s : State) : Host.Outcome State Fault Refusal := done (s.readsLate c idx)

/-- FLASHWRITE. -/
def execFlashwrite (c : Nat) (h : Hdr) (p : FlashWriteP) (us : List Upset) (s : State) : Host.Outcome State Fault Refusal :=
  stepCmd c h (.flashWrite p) us (flashWriteRun p) s

/-- FLASH_READ_COMPLETE of queued read `k`. -/
def execFlashReadComplete (k : Nat) (cws : List Codeword) (s : State) : Host.Outcome State Fault Refusal := done (s.readComplete k cws)

/-- FLASH_PROGRAM_COMPLETE of queued page `k`. -/
def execFlashProgramComplete (k : Nat) (ok : Bool) (s : State) : Host.Outcome State Fault Refusal := done (s.programComplete k ok)

/-- FLASH_ERASE_COMPLETE of a block. -/
def execFlashEraseComplete (ch pb : Nat) (ok : Bool) (s : State) : Host.Outcome State Fault Refusal := done (s.eraseComplete ch pb ok)

/-- FOLD. -/
def execFold (lbn fails : Nat) (bad : List (Nat × Nat)) (s : State) : Host.Outcome State Fault Refusal := done (s.unlessVin (·.fold lbn fails bad))

/-- LOG_MERGE. -/
def execLogMerge (lbn fails : Nat) (bad : List (Nat × Nat)) (s : State) : Host.Outcome State Fault Refusal := done (s.unlessVin (·.logMerge lbn fails bad))

/-- GC_MERGE on a channel. -/
def execGcMerge (ch fails : Nat) (bad : List (Nat × Nat)) (s : State) : Host.Outcome State Fault Refusal := done (s.unlessVin (·.gcMerge ch fails bad))

/-- RELOCATION. -/
def execRelocation (lbn fails : Nat) (bad : List (Nat × Nat)) (s : State) : Host.Outcome State Fault Refusal := done (s.unlessVin (·.relocateBlock lbn fails bad))

/-- MAP_CHECKPOINT. -/
def execMapCheckpoint (s : State) : Host.Outcome State Fault Refusal := done (s.unlessVin (·.checkpoint))

/-- WEAR_CHECK on every channel, in ascending number. -/
def execWearCheck (s : State) : Host.Outcome State Fault Refusal := done (s.unlessVin fun s => (List.range 32).foldl State.wearCheck s)

end Sys2Proof.Machine
end

