-- ==== Sys2Proof/Machine/Homes.lean ====
section
/-! DEFINITION. Moves of homes, and the strata controller's scrub and row repair (09_memory_tiers_and_homes.md R237 to
R253, 21_register_map.md R511). -/

namespace Sys2Proof.Machine

open Sys2Proof.Crypto

/-- The stripes that `n` bytes at a stack address touch, as (stack, stripe). -/
def stripesOf (a n : Nat) : List (Nat × Nat) :=
  if a < 0x1000000000 || n = 0 then [] else
    let o := a - 0x1000000000
    let st := o / 0xC00000000
    let first := o % 0xC00000000 / 0x100000
    (List.range ((o % 0xC00000000 + n - 1) / 0x100000 + 1 - first)).map fun i => (st, first + i)

/-- The column of a strata address, or 256 plus the stack of a stack address. -/
def pathOf (a : Nat) : Nat := if a < 0x1000000000 then a / 0x4000000 else 256 + (a - 0x1000000000) / 0xC00000000

namespace Dev

/-- The completion of a ring entry without a reply (R406). -/
def endEntry (e : HostRef) (epoch result status : Nat) : Completion :=
  { fn := e.fn, ring := e.ring, tenant := e.tenant, seq := e.seq, epoch, check := 0, bytes := 0, result, status, addr := 0, gone := e.gone }

/-- The stand-in function of a bulk load that came over the fabric: it has no ring, so nothing completes there (R335). -/
def fabricFn : Nat := 32

/-- The completions that have a ring. -/
def rung (cs : List Completion) : List Completion := cs.filter fun c => c.fn != fabricFn

/-- The completions of the entries that asked for the moves that `which` picks. -/
def entryEnds (d : Dev) (which : MoveWork → Bool) (epoch status : Nat) : List Completion :=
  rung ((d.tier.moves.filter which).filterMap fun w => w.entry.map fun (e : HostRef) => endEntry e epoch 0 status)

/-- The move of a datum is over: its work is forgotten, and a ring entry that has not completed does so now (R407). -/
def endMove (d : Dev) (datum status : Nat) : Dev :=
  let cs := d.entryEnds (fun w => w.datum = datum && !w.done) 0 status
  { d with tier := { d.tier with moves := d.tier.moves.filter (·.datum != datum) }, host := { d.host with ended := d.host.ended ++ cs } }

/-- The entry of a move that has reached COPIED completes; its work is kept where the flip is still to tell of it or brings in a weight block
(R102, R406). -/
def doneMove (d : Dev) (datum : Nat) : Dev :=
  let cs := d.entryEnds (fun w => w.datum = datum && !w.done) 0 0
  { d with tier := { d.tier with moves := (d.tier.moves.filter fun w => w.datum != datum || w.notify || w.weight != 0).map fun w =>
             if w.datum = datum then { w with done := true } else w },
           host := { d.host with ended := d.host.ended ++ cs } }

/-- The flip notice of a move, whose work is over. -/
def flipNotice (d : Dev) (datum : Nat) : Dev :=
  let cs := d.entryEnds (fun w => w.datum = datum && w.notify) d.epoch 0
  { d with tier := { d.tier with moves := d.tier.moves.filter (·.datum != datum) }, host := { d.host with ended := d.host.ended ++ cs } }

/-- A block that the host has written again is no longer damaged (R120). -/
def mendWeight (d : Dev) (a : Nat) : Dev :=
  { d with cvu := { d.cvu with damaged := d.cvu.damaged.erase a, reloading := d.cvu.reloading.erase a, attempts := d.cvu.attempts.filter (·.1 != a) } }

/-- The weight block of a datum, as loaded. -/
def blockOf (d : Dev) (datum : Nat) : Option WeightBlock := d.fls.blocks.find? (·.datum = datum)

/-- A datum holds this weight block from now on, or none (R102, R121). -/
def setBlock (d : Dev) (datum : Nat) (b : Option WeightBlock) : Dev :=
  { d with fls := { d.fls with blocks := d.fls.blocks.filter (·.datum != datum) ++ b.toList } }

end Dev

namespace State

/-- TIER_MOVE_CHECK (R243, R244, R262). -/
def moveCheck (s : State) (datum kind chunk : Nat) : State :=
  s.onDev (·.raise .tierMoveCheck Dev.srcLantern [(4, datum), (1, kind), (4, chunk)])

/-- Logical blocks of a flash range: owner and WP (R290). -/
def ownBlocks (s : State) (owner first len : Nat) (wp : Bool) : State :=
  (List.range (s.extent 2 first len).2).foldl (fun s i =>
    let s := s.mapLook (first + i)
    let e := s.mapEntry (first + i)
    s.putMap (first + i) { e with tenant := if owner = 64 then 0 else owner, system := owner = 64, wp }) s

/-- May a MAPPED datum exchange its granules with `dest` (R241, R262)? -/
def mappedOk (s : State) (r : HomeRec) (dest : Nat) : Bool :=
  r.home % 65536 = 0 && dest % 65536 = 0 && pathOf r.home = pathOf dest && pathOf (dest + r.length - 1) = pathOf dest
    && pathOf (r.home + r.length - 1) = pathOf r.home
    && (decide (r.home < 0x1000000000) || (dest % 0x100000 = r.home % 0x100000
        && ((stripesOf r.home r.length ++ stripesOf dest r.length).map fun x => s.dev.stripeMode x.1 x.2).eraseDups.length = 1
        && !(stripesOf r.home r.length ++ stripesOf dest r.length).any fun x => s.dev.stripeMode x.1 x.2 = 2))

/-- Does a range lie in the part of its tier that holds homes (R233)? -/
def inTierRange (s : State) (tier first len : Nat) : Bool :=
  if tier = 2 then decide (first + (s.extent 2 first len).2 ≤ s.dev.rd Reg.flsLbCount)
  else if tier = 0 then inOneColumn first len && first % 64 = 0
  else State.inTier first len && decide (0x1000000000 ≤ first) && first % 64 = 0

/-- The request of a move or replacement (R242, R237, R243, R247, R262): the status is 0 when it is made, and the code of
R407 when it is refused. `written` says that plans or policy write the datum. -/
def askMove (s : State) (datum kind tier dest arm : Nat) (written : Bool) (w : MoveWork) : State × Nat :=
  if !s.homesReady || decide (s.dev.val Reg.homeCount ≤ datum) then (s, 7) else
  let s := s.tellBad
  match s.homeGet datum with
  | none => (s, 7)
  | some r =>
    if r.state != hsHome || !s.inTierRange tier dest r.length then (s, 7)
    else if written && (r.tier = 2 || tier = 2) then (s.moveCheck datum kind 0, 9)
    else if r.referrer = 1 && !(r.tier = tier && s.mappedOk r dest) then (s.moveCheck datum kind 0, 9)
    else match s.homeOverlap tier dest r.length with
    | some o => (s.onDev (·.raise .tierHomeOverlap Dev.srcLantern [(1, ownerOf r), (5, dest), (8, r.length), (4, o)]), 7)
    | none =>
      let (d, ok) := s.dev.charge (ownerOf r) tier (s.dev.chargeOf tier r.length)
      let s := { s with dev := d }
      if !ok then (s, 6) else
      let r := { r with state := hsCopying, destTier := tier, dest, kind, arm := arm % 2 ^ 32, freeAt := 0, chunksLeft := ceilDiv r.length 4096 }
      let s := if r.tier = 2 then s.ownBlocks (ownerOf r) r.home r.length true else s
      let s := if tier = 2 then s.ownBlocks (ownerOf r) dest r.length true else s
      ((s.onDev fun d => { d.bump Ctr.tierMovesStarted with tier := { d.tier with moves := d.tier.moves ++ [w] } }).setHome r, 0)

/-- A range is freed and credited at the next cairn (R244, R247). -/
def freeLater (s : State) (datum owner tier first len : Nat) : State :=
  s.onDev fun d => { d with tier := { d.tier with freeDue := d.tier.freeDue ++ [(datum, owner, tier, first, len)] } }

/-- A record with no datum (R239). -/
def emptyHome (n : Nat) : HomeRec :=
  { datum := n, owner := 0, state := hsEmpty, tier := 0, destTier := 0, home := 0, length := 0, dest := 0, referrer := 0, kind := 0, arm := 0,
    freeAt := 0, chunksLeft := 0 }

/-- A datum that serves no longer: its record is EMPTY, and its home is freed at the next cairn. -/
def dropDatum (s : State) (n : Nat) : State :=
  match s.homeGet n with
  | some r => if r.state = hsHome then (s.freeLater n (ownerOf r) r.tier r.home r.length).setHome (emptyHome n) else s
  | none => s

/-- The move of a record is abandoned (R244): the destination is freed at the next cairn, the record is HOME again, and the reload copy of a weight
block that was to replace its content goes with it. -/
def abandonMove (s : State) (r : HomeRec) (status : Nat) : State :=
  let copies := (s.dev.tier.moves.filter fun w => w.datum = r.datum && w.weight != 0).map (·.copy)
  let s := (s.freeLater r.datum (ownerOf r) r.destTier r.dest r.length).onDev fun d => (d.bump Ctr.tierMovesAbandoned).endMove r.datum status
  let s := copies.foldl dropDatum s
  let s := if r.tier = 2 then s.ownBlocks (ownerOf r) r.home r.length false else s
  s.setHome { r with state := hsHome, dest := 0, chunksLeft := 0, kind := 0 }

/-- Every move before its flip is abandoned: on leaving ACTIVE, DRAIN and READY (R244). -/
def abandonMoves (s : State) : State :=
  let s := s.tellBad
  (s.homes.filter fun r => r.state = hsCopying || r.state = hsCopied).foldl (fun s r => s.abandonMove r 9) s

/-- At a cairn the destinations of abandoned moves are credited, and flash ones unmapped. -/
def freeAbandoned (s : State) : State :=
  let due := s.dev.tier.freeDue
  let s := due.foldl (fun s (_, o, t, a, n) =>
    let s := s.onDev fun d => d.credit o t (d.chargeOf t n)
    if t = 2 then (List.range (s.extent 2 a n).2).foldl (fun s i => s.unmapBlock (a + i)) s else s) s
  s.onDev fun d => { d with tier := { d.tier with freeDue := d.tier.freeDue.drop due.length } }

/-! ### Chunks -/

/-- Bytes of a range of a tier, as readers see them. -/
def tierRead (s : State) (tier first off len : Nat) : List Byte × Bool :=
  if tier = 2 then s.flashRun first off len else s.devRead (first + off) len

/-- A run of bytes into a tier; into flash page by page, the last page filled with zeros. `none` while a page must wait. -/
def tierWrite (s : State) (tier first off : Nat) (bs : List Byte) (poison : Bool) : Option State :=
  if tier = 2 then
    let lb := max 1 (s.dev.rd Reg.flsLbBytes)
    ((chunks pageBytes bs).zip (List.range (ceilDiv bs.length pageBytes))).foldl (fun acc (part, i) =>
      let o := off + pageBytes * i
      acc.bind fun s => (s.writePage (first + o / lb) (o % lb / pageBytes) part poison true).map
        (·.onDev (·.bump Ctr.flsPlanBytesWritten pageBytes))) (some s)
  else some (s.devWrite (first + off) bs poison)

/-- The controller that copies a record's chunks, and the chunks it may still copy in this epoch. -/
def moveController (r : HomeRec) : Nat := if r.destTier = 2 || r.tier = 2 then Dev.srcFlash else controllerOf r.dest

def chunkAllowance (s : State) (k : Nat) : Nat := s.dev.val Reg.tierMoveRateChunks - assocD 0 k s.dev.tier.copied

/-- The bytes of chunks `k` to `k + n - 1` of a move: from the home, or of the load, with zeros up to LENGTH. -/
def chunkBytes (s : State) (r : HomeRec) (k n : Nat) : List Byte × Bool :=
  let len := min (4096 * n) (r.length - 4096 * k)
  if r.kind = 0 then s.tierRead r.tier r.home (4096 * k) len
  else
    let c := ((s.dev.tier.moves.find? (·.datum = r.datum)).map (·.content)).getD []
    (padTo len ((c.drop (4096 * k)).take len), false)

/-- What a copy carries over of its source's poison: each 32-byte granule of `n` bytes at `a` that is poisoned is so at `b` too. -/
def carryPoison (s : State) (a b n : Nat) : State :=
  (List.range (ceilDiv n 32)).foldl (fun s i => if s.devPoison (a + 32 * i) 1 then s.devMark (b + 32 * i) 1 true else s) s

/-- Does a channel of one of these logical blocks accept no tier-move chunk: is it READ_ONLY or OFFLINE (R288, R304)? -/
def closedTo (s : State) (first last : Nat) : Bool := (List.range (last + 1 - first)).any fun i => s.readOnly (chanOf (first + i)) || s.offline (chanOf (first + i))

/-- The map entries of a range's logical blocks, where it lies in flash, are read (R290). -/
def lookRange (s : State) (tier first len : Nat) : State :=
  if tier = 2 then s.mapLooks ((List.range (s.extent 2 first len).2).map (first + ·)) else s

/-- Up to `n` chunks of a move are copied, unless an admitted run writes rows of theirs, which is a wait (R271); after `retries` aborted bursts (R242, R243); into flash in whole pages. -/
def copyChunks (s : State) (datum n retries : Nat) : State :=
  match s.homeGet datum with
  | none => s.homeBad datum
  | some r =>
    if r.state != hsCopying then s else
    let total := ceilDiv r.length 4096
    let k := total - r.chunksLeft
    let c := moveController r
    let m := min (min n r.chunksLeft) (s.chunkAllowance c)
    let m := if r.destTier = 2 && m < r.chunksLeft then m / 4 * 4 else m
    let flash := r.destTier = 2
    let waits : List Nat := ([(r.tier, r.home), (r.destTier, r.dest)].filter fun x => x.1 = 1 && s.dev.runMeets (x.2 + 4096 * k) (4096 * m)).map fun x =>
      (x.2 - 0x1000000000) / 0xC00000000
    if waits != [] && m != 0 then s.onDev fun d => waits.eraseDups.foldl (fun d st => d.bump (Ctr.stkPimHolds st)) d
    else if m = 0 || (flash && s.closedTo (r.dest + 4096 * k / max 1 (s.dev.rd Reg.flsLbBytes)) (r.dest + (4096 * (k + m) - 1) / max 1 (s.dev.rd Reg.flsLbBytes))) then s
    else if (flash && (s.dev.aon.vinAt.isSome || !(s.dev.on Reg.flsCtrlWriteEn && s.dev.on Reg.flsCtrlBgEn))) then s else
    let s := if r.kind = 0 then s.lookRange r.tier r.home r.length else s
    let (bs, bad) := s.chunkBytes r k m
    let direct := r.kind = 0 && r.tier != 2 && !flash
    match s.tierWrite r.destTier r.dest (4096 * k) bs (bad && !direct) with
    | none => s
    | some t =>
      let t := if direct then t.carryPoison (r.home + 4096 * k) (r.dest + 4096 * k) bs.length else t
      let t := t.onDev fun d =>
        let d := if flash then (d.tapPass 3 (r.dest * d.rd Reg.flsLbBytes + 4096 * k) bs bad).meterTenant (ownerOf r) 9 (ceilDiv bs.length pageBytes) else d
        let d := (d.bump Ctr.tierChunksCopied m).bump Ctr.tierChunkRetries retries
        { d with tier := { d.tier with copied := assocPut c (assocD 0 c d.tier.copied + m) d.tier.copied } }
      t.setHome { r with chunksLeft := r.chunksLeft - m }

/-- After the last chunk the destination is verified against the check value of the source or of the load, folded with the
readers' address (R242); poison in it, or a mismatch, abandons the move. -/
def checkMove (s : State) (datum : Nat) : State :=
  match s.homeGet datum with
  | none => s.homeBad datum
  | some r =>
    if r.state != hsCopying || r.chunksLeft != 0 then s else
    let s := s.lookRange r.destTier r.dest r.length
    let readers := if r.referrer = 1 then r.home else if r.destTier = 2 then r.dest * s.dev.rd Reg.flsLbBytes else r.dest
    let (bs, bad) := s.tierRead r.destTier r.dest 0 r.length
    let w := s.dev.tier.moves.find? (·.datum = datum)
    let source := s.chunkBytes r 0 (ceilDiv r.length 4096)
    let differs (k : Nat) : Bool :=
      (s.tierRead r.destTier r.dest (4096 * k) (min 4096 (r.length - 4096 * k))).2
        || (bs.drop (4096 * k)).take 4096 != (source.1.drop (4096 * k)).take 4096
    let first := ((List.range (ceilDiv r.length 4096)).find? differs).getD 0
    let want : Option Nat := if r.kind = 0 then some (check32c readers (s.tierRead r.tier r.home 0 r.length).1) else w.bind fun w => w.expect.map (·.1)
    let got : Nat := if r.kind = 0 then check32c readers bs else check32c readers (bs.take ((w.bind fun w => w.expect.map (·.2)).getD r.length))
    if bad || want.any (· != got) then ((s.moveCheck datum r.kind first).abandonMove r (if r.kind = 1 then 4 else 9))
    else (s.setHome { r with state := hsCopied }).onDev (·.doneMove datum)

/-! ### Flips and frees -/

/-- The home maps exchange the granules of two ranges (R241). -/
def swapGranules (s : State) (a b n : Nat) : State :=
  (List.range (ceilDiv n 65536)).foldl (fun s i =>
    let g := a / 65536 + i
    let h := b / 65536 + i
    let x := assocD g g s.dev.homeMap
    let y := assocD h h s.dev.homeMap
    s.onDev fun d => { d with homeMap := (assocPut g y (assocPut h x d.homeMap)).filter fun e => e.1 != e.2 }) s

/-- Is a COPIED record due to flip: at or after ARM, moves enabled, a PLAN record at a completed bank switch whose new plan names DEST, and a
MAPPED one while its controller's map is trusted (R240, R242, R258)? -/
def flipDue (s : State) (r : HomeRec) : Bool :=
  r.state = hsCopied && s.dev.on Reg.tierCtrlMovesEn && wrapLe r.arm (s.dev.epoch % 2 ^ 32)
    && (r.referrer != 2 || (s.dev.epc.switchedAt = some s.dev.epoch && s.planNames r.destTier r.dest (s.extent r.destTier r.dest r.length).2))
    && (r.referrer != 1 || !s.dev.tier.mapStop.contains (controllerOf r.home))
where wrapLe (a b : Nat) : Bool := decide ((b + 2 ^ 32 - a % 2 ^ 32) % 2 ^ 32 < 2 ^ 31)

/-- Does it flip now: in a cairn, and no record of a lower DATUM is due (R36, R242)? -/
def flipsNow (s : State) (r : HomeRec) : Bool :=
  s.dev.epc.inCairn && s.flipDue r && !s.homes.any fun q => decide (q.datum < r.datum) && s.flipDue q

/-- The address that a datum's readers use, to which its check values are folded (R241). -/
def readersOf (s : State) (r : HomeRec) : Nat := if r.tier = 2 then r.home * s.dev.rd Reg.flsLbBytes else r.home

/-- The weight block of a datum after its flip, with `r` its record then: a MOVE takes it along; a REPLACE brings in the block it has loaded, which
is no longer damaged, and the reload copy of the block before it serves no longer (R102, R120, R121). -/
def flipBlock (s : State) (r : HomeRec) (kind : Nat) : State :=
  let old := s.dev.blockOf r.datum
  let made (elements copy : Nat) : WeightBlock :=
    { datum := r.datum, base := s.readersOf r, elements, copy, owner := r.owner, tier := r.tier, home := r.home, length := r.length, referrer := r.referrer }
  if kind = 0 then s.onDev fun d => d.setBlock r.datum (old.map fun b => made b.elements b.copy)
  else
    let s := match old with | some b => s.dropDatum b.copy | none => s
    match s.dev.tier.moves.find? fun w => w.datum = r.datum && w.weight != 0 with
    | some w => s.onDev fun d => (d.setBlock r.datum (some (made w.weight w.copy))).mendWeight (s.readersOf r)
    | none => s.onDev (·.setBlock r.datum none)

/-- The flip of a record (R240, R242): `refs` are the referring fields Lantern rewrites, as (device address, bytes). Writes to
the source of a MOVE since its copy have gone to both ranges (R243). A MAPPED record keeps HOME and DEST, whose granules are exchanged. -/
def flipHome (s : State) (datum : Nat) (refs : List (Nat × List Byte)) : State :=
  match s.homeGet datum with
  | none => s.homeBad datum
  | some r =>
    if !s.flipsNow r then s else
    let freeAt := (s.dev.epoch + if r.referrer = 2 then 16 else 1) % 2 ^ 32
    let s := if r.tier = 2 then s.ownBlocks (ownerOf r) r.home r.length false else s
    let s := if r.destTier = 2 then s.ownBlocks (ownerOf r) r.dest r.length false else s
    let s := if r.referrer = 0 then refs.foldl (fun s (a, bs) => s.devWrite a bs) s else s
    let new : HomeRec := if r.referrer = 1 then { r with state := hsReleasing, freeAt }
      else { r with state := hsReleasing, freeAt, home := r.dest, dest := r.home, tier := r.destTier, destTier := r.tier }
    let s := if r.referrer = 1 then s.swapGranules r.home r.dest r.length else s
    ((s.setHome new).flipBlock new r.kind).onDev fun d => (d.bump Ctr.tierMovesFlipped).flipNotice datum

/-- The old range of a RELEASING record is freed and credited at its FREE_AT (R242, R247); flash blocks are unmapped (R296). -/
def freeHome (s : State) (datum : Nat) : State :=
  match s.homeGet datum with
  | none => s.homeBad datum
  | some r =>
    if s.dev.epc.inCairn && r.state = hsReleasing && r.freeAt = s.dev.epoch % 2 ^ 32 then
      let s := s.onDev fun d => d.credit (ownerOf r) r.destTier (d.chargeOf r.destTier r.length)
      let s := if r.destTier = 2 then (List.range (s.extent 2 r.dest r.length).2).foldl (fun s i => s.unmapBlock (r.dest + i)) s else s
      s.setHome { r with state := hsHome, dest := 0, destTier := 0, freeAt := 0 }
    else s

/-- A move cancelled before its flip (R244). -/
def cancelMove (s : State) (datum : Nat) : State :=
  match s.homeGet datum with
  | none => s.homeBad datum
  | some r => if r.state = hsCopying || r.state = hsCopied then s.abandonMove r 9 else s

/-! ### Reload copies (R121) -/

/-- The bytes of a reload copy, when it is a sound flash home. -/
def reloadCopy (s : State) (datum : Nat) : Option (List Byte × Bool) :=
  match s.homeGet datum with
  | some r => if r.tier = 2 && r.state = hsHome then some (s.flashRun r.home 0 r.length) else none
  | none => none

/-- The map entries of a datum's flash home are read (R290). -/
def lookDatum (s : State) (datum : Nat) : State := match s.homeGet datum with | some r => s.lookRange r.tier r.home r.length | none => s

/-- Where Lantern puts a reload copy of `n` bytes beside datum `datum`, with the logical blocks `x.1` to `x.1 + x.2 - 1` kept for that: the lowest
EMPTY record, and the lowest logical block from which that many bytes are free (log entry 138). -/
def copyPlace (s : State) (datum n : Nat) (x : Nat × Nat) : Option (Nat × Nat) :=
  let ends := (s.homes.filter fun r => r.state != hsEmpty).flatMap fun r =>
    (if r.tier = 2 then [r.home + (s.extent 2 r.home r.length).2] else []) ++ if r.destTier = 2 then [r.dest + (s.extent 2 r.dest r.length).2] else []
  let due := (s.dev.tier.freeDue.filter fun x => x.2.2.1 = 2).map fun x => x.2.2.2.1 + (s.extent 2 x.2.2.2.1 x.2.2.2.2).2
  let free := ([0, x.1 + x.2] ++ ends ++ due).filter fun a => s.inTierRange 2 a n && (s.homeOverlap 2 a n).isNone
    && (decide (a + (s.extent 2 a n).2 ≤ x.1) || decide (x.1 + x.2 ≤ a))
  match (List.range (s.dev.val Reg.homeCount)).find? fun k => k != datum && (s.homeGet k).any (·.state = hsEmpty), free.min? with
  | some k, some a => some (k, a)
  | _, _ => none

/-- The reload copy of a weight block is made and charged to the tenant's flash quota: its datum, or the status of R407 that ends the load; `none`
while a page of it must wait. -/
def makeCopy (s : State) (owner datum : Nat) (content : List Byte) (x : Nat × Nat) : Option (State × (Nat ⊕ Nat)) :=
  match s.copyPlace datum content.length x with
  | none => some (s, .inr 7)
  | some (k, a) =>
    let (d, ok) := s.dev.charge owner 2 (s.dev.chargeOf 2 content.length)
    if !ok then some ({ s with dev := d }, .inr 6) else
    (({ s with dev := d }.ownBlocks owner a content.length false).tierWrite 2 a 0 content false).map fun (t : State) =>
      (t.setHome { emptyHome k with owner, state := hsHome, tier := 2, home := a, length := content.length }, .inl k)

/-- One reload attempt of the block at `a`, asked for by chamber `c`'s fault: the block is rewritten in place with the bytes its reload copy gives
and checked; after three failures it is damaged, and stays so until the host writes it again. An attempt whose copy cannot be read fails and writes
nothing. A block that was LOST is at its home again (R120, R121). -/
def weightReload (s : State) (c a : Nat) (copy : Option (List Byte × Bool)) : State :=
  if s.dev.cvu.damaged.contains a then s else
  let s := s.onDev fun d => { d.bump (Ctr.chWeightReloads c) with cvu := { d.cvu with reloading := d.cvu.reloading.erase a } }
  let s := match copy with | some (bs, bad) => s.devWrite a bs bad | none => s
  let w := WeightHdr.parse (s.devRead a 64).1
  let ok := copy.isSome && (s.weightTest a w (s.devNat (a + 20) 8) (List.range (w.uSlices + w.vSlices))).1 = 0
  let n := assocD 0 a s.dev.cvu.attempts + 1
  let s := s.onDev fun d => { d with cvu := { d.cvu with
    reloading := if ok || n < 3 then d.cvu.reloading ++ [a] else d.cvu.reloading,
    readable := if ok then d.cvu.readable ++ [a] else d.cvu.readable,
    damaged := if ok || n < 3 then d.cvu.damaged else d.cvu.damaged ++ [a],
    attempts := assocPut a (if ok then 0 else n % 3) d.cvu.attempts } }
  match (s.dev.fls.blocks.find? (·.base = a)).bind fun b => s.homeGet b.datum with
  | some r => if ok && r.state = hsLost then s.setHome { r with state := hsHome } else s
  | none => s

/-! ### Scrub and row repair (R511) -/

/-- Scrub reads the 64-byte atom at `a`, in row `row` (the spec gives no row size: the command names it). -/
def scrubAtom (s : State) (a row : Nat) (out : AtomRead) : State :=
  if !s.dev.on Reg.strCtrlScrubEn || a % 64 != 0 || decide (0x400000000 ≤ a) then s else
  let st := a / 2 ^ 23 % 8
  let s := match out with
    | .clean => s
    | .corrected => s.onDev fun d =>
      let d := d.bump Ctr.strCorrected
      let n := assocD 0 row d.strata.rowErrs + 1
      let d := { d with strata := { d.strata with rowErrs := assocPut row n d.strata.rowErrs } }
      if n = d.val Reg.strScrubRepairAfter ∧ !d.strata.repair.any (·.1 = row) then
        if bits (d.rd Reg.strSpares) (4 * st) 4 = 0 then d.putFlag Reg.strStatusSparesLow true
        else { d.putFlag Reg.strStatusRepairPending true with strata := { d.strata with repair := d.strata.repair ++ [(row, st)] } }
      else d
    | .bad => s.devUncorrectable a
  s.onDev fun d =>
    let d := d.bump Ctr.strScrubAtoms
    let n := d.strata.scrubbed + 1
    if n = 2 ^ 28 then ({ d with strata := { d.strata with scrubbed := 0, rowErrs := [] } }.bump Ctr.strScrubPasses).putFlag Reg.strStatusScrubBusy false
    else { d with strata := { d.strata with scrubbed := n } }.putFlag Reg.strStatusScrubBusy true

end State

/-- A spare row replaces a queued row at the cairn after its copy: the same bytes, one spare of its stratum less. -/
def Dev.swapRow (d : Dev) (row : Nat) : Dev :=
  if !d.epc.inCairn then d else
  match d.strata.repair.find? (·.1 = row) with
  | none => d
  | some (_, st) =>
    let left := bits (d.rd Reg.strSpares) (4 * st) 4
    let rest := d.strata.repair.filter (·.1 != row)
    let d := { d with strata := { d.strata with repair := rest } }.putFlag Reg.strStatusRepairPending (rest != [])
    if left = 0 then d.putFlag Reg.strStatusSparesLow true
    else (d.put Reg.strSpares (setBits (d.rd Reg.strSpares) (4 * st) 4 (left - 1))).bump Ctr.strRowsRepaired

/-! ### The commands -/

/-- TIER_MOVE_REQUEST: a MOVE of a datum to `dest` in `tier`, flipping no earlier than `arm`. -/
def execTierMoveRequest (datum tier dest arm : Nat) (written : Bool) (s : State) : Host.Outcome State Fault Refusal :=
  done (s.askMove datum 0 tier dest arm written { datum, expect := none, content := [], entry := none, notify := false }).1

/-- MOVE_CHUNK_COPY: up to `n` chunks of a datum's move. -/
def execMoveChunkCopy (datum n retries : Nat) (s : State) : Host.Outcome State Fault Refusal := done (s.copyChunks datum n retries)

/-- MOVE_CHECK_COMPLETE. -/
def execMoveCheckComplete (datum : Nat) (s : State) : Host.Outcome State Fault Refusal := done (s.checkMove datum)

/-- HOME_FLIP. -/
def execHomeFlip (datum : Nat) (refs : List (Nat × List Byte)) (s : State) : Host.Outcome State Fault Refusal := done (s.flipHome datum refs)

/-- HOME_RANGE_FREE. -/
def execHomeRangeFree (datum : Nat) (s : State) : Host.Outcome State Fault Refusal := done (s.freeHome datum)

/-- MOVE_CANCEL. -/
def execMoveCancel (datum : Nat) (s : State) : Host.Outcome State Fault Refusal := done (s.cancelMove datum)

/-- SCRUB_ATOM_READ. -/
def execScrubAtomRead (a row : Nat) (out : AtomRead) (s : State) : Host.Outcome State Fault Refusal := done (s.scrubAtom a row out)

/-- ROW_REPAIR_SWAP. -/
def execRowRepairSwap (row : Nat) (s : State) : Host.Outcome State Fault Refusal := devOnly s (·.swapRow row)

/-- WEIGHT_RELOAD of the block at `a` for chamber `c`'s fault, from the flash datum `copy`. -/
def execWeightReload (c a copy : Nat) (s : State) : Host.Outcome State Fault Refusal := done ((s.lookDatum copy).weightReload c a (s.reloadCopy copy))

end Sys2Proof.Machine
end

