-- ==== Sys2Proof/Machine/Index.lean ====
section
/-! DEFINITION. The stored structures of the index and the visibility test: directory, list heads, segments, side
lists, overlays, item map, filters (07_lists_updates_visibility.md R171 to R189). -/

namespace Sys2Proof.Machine

open Sys2Proof.Crypto

/-! ### Wrapping comparisons (R175) -/

def wrapSub (b a : Nat) : Nat := (b + 2 ^ 32 - a % 2 ^ 32) % 2 ^ 32
def wrapLe (a b : Nat) : Bool := decide (wrapSub (b % 2 ^ 32) a < 2 ^ 31)
def wrapLt (a b : Nat) : Bool := wrapLe a b && wrapSub (b % 2 ^ 32) a != 0

/-! ### Directory and heads -/

/-- A list head (R172) with where it lies. -/
structure ListHead where
  home : Nat
  list : Nat
  tenant : Nat
  ords : Nat
  ordCap : Nat
  flow : Bool
  ovlCount : Nat
  ovlCap : Nat
  sideLog : Nat
  segtab : Nat
  ovl : Nat
  side : Nat
  sideStart : Nat
  sideEnd : Nat
  mergeEnd : Nat
  mergeAt : Nat
  quant : Nat
  deriving DecidableEq, Repr

def headParse (home : Nat) (b : List Byte) : ListHead :=
  { home, list := fieldAt b 0 4, tenant := fieldAt b 4 1, ords := fieldAt b 5 1, ordCap := fieldAt b 6 1,
    flow := bit (fieldAt b 7 1) 0, ovlCount := fieldAt b 8 2, ovlCap := fieldAt b 10 1, sideLog := fieldAt b 11 1,
    segtab := fieldAt b 12 4, ovl := fieldAt b 16 4, side := fieldAt b 20 4, sideStart := fieldAt b 24 4,
    sideEnd := fieldAt b 28 4, mergeEnd := fieldAt b 32 4, mergeAt := fieldAt b 36 4, quant := fieldAt b 40 4 }

/-- Bytes 0 to 59 of a head. -/
def headBody (h : ListHead) : List Byte :=
  leBytes 4 h.list ++ leBytes 1 h.tenant ++ leBytes 1 h.ords ++ leBytes 1 h.ordCap ++ leBytes 1 (boolNat h.flow)
    ++ leBytes 2 h.ovlCount ++ leBytes 1 h.ovlCap ++ leBytes 1 h.sideLog ++ leBytes 4 h.segtab ++ leBytes 4 h.ovl
    ++ leBytes 4 h.side ++ leBytes 4 h.sideStart ++ leBytes 4 h.sideEnd ++ leBytes 4 h.mergeEnd ++ leBytes 4 h.mergeAt
    ++ leBytes 4 h.quant ++ List.replicate 16 0

namespace State

/-- A list's directory entry (R171). -/
def dirAddr (s : State) (list : Nat) : Nat := s.dev.val Reg.idxDirBase + 4 * list
def dirEntry (s : State) (list : Nat) : Nat := s.devNat (s.dirAddr list) 4

/-- The device address of a head in slot `slot` of chamber `home`. -/
def headAddrAt (s : State) (home slot : Nat) : Nat := columnBase home + s.dev.val Reg.headBaseOffset + 64 * slot

def headAddr (s : State) (list : Nat) : Nat :=
  let e := s.dirEntry list
  s.headAddrAt (bits e 0 8) (bits e 8 13)

end State

/-- The first field of a head that fails checks 2 to 5 of R172; within a check, the lowest offset. -/
def headField (addr list : Nat) (b : List Byte) : Option Nat :=
  let h := headParse 0 b
  let tests : List (Nat × Bool) := ([
    (0x3C, fieldAt b 60 4 = check32c addr (b.take 60)),
    (0x00, bits h.list 0 20 = list),
    (0x05, decide (h.ords ≤ 64) && decide (h.ords ≤ h.ordCap)),
    (0x06, between 1 h.ordCap 64),
    (0x08, decide (h.ovlCount ≤ 64 * h.ovlCap)),
    (0x0A, between 1 h.ovlCap 8),
    (0x0B, between 6 h.sideLog 12),
    (0x0C, h.segtab % 32 = 0 && decide (h.segtab < 0x4000000)),
    (0x10, h.ovl % 64 = 0 && decide (h.ovl < 0x4000000)),
    (0x14, h.side % 64 = 0 && decide (h.side < 0x4000000)),
    (0x1C, decide (wrapSub h.sideEnd h.sideStart ≤ 2 ^ h.sideLog)),
    (0x28, decide (h.quant < 0x4000000)),
    (0x00, decide (h.list < 2 ^ 20)), (0x04, decide (h.tenant < 64)), (0x07, decide (fieldAt b 7 1 < 2)),
    (0x2C, decide (fieldAt b 44 16 = 0))] : List (Nat × Bool))
  (tests.find? fun t => !t.2).map (·.1)

/-- A segment descriptor (R173). -/
structure SegDesc where
  curNum : Nat
  curCount : Nat
  curVer : Nat
  prevValid : Bool
  from' : Nat
  prevNum : Nat
  prevCount : Nat
  prevVer : Nat
  freeAt : Nat
  deriving DecidableEq, Repr

def segParse (b : List Byte) : SegDesc :=
  { curNum := fieldAt b 0 4, curCount := fieldAt b 4 2, curVer := fieldAt b 6 1, prevValid := bit (fieldAt b 7 1) 0,
    from' := fieldAt b 8 4, prevNum := fieldAt b 12 4, prevCount := fieldAt b 16 2, prevVer := fieldAt b 18 1, freeAt := fieldAt b 20 4 }

def segBytes (d : SegDesc) : List Byte :=
  leBytes 4 d.curNum ++ leBytes 2 d.curCount ++ leBytes 1 d.curVer ++ leBytes 1 (boolNat d.prevValid) ++ leBytes 4 d.from'
    ++ leBytes 4 d.prevNum ++ leBytes 2 d.prevCount ++ leBytes 1 d.prevVer ++ [0] ++ leBytes 4 d.freeAt ++ List.replicate 8 0

/-- Check 6 of R172 on one descriptor. -/
def segOk (b : List Byte) : Bool :=
  decide (fieldAt b 4 2 ≤ 4096) && decide (fieldAt b 16 2 ≤ 4096) && decide (fieldAt b 7 1 < 2) && fieldAt b 19 1 = 0
    && fieldAt b 24 8 = 0

namespace State

def segDescAddr (_s : State) (h : ListHead) (ord : Nat) : Nat := columnBase h.home + h.segtab + 32 * ord
def segDesc (s : State) (h : ListHead) (ord : Nat) : SegDesc := segParse (s.devRead (s.segDescAddr h ord) 32).1
def putSegDesc (s : State) (h : ListHead) (ord : Nat) (d : SegDesc) : State := s.devWrite (s.segDescAddr h ord) (segBytes d)

/-- The head of a list, its poison, or the byte of R172's first failing field. -/
def readHead (s : State) (list : Nat) : Except Nat (ListHead × Bool) :=
  let e := s.dirEntry list
  if bits e 21 11 != 0 then .error 0xFF else
  let a := s.headAddr list
  let (b, bad) := s.devRead a 64
  match headField a list b with
  | some f => .error f
  | none =>
    let h := headParse (bits e 0 8) b
    match (List.range h.ords).find? fun o => !segOk (s.devRead (s.segDescAddr h o) 32).1 with
    | some o => .error (0x40 + o)
    | none => .ok (h, bad || (s.devRead (s.dirAddr list) 4).2)

/-- The head as it stands, for the module's own updates. -/
def headOf (s : State) (list : Nat) : ListHead :=
  headParse (bits (s.dirEntry list) 0 8) (s.devRead (s.headAddr list) 64).1

def putHead (s : State) (h : ListHead) : State :=
  let a := s.headAddr h.list
  s.devWrite a (headBody h ++ leBytes 4 (check32c a (headBody h)))

/-! ### Segments (R174) -/

def codeBytes (s : State) : Nat := s.dev.val Reg.idxCodeCodeBytes
def segStride (c : Nat) : Nat := roundUp (4096 * (c + 8)) 4096

/-- Segments exist once their pair has agreed (R203, R485). -/
def segsReady (s : State) : Bool := decide (1 ≤ s.dev.val Reg.segMax)
def segAddr (s : State) (g : Nat) : Nat := s.dev.val Reg.segBase + g * segStride s.codeBytes
def segIds (s : State) (g : Nat) : Nat := s.segAddr g + 4096 * s.codeBytes
def tombAddr (s : State) (g : Nat) : Nat := s.dev.val Reg.tombBase + 512 * g

/-- A read that is refused as out of range while its structure does not exist (R485). -/
def useIf (s : State) (x : Ctx) (ok : Bool) (a n : Nat) : State × List Byte × Bool :=
  if n = 0 then (s, [], false) else if ok then s.devUse x a n
  else (s.addrFault a x.c x.hdr.index x.src, List.replicate n 0, true)

end State

/-! ### Visibility (R188) -/

/-- choose_version: segment number, count and version. -/
def chooseVersion (d : SegDesc) (snap : Nat) : Option (Nat × Nat × Nat) :=
  if d.curNum != 0xFFFFFFFF && wrapLe d.from' snap then some (d.curNum, d.curCount, d.curVer)
  else if d.prevValid then some (d.prevNum, d.prevCount, d.prevVer)
  else none

/-- Bit `i` of a bitmap. -/
def mapBit (bs : List Byte) (i : Nat) : Bool := bit (bs.getD (i / 8) 0).toNat (i % 8)

/-- An overlay entry (R185). -/
structure Overlay where
  slot : Nat
  ord : Nat
  ver : Nat
  commit : Nat
  deriving DecidableEq, Repr

def ovlParse (b : List Byte) : Overlay := { slot := fieldAt b 0 2, ord := fieldAt b 2 1, ver := fieldAt b 3 1 % 2, commit := fieldAt b 4 4 }
def ovlBytes (o : Overlay) : List Byte := leBytes 2 o.slot ++ leBytes 1 o.ord ++ leBytes 1 o.ver ++ leBytes 4 o.commit

def State.ovlAddr (_s : State) (h : ListHead) : Nat := columnBase h.home + h.ovl
def State.overlays (s : State) (h : ListHead) : List Overlay :=
  (chunks 8 (s.devRead (s.ovlAddr h) (8 * h.ovlCount)).1).map ovlParse

/-- Is a segment position hidden by the overlay at a snapshot? -/
def hiddenBy (os : List Overlay) (ord slot ver snap : Nat) : Bool :=
  os.any fun o => o.ord = ord && o.slot = slot && o.ver = ver % 2 && wrapLe o.commit snap

/-- A side entry's fixed part (R184). -/
structure SideEntry where
  id : Nat
  commit : Nat
  del : Nat
  deleted : Bool
  mask : List Byte
  deriving DecidableEq, Repr

def sideParse (b : List Byte) : SideEntry :=
  { id := fieldAt b 0 8, commit := fieldAt b 8 4, del := fieldAt b 12 4, deleted := bit (fieldAt b 16 1) 0, mask := (b.drop 32).take 32 }

def sideBytes (e : SideEntry) : List Byte :=
  leBytes 8 e.id ++ leBytes 4 e.commit ++ leBytes 4 e.del ++ leBytes 1 (boolNat e.deleted) ++ List.replicate 15 0 ++ padTo 32 e.mask

def sideSize (c : Nat) : Nat := 64 + roundUp c 64

def State.sideAddr (s : State) (h : ListHead) (q : Nat) : Nat := columnBase h.home + h.side + (q % 2 ^ h.sideLog) * sideSize s.codeBytes
def State.sideEntry (s : State) (h : ListHead) (q : Nat) : SideEntry := sideParse (s.devRead (s.sideAddr h q) 64).1

/-- Retained side entries. -/
def sideCount (h : ListHead) : Nat := wrapSub h.sideEnd h.sideStart

def visibleSide (h : ListHead) (e : SideEntry) (q snap : Nat) : Bool :=
  wrapLe e.commit snap && !(e.deleted && wrapLe e.del snap) && !(wrapLt q h.mergeEnd && wrapLe h.mergeAt snap)

/-! ### Filters (R176 to R178) -/

/-- A filter descriptor: the operators before set 1 to NSETS - 1, and per set its number, bitmap and summary base. -/
structure Filter where
  ops : List Nat
  sets : List (Nat × Nat × Nat)
  poison : Bool
  deriving DecidableEq, Repr

def filterParse (b : List Byte) (bad : Bool) : Option Filter :=
  let n := fieldAt b 0 1
  let ops := fieldAt b 1 1
  let op (i : Nat) : Nat := bits ops (2 * (i - 1)) 2
  if between 1 n 4 && decide (ops < 64) && [1, 2, 3].all (fun i => (op i != 0) == decide (i < n)) && decide (fieldAt b 2 1 < 64)
      && fieldAt b 3 1 = 0 && ((List.range 4).drop n).all (fun i => fieldAt b (4 + i) 1 = 0) && fieldAt b 8 8 = 0 then
    some { ops := ((List.range n).drop 1).map op,
           sets := (List.range n).map fun i => (fieldAt b (4 + i) 1, fieldAt b (16 + 16 * i) 8, fieldAt b (24 + 16 * i) 8), poison := bad }
  else none

/-- The left-to-right fold of R177; `summary` takes NOT x as 1 (R178). -/
def filterFold (summary : Bool) (ops : List Nat) (xs : List Bool) : Bool :=
  match xs with
  | [] => true
  | x :: rest => (ops.zip rest).foldl (fun r (op, y) =>
      if op = 1 then r && y else if op = 2 then r || y else if summary then r else r && !y) x

end Sys2Proof.Machine
end

