-- ==== Sys2Proof/Machine/Encode.lean ====
section
/-! DEFINITION. The encoder of flowstone and of insert staging, and the ranking of centroids
(07_lists_updates_visibility.md R182, R193; log entry 139). -/

namespace Sys2Proof.Machine

open Sys2Proof.Fp

/-- An item's INT8 vector; for cosine it is normalised before it is encoded (R126). -/
def itemVector (metric : Nat) (bs : List Byte) : List Value :=
  let xs := bs.map fun b => ofInt (toSigned 8 b.toNat)
  let n := treeSum (xs.map fun x => to32 (mul x x))
  if metric = 2 && !(f32 n).isZero then xs.map fun x => f32 (fmul (to32 x) (rsqrt n)) else xs

/-- Products of BF16 operands accumulated under R85. -/
def dotBf16 (xs ys : List Value) : Nat :=
  let ones := List.replicate xs.length 127
  floatDot 0 (xs.map toBf16) (ys.map toBf16) ones ones false

/-- The squared L2 distance of two vectors, accumulated under R85. -/
def distance (xs ys : List Value) : Nat :=
  let d := (xs.zip ys).map fun (x, y) => sub x y
  dotBf16 d d

/-- The score of a centroid under a metric; the larger is the better. -/
def centroidScore (metric : Nat) (xs cs : List Value) : Nat :=
  if metric = 1 then to32 (f32 (distance xs cs)).neg
  else if metric = 3 then
    to32 (ofInt (-(((xs.zip cs).map fun (x, c) => (popcount 8 (Nat.xor (hammingUnit 256 (to32 x)) (hammingUnit 256 (to32 c))) : Int)).sum)))
  else dotBf16 xs cs

/-- The codeword nearest a residual sub-vector, the lower index on ties. -/
def nearest (r : List Value) (words : List (List Value)) : Nat :=
  (words.zipIdx.foldl (fun (best : Nat × Nat) (w, i) =>
    let d := distance r w
    if i = 0 || decide (cmp (f32 d) (f32 best.1) < 0) then (d, i) else best) (0, 0)).2

/-- The codewords of unit `u` with the channel scales applied (R125). -/
def unitWords (q : Quant) (scales : List Nat) (book : List Value) (u : Nat) : List (List Value) :=
  let k := if isPq q.fmt then q.d / q.m else 1
  (List.range q.v).map fun c =>
    let w := if isPq q.fmt then (book.drop ((u * q.v + c) * k)).take k else [ofInt (toSigned (unitBits q.fmt) c)]
    (w.zip ((scales.drop (u * k)).take k)).map fun (x, sc) => f32 (fmul sc (to32 x))

/-- The code of a vector whose residual is `r`. -/
def encodeResidual (q : Quant) (scales : List Nat) (book r : List Value) : List Byte :=
  let k := if isPq q.fmt then q.d / q.m else 1
  let us := (List.range q.t).map fun u => nearest ((r.drop (u * k)).take k) (unitWords q scales book u)
  padTo (codeLen q.fmt q.t) (packUnits (unitBits q.fmt) us [])

namespace State

/-- The centroid of a list: the run of centroids with the greatest first list at or below it; all +0 where none covers it. -/
def centroid (s : State) (runs : List (Nat × Nat)) (list d : Nat) : List Value :=
  match (runs.filter fun r => decide (r.1 ≤ list)).foldl (fun (best : Option (Nat × Nat)) r =>
      match best with | some b => if b.1 < r.1 then some r else some b | none => some r) none with
  | some (first, a) => (unitsOf 16 (s.devRead (a + (list - first) * (2 * d)) (2 * d)).1).map (decode bf16)
  | none => List.replicate d Value.zero

/-- The quantiser of a list (R125, R172). -/
def listQuant (s : State) (h : ListHead) : Quant := quantParse (s.devRead (columnBase h.home + h.quant) 64).1

/-- The code of an item's vector in a list: the residual against the centroid in BF16, encoded (R193). -/
def encodeItem (s : State) (w : Encoding) (h : ListHead) (bs : List Byte) : List Byte :=
  let q := s.listQuant h
  let base := columnBase h.home
  let scales := words32 (s.devRead (base + q.scaleAddr) (4 * q.d)).1
  let book := if isPq q.fmt then (unitsOf 16 (s.devRead (base + q.codebook) (2 * q.v * q.d)).1).map (decode bf16) else []
  let xs := itemVector w.metric (bs.take q.d)
  encodeResidual q scales book ((xs.zip (s.centroid w.centroids h.list q.d)).map fun (x, c) => toBf16 (sub (toBf16 x) c))

/-- The list of a tenant whose centroid scores best, the lower number on ties (R182); IDX_LISTS where the tenant owns none. -/
def bestList (s : State) (w : Encoding) (tenant : Nat) (bs : List Byte) : Nat :=
  let lists := s.dev.val Reg.idxLists
  let xs := itemVector w.metric bs
  let best := ((List.range lists).filter fun l => (s.headOf l).tenant = tenant).foldl (fun (best : Option (Nat × Nat)) l =>
    let sc := centroidScore w.metric xs (s.centroid w.centroids l bs.length)
    match best with
    | some b => if cmp (f32 b.1) (f32 sc) < 0 then some (sc, l) else some b
    | none => some (sc, l)) none
  (best.map (·.2)).getD lists

end State

end Sys2Proof.Machine
end

