-- ==== Sys2Proof/Machine/Looks.lean ====
section
/-! DEFINITION. The looks of a query: the lists that stage 2 keeps, the probe lists of the first and of the widened look, and what triggers the
latter (07_lists_updates_visibility.md R177, R197, R198). -/

namespace Sys2Proof.Machine

namespace Dev

/-- The query of a cohort with a query ordinal. -/
def queryAt (d : Dev) (cohort qord : Nat) : Option Request :=
  (d.ingress.cohorts.find? (·.epoch = cohort)).bind fun c => c.queries[qord]?

/-- Is a query widened when it falls short (R197)? -/
def widens (r : Request) : Bool := bit (fieldAt r.body 11 1) 1 && fieldAt r.body 12 1 != 0

/-- nprobe (R345). -/
def nprobe (r : Request) : Nat := fieldAt r.body 8 2

/-- Stage 2 has ranked the centroids for a query, best first: the first nprobe lists are kept, or the first 4 × nprobe of a query that may be widened,
and no more than IDX_LISTS (R197). A later ranking of the same query replaces it; those of aged cohorts leave. -/
def noteRanks (d : Dev) (x : Ctx) (qord : Nat) (lists : List Nat) : Dev :=
  if x.hdr.stage != 2 then d else
  match d.queryAt x.cohort qord with
  | none => d
  | some r =>
    let keep := min (if widens r then 4 * nprobe r else nprobe r) (d.val Reg.idxLists)
    let others := d.ingress.ranks.filter fun y => !(y.1 = x.cohort && y.2.1 = qord) && decide (d.epoch < y.1 + 20)
    { d with ingress := { d.ingress with ranks := others ++ [(x.cohort, qord, lists.take keep)] } }

/-- A query is widened at the stage-3 merge within the module, in slots 88 to 95: filtered, WIDEN_ON_SHORT, and short of k candidates (R198). The
answer says whether it is. -/
def widenLook (d : Dev) (x : Ctx) (qord n : Nat) : Dev × Bool :=
  match d.queryAt x.cohort qord with
  | none => (d, false)
  | some r =>
    if x.hdr.stage = 3 ∧ 88 ≤ x.hdr.slot ∧ x.hdr.slot ≤ 95 ∧ widens r = true ∧ n < fieldAt r.body 0 4 then
      let others := d.ingress.widened.filter fun y => !(y.1 = x.cohort && y.2.1 = qord) && decide (d.epoch < y.1 + 20)
      ({ d.bump Ctr.idxWidenedLooks with ingress := { d.ingress with widened := others ++ [(x.cohort, qord, fieldAt r.body 4 4 - n)] } }, true)
    else (d, false)

/-- Candidates wanted from a query's widened look (R198). -/
def wanted (d : Dev) (cohort qord : Nat) : Option Nat :=
  (d.ingress.widened.find? fun y => y.1 = cohort && y.2.1 = qord).map (·.2.2)

end Dev

namespace State

/-- The bitmap and summary bases of a tenant's set (R176). -/
def filterSet (s : State) (tenant set : Nat) : Option (Nat × Nat) :=
  (s.dev.idx.filterSets.find? fun f => f.1 = tenant && f.2.1 = set).map fun f => f.2.2

/-- The filter descriptor of a query (R177). A set that is not in use has no bases: NSETS is 0 then, and the entry is bad (log entry 140). -/
def filterBytes (s : State) (r : Request) : List Byte :=
  let n := fieldAt r.body 12 1
  let sets := (List.range n).map fun i => fieldAt r.body (14 + i) 1
  let bases := sets.filterMap (s.filterSet r.tenant)
  leBytes 1 (if bases.length = n then n else 0) ++ leBytes 1 (fieldAt r.body 13 1) ++ leBytes 1 r.tenant ++ [0] ++ padTo 4 (sets.flatMap (leBytes 1))
    ++ List.replicate 8 0 ++ padTo 64 (bases.flatMap fun b => leBytes 8 b.1 ++ leBytes 8 b.2)

/-- A probe entry (R139). -/
def probeBytes (list qord tid flags filter tenant : Nat) : List Byte :=
  leBytes 4 list ++ leBytes 2 qord ++ leBytes 1 tid ++ leBytes 1 flags ++ leBytes 4 filter ++ leBytes 1 tenant ++ List.replicate 3 0

/-- Writes one chamber's probe list of a look: the entries of the lists homed there, ascending in (LIST, QORD), behind their header, and the filter
descriptors of their filtered queries in ascending QORD. What would pass the end of the column's plan data is not written. -/
def writeProbes (s : State) (cohort : Nat) (wide : Bool) (look : List (Nat × List Nat)) (p : ProbePlace) : State :=
  let es := look.flatMap fun (q, ls) => (ls.filter fun l => bits (s.dirEntry l) 0 8 = p.chamber).map fun l => (l, q)
  let es := sortBy (fun a b : Nat × Nat => decide (a.1 < b.1) || (a.1 = b.1 && decide (a.2 < b.2))) es
  let filtered := (sortBy (fun a b : Nat => decide (a < b)) (es.map (·.2)).eraseDups).filter fun q =>
    (s.dev.queryAt cohort q).any fun r => fieldAt r.body 12 1 != 0
  let entry (e : Nat × Nat) : List Byte :=
    let tenant := ((s.dev.queryAt cohort e.2).map (·.tenant)).getD 0
    let place := (filtered.idxOf? e.2).map fun i => p.filters + 80 * i
    probeBytes e.1 e.2 (assocD (e.2 % 64) e.2 s.dev.ingress.tids) (boolNat wide + 2 * boolNat place.isSome) (place.getD 0) tenant
  let base := columnBase p.chamber
  if !(chamberOk p.chamber && decide (p.list + 16 + 16 * es.length ≤ columnEnd) && decide (p.filters + 80 * filtered.length ≤ columnEnd)) then s else
  let s := s.devWrite (base + p.list) (leBytes 4 es.length ++ leBytes 4 0 ++ leBytes 8 (cohort + 2) ++ es.flatMap entry)
  filtered.zipIdx.foldl (fun s (q, i) => match s.dev.queryAt cohort q with
    | some r => s.devWrite (base + p.filters + 80 * i) (s.filterBytes r)
    | none => s) s

/-- What stage 2 keeps for the queries of a cohort: (QORD, its first look, its widen set) (R197). -/
def looks (s : State) (cohort : Nat) : List (Nat × List Nat × List Nat) :=
  (s.dev.ingress.ranks.filter (·.1 = cohort)).filterMap fun y =>
    (s.dev.queryAt cohort y.2.1).map fun r => (y.2.1, y.2.2.take (Dev.nprobe r), y.2.2.drop (Dev.nprobe r))

/-- The probe lists of the first look of a cohort (R197). -/
def firstLook (s : State) (cohort : Nat) (places : List ProbePlace) : State :=
  places.foldl (fun s p => s.writeProbes cohort false ((s.looks cohort).map fun y => (y.1, y.2.1)) p) s

/-- The probe lists of the widen sets of the queries that are widened so far (R198). -/
def wideLook (s : State) (cohort : Nat) : State :=
  let due := (s.looks cohort).filter fun y => (s.dev.wanted cohort y.1).isSome
  s.dev.ingress.wide.foldl (fun s p => s.writeProbes cohort true (due.map fun y => (y.1, y.2.2)) p) s

end State

end Sys2Proof.Machine
end

