-- ==== Sys2Proof/Machine/Maps.lean ====
section
/-! DEFINITION. Composition maps as stored (15_pools_tenants_metering.md R378, R379, R382): their fields, their
check, and the map that routes a cohort. -/

namespace Sys2Proof.Machine

open Sys2Proof.Crypto

def mapMembers (b : List Byte) : Nat := fieldAt b 32 4
def mapShards (b : List Byte) : Nat := fieldAt b 36 4
def mapVersion (b : List Byte) : Nat := fieldAt b 6 2
def mapJob (b : List Byte) : Nat := fieldAt b 8 8
def mapEffective (b : List Byte) : Nat := fieldAt b 16 8
def mapCoordinator (b : List Byte) : Nat := fieldAt b 40 2
def mapBytes (members shards : Nat) : Nat := 64 + 8 * members + 8 * shards

def memberAt (i : Nat) : Nat := 64 + 8 * i
def memberNode (b : List Byte) (i : Nat) : Nat := fieldAt b (memberAt i) 2
def memberRole (b : List Byte) (i : Nat) : Nat := fieldAt b (memberAt i + 2) 1
def memberPlan (b : List Byte) (i : Nat) : Nat := fieldAt b (memberAt i + 4) 4

def shardAt (b : List Byte) (s : Nat) : Nat := 64 + 8 * mapMembers b + 8 * s
def shardOwner (b : List Byte) (s : Nat) : Nat := fieldAt b (shardAt b s) 2
def shardReplica (b : List Byte) (s : Nat) : Nat := fieldAt b (shardAt b s + 2) 2
def shardRanker (b : List Byte) (s : Nat) : Nat := fieldAt b (shardAt b s + 4) 2

/-- The member index of a node, when exactly one entry names it. -/
def memberOf (b : List Byte) (node : Nat) : Option Nat :=
  match (List.range (mapMembers b)).filter fun i => memberNode b i = node with
  | [i] => some i
  | _ => none

/-- Version b is newer than version a (R379). -/
def newerVersion (a b : Nat) : Bool := between 1 ((b + 65536 - a % 65536) % 65536) 32767

/-- The pair of R394 agrees. -/
def poolPairOk (base len : Nat) : Bool := base % 64 = 0 && len % 64 = 0 && decide (128 ≤ len) && inOneColumn base (2 * len)

namespace State

def poolReady (s : State) : Bool := poolPairOk (s.dev.val Reg.poolMapBase) (s.dev.val Reg.poolMapLenBytes)
def mapHalfAddr (s : State) (half : Nat) : Nat := s.dev.val Reg.poolMapBase + half * s.dev.val Reg.poolMapLenBytes

/-- The bytes of the map in a half, as long as its header says. -/
def mapIn (s : State) (half : Nat) : List Byte :=
  let a := s.mapHalfAddr half
  let h := (s.devRead a 64).1
  (s.devRead a (min (mapBytes (mapMembers h) (mapShards h)) (s.dev.val Reg.poolMapLenBytes))).1

/-- The current map as it stands in its half, when there is one. -/
def storedMap (s : State) : Option (List Byte) :=
  if s.dev.pool.haveMap then some (s.mapIn (s.dev.rd Reg.tntStatusMapHalf)) else none

/-- A map with the down set applied (R455): a shard of a down owner belongs to its replica, and a down ranker reads as none. -/
def downMap (s : State) (b : List Byte) : List Byte :=
  if s.dev.job.down = [] then b else
  let isDown (m : Nat) : Bool := decide (m < mapMembers b) && s.dev.job.down.contains (memberNode b m)
  (List.range (mapShards b)).foldl (fun b k =>
    let a := shardAt b k
    let b := if isDown (shardOwner b k) then b.take a ++ leBytes 2 (if isDown (shardReplica b k) then 0xFFFF else shardReplica b k) ++ b.drop (a + 2) else b
    if isDown (shardRanker b k) then b.take (a + 4) ++ leBytes 2 0xFFFF ++ b.drop (a + 6) else b) b

/-- The current map for routing (R382, R455). -/
def currentMap (s : State) : Option (List Byte) := s.storedMap.map s.downMap

/-- The map that was current at the cairn of a cohort's ingress epoch (R382), with the down set applied. -/
def routingMap (s : State) (cohort : Nat) : Option (List Byte) :=
  if s.dev.pool.haveMap && decide (cohort < s.dev.pool.takenAt) && s.dev.pool.prevMap != [] then some (s.downMap s.dev.pool.prevMap)
  else s.currentMap

/-- Shards that a cohort is missing here: where it is missing on this module, those that its routing map has this module own, and one where no
map says (R52; log entry 136); and those whose state was lost in a map change (R384). -/
def missingShards (s : State) (cohort : Nat) : Nat :=
  let lost := ((s.dev.pool.lost.filter (·.1 = cohort)).map (·.2)).eraseDups
  if !s.dev.seq.missing.contains cohort then lost.length else
  match s.routingMap cohort with
  | none => max 1 lost.length
  | some b => (lost ++ (List.range (mapShards b)).filter fun k => memberOf b (s.dev.val Reg.fabNodeNodeId) = some (shardOwner b k)).eraseDups.length

/-- Does a map give this module the shard, as owner or replica? -/
def givesShard (s : State) (map : Option (List Byte)) (shard : Nat) : Bool :=
  match map with
  | none => false
  | some b => match memberOf b (s.dev.val Reg.fabNodeNodeId) with
    | none => false
    | some me => decide (shard < mapShards b) && (shardOwner b shard = me || shardReplica b shard = me)

end State

end Sys2Proof.Machine
end

