-- ==== Sys2Proof/Machine/IndexOps.lean ====
section
/-! DEFINITION. Operations on the index: staging, publication, ageing, folding, frees and flowstone
(07_lists_updates_visibility.md R180 to R195, R200). -/

namespace Sys2Proof.Machine

/-! ### Operation bodies and the item map -/

def opCode (r : Request) : Nat := fieldAt r.body 0 1
def opSet (r : Request) : Nat := fieldAt r.body 1 1
def opList (r : Request) : Nat := fieldAt r.body 4 4
def opId (r : Request) : Nat := fieldAt r.body 8 8
def opMask (r : Request) : List Byte := (r.body.drop 16).take 32
def opVector (r : Request) : List Byte := r.body.drop 48

def opInsert : Nat := 1
def opDelete : Nat := 2
def opSetMember : Nat := 3
def opClearMember : Nat := 4

/-- Does a body break the table of R180? -/
def opBodyOk (b : List Byte) : Bool :=
  let op := fieldAt b 0 1
  between 1 op 4 && fieldAt b 2 2 = 0
    && (if op = 1 then fieldAt b 1 1 = 0 && decide (56 ≤ b.length) && decide (b.length ≤ 4144) && b.length % 8 = 0
        else decide (48 ≤ b.length) && (decide (3 ≤ op) || fieldAt b 1 1 = 0) && fieldAt b 4 4 = 0 && (b.drop 16).all (· = 0))

/-- The completion statuses of R187. -/
def ostApplied : Nat := 0x00
def ostAbsent : Nat := 0x01
def ostReplaced : Nat := 0x02
def ostListFull : Nat := 0x10
def ostOverlayFull : Nat := 0x11
def ostWrongShard : Nat := 0x12
def ostItemRange : Nat := 0x13
def ostNotApplied : Nat := 0x14
def ostBadRecord : Nat := 0x15
def ostQuota : Nat := 0x16
def ostDuplicate : Nat := 0x17
def ostSampleBusy : Nat := 0x18

/-- The shard and the local item number of an id (R183). -/
def idShard (id : Nat) : Nat := bits id 48 16
def idLocal (id : Nat) : Nat := bits id 0 48

/-- An item-map entry (R186). -/
structure ItemLoc where
  list : Nat
  ord : Nat
  slot : Nat
  side : Bool
  live : Bool
  deriving DecidableEq, Repr

def itemParse (n : Nat) : ItemLoc := { list := bits n 0 20, ord := bits n 20 6, slot := bits n 26 12, side := bit n 38, live := bit n 39 }
def itemBits (e : ItemLoc) : Nat :=
  e.list % 2 ^ 20 + e.ord % 64 * 2 ^ 20 + e.slot % 4096 * 2 ^ 26 + boolNat e.side * 2 ^ 38 + boolNat e.live * 2 ^ 39

/-- The pair of R203. -/
def itemPairOk (base items : Nat) : Bool :=
  base % 8 = 0 && decide (1 ≤ items) && decide (0x1000000000 ≤ base) && decide (base + 8 * items ≤ 0xA000000000)

namespace State

def itemAddr (s : State) (id : Nat) : Nat := s.dev.val Reg.itemMapBase + 8 * idLocal id
def itemBitsAt (s : State) (id : Nat) : Nat := s.devNat (s.itemAddr id) 8
def itemLoc (s : State) (id : Nat) : ItemLoc := itemParse (s.itemBitsAt id)
def putItem (s : State) (id : Nat) (e : ItemLoc) : State := s.devWrite (s.itemAddr id) (leBytes 8 (itemBits e))

/-- Is the id covered by the map, and LIVE? -/
def itemInRange (s : State) (id : Nat) : Bool := decide (idLocal id < s.dev.val Reg.itemMapItems)

/-- The id stored at the location the map names. -/
def idAt (s : State) (e : ItemLoc) : Nat :=
  let h := s.headOf e.list
  if e.side then s.devNat (s.sideAddr h e.slot) 8 else s.devNat (s.segIds (s.segDesc h e.ord).curNum + 8 * e.slot) 8

/-! ### Deletes, inserts and membership -/

/-- Appends an overlay entry; the caller has checked for room (R185). -/
def addOverlay (s : State) (h : ListHead) (o : Overlay) : State :=
  (s.devWrite (s.ovlAddr h + 8 * h.ovlCount) (ovlBytes o)).putHead { h with ovlCount := h.ovlCount + 1 }

def ovlRoom (h : ListHead) (n : Nat) : Bool := decide (h.ovlCount + n ≤ 64 * h.ovlCap)

/-- Deletes a location with a commit epoch (R183, R185): `none` where the overlay is full. -/
def deleteAt (s : State) (e : ItemLoc) (commit : Nat) : Option State :=
  let h := s.headOf e.list
  if e.side then
    let a := s.sideAddr h e.slot
    some ((s.devWrite (a + 12) (leBytes 4 commit)).devWrite (a + 16) [1])
  else if ovlRoom h 1 then
    some (s.addOverlay h { slot := e.slot, ord := e.ord, ver := (s.segDesc h e.ord).curVer % 2, commit })
  else none

/-- Writes a side entry at sequence `q` (R184). -/
def writeSide (s : State) (h : ListHead) (q : Nat) (r : Request) (commit : Nat) (code : List Byte) : State :=
  let e : SideEntry := { id := opId r, commit, del := 0, deleted := false, mask := opMask r }
  s.devWrite (s.sideAddr h q) (sideBytes e ++ padTo s.codeBytes code)

/-- Sets or clears bit `i` of a bitmap in device memory. -/
def setMapBit (s : State) (a i : Nat) (on : Bool) : State :=
  let b := (s.devRead (a + i / 8) 1).1
  let n := leNat b
  s.devWrite (a + i / 8) [BitVec.ofNat 8 (setBits n (i % 8) 1 (boolNat on))]

/-- A filter set comes into use at the bases that Lantern gives it, with no member in the segments there are; its bitmaps and summaries are
charged to the tenant (R176). Nothing happens for a set in use, for bases outside their tier, or where a quota refuses the charge. -/
def addSet (s : State) (w : SetBases) : State :=
  let segs := s.dev.val Reg.segMax
  let maps := 512 * segs
  let sums := ceilDiv segs 8
  if (s.filterSet w.tenant w.set).isSome || !(decide (w.tenant < 64) && decide (w.set < 256)) || segs = 0
      || !(decide (0x1000000000 ≤ w.bitmap) && decide (w.bitmap + maps ≤ 0xA000000000) && inOneColumn w.summary sums) then s else
  let (d, ok) := s.dev.charge w.tenant 1 (s.dev.chargeOf 1 maps)
  if !ok then { s with dev := d } else
  let (d, ok) := d.charge w.tenant 0 (d.chargeOf 0 sums)
  if !ok then { s with dev := d.credit w.tenant 1 (d.chargeOf 1 maps) } else
  let used := s.dev.idx.nextSeg
  let s := ({ s with dev := d }.devWrite w.bitmap (List.replicate (512 * used) 0)).devWrite w.summary (List.replicate (ceilDiv used 8) 0)
  s.onDev fun d => { d with idx := { d.idx with filterSets := d.idx.filterSets ++ [(w.tenant, w.set, w.bitmap, w.summary)] } }

/-- A membership update at the item's current location (R179). -/
def setMember (s : State) (tenant set : Nat) (e : ItemLoc) (on : Bool) : State :=
  let h := s.headOf e.list
  if e.side then s.setMapBit (s.sideAddr h e.slot + 32) set on
  else match s.filterSet tenant set with
    | none => s
    | some (bm, sm) =>
      let g := (s.segDesc h e.ord).curNum
      let s := s.setMapBit (bm + 512 * g) e.slot on
      if on then s.setMapBit sm g true else s

/-! ### The exact sample (R200) -/

/-- D of a list's quantiser (R125). -/
def listDims (s : State) (h : ListHead) : Nat := s.devNat (columnBase h.home + h.quant + 6) 2

def sampleSize (d : Nat) : Nat := 64 + roundUp d 64

/-- Is an id in the exact sample? -/
def sampled (s : State) (id : Nat) : Bool :=
  s.dev.on Reg.idxCtrlSampleEn && idLocal id % 2 ^ s.dev.val Reg.idxSampleSampleLog2 = 0

/-- The address of copy `k` of an id's sample slot. -/
def sampleAddr (s : State) (id d k : Nat) : Nat :=
  s.dev.val Reg.sampleBase + (idLocal id / 2 ^ s.dev.val Reg.idxSampleSampleLog2) * (2 * sampleSize d) + k * sampleSize d

/-- A copy that an insert may take: not VALID, or deleted at least 16 epochs ago. -/
def sampleFree (s : State) (id d commit : Nat) : Option Nat :=
  [0, 1].find? fun k =>
    let a := s.sampleAddr id d k
    let fl := s.devNat (a + 16) 1
    !bit fl 0 || (bit fl 1 && wrapLe (s.devNat (a + 12) 4) (wrapSub commit 16))

def sampleInsert (s : State) (r : Request) (d k commit : Nat) : State :=
  s.devWrite (s.sampleAddr (opId r) d k) (leBytes 8 (opId r) ++ leBytes 4 commit ++ leBytes 4 0 ++ [1] ++ List.replicate 47 0 ++ padTo (roundUp d 64) (opVector r))

/-- The copy that holds an id's live item is marked deleted. -/
def sampleDelete (s : State) (id d commit : Nat) : State :=
  match [0, 1].find? fun k =>
    let a := s.sampleAddr id d k
    let fl := s.devNat (a + 16) 1
    bit fl 0 && !bit fl 1 && s.devNat a 8 = id with
  | none => s
  | some k => (s.devWrite (s.sampleAddr id d k + 12) (leBytes 4 commit)).devWrite (s.sampleAddr id d k + 16) [3]

end State

/-! ### Publication (R182, R183) -/

namespace Dev

def itemsLive (d : Dev) (t : Nat) : Nat := assocD 0 t d.tier.items
def setItemsLive (d : Dev) (t n : Nat) : Dev := { d with tier := { d.tier with items := assocPut t n d.tier.items } }

/-- The first LIST_FULL of a list in an epoch (R184). -/
def sideFull (d : Dev) (h : ListHead) : Dev :=
  if d.idx.sideSaid.contains h.list then d else
  { d.raise .indexSideFull (srcGallery h.home) [(3, h.list), (1, h.sideLog)] with idx := { d.idx with sideSaid := d.idx.sideSaid ++ [h.list] } }

/-- The first OVERLAY_FULL of a list in an epoch (R185). -/
def overlayFull (d : Dev) (h : ListHead) : Dev :=
  if d.idx.ovlSaid.contains h.list then d else
  { d.raise .indexOverlayFull (srcGallery h.home) [(3, h.list), (1, h.ovlCap)] with idx := { d.idx with ovlSaid := d.idx.ovlSaid ++ [h.list] } }

/-- A membership update is remembered for the passes under way (R194). -/
def noteMember (d : Dev) (list set id : Nat) (on : Bool) : Dev :=
  { d with idx := { d.idx with passes := d.idx.passes.map fun p => if p.list = list then { p with updates := p.updates ++ [(set, id, on)] } else p } }

end Dev

namespace State

/-- ITEMS_LIVE counted anew over the item map (R186, R249): when the map or its lists are put in place, and when a bulk load writes in it. -/
def recountItems (s : State) : State :=
  let base := s.dev.val Reg.itemMapBase
  let owners := (List.range (s.dev.val Reg.itemMapItems)).filterMap fun i =>
    let e := itemParse (s.devNat (base + 8 * i) 8)
    if e.live then some (s.headOf e.list).tenant else none
  s.onDev fun d => { d with tier := { d.tier with items := owners.eraseDups.map fun t => (t, owners.count t) } }

/-- The same where the bytes from `a` on, `n` of them, meet the map. -/
def recountIf (s : State) (a n : Nat) : State :=
  let base := s.dev.val Reg.itemMapBase
  if a < base + 8 * s.dev.val Reg.itemMapItems ∧ base < a + n then s.recountItems else s

/-- An INSERT, after the tests that do not depend on the list (R183, R184, R200, R249). -/
def publishInsert (s : State) (o : StagedOp) (list : Nat) (code : List Byte) : State × Nat :=
  let r := o.req
  let id := opId r
  let commit := o.commit % 2 ^ 32
  let h := s.headOf list
  let old := s.itemLoc id
  let d := s.listDims h
  if s.dev.val Reg.idxLists ≤ list ∨ h.tenant ≠ r.tenant then (s, ostBadRecord)
  else if 2 ^ h.sideLog ≤ sideCount h then (s.onDev (·.sideFull h), ostListFull)
  else if ¬ old.live ∧ s.dev.val (Reg.tntItemLimit r.tenant) ≤ s.dev.itemsLive r.tenant then
    (s.onDev fun d => (d.bump Ctr.tierItemRefusals).putFlag Reg.tierStatusQuotaRefused true, ostQuota)
  else if s.sampled id ∧ (s.sampleFree id d commit).isNone then (s, ostSampleBusy)
  else
    match if old.live then s.deleteAt old commit else some s with
    | none => (s.onDev (·.overlayFull (s.headOf old.list)), ostOverlayFull)
    | some t =>
      let t := if s.sampled id then (if old.live then t.sampleDelete id d commit else t).sampleInsert r d ((s.sampleFree id d commit).getD 0) commit else t
      let h := t.headOf list
      let q := h.sideEnd
      let t := (t.writeSide h q r commit code).putHead { h with sideEnd := (q + 1) % 2 ^ 32 }
      let t := t.putItem id { list, ord := 0, slot := q % 2 ^ h.sideLog, side := true, live := true }
      (t.onDev fun d =>
        let d := d.bump Ctr.idxInserts
        if old.live then d.bump Ctr.idxReplaces else d.setItemsLive r.tenant (d.itemsLive r.tenant + 1),
       if old.live then ostReplaced else ostApplied)

/-- A DELETE, SET_MEMBER or CLEAR_MEMBER of a LIVE id (R183). -/
def publishOther (s : State) (o : StagedOp) : State × Nat :=
  let r := o.req
  let id := opId r
  let e := s.itemLoc id
  let commit := o.commit % 2 ^ 32
  if !e.live then (s.onDev (·.bump Ctr.idxDeletesAbsent), ostAbsent)
  else if opCode r = opDelete then
    match s.deleteAt e commit with
    | none => (s.onDev (·.overlayFull (s.headOf e.list)), ostOverlayFull)
    | some t =>
      let t := if s.sampled id then t.sampleDelete id (s.listDims (s.headOf e.list)) commit else t
      ((t.putItem id { e with live := false }).onDev fun d => (d.bump Ctr.idxDeletes).setItemsLive r.tenant (d.itemsLive r.tenant - 1), ostApplied)
  else
    let on := opCode r = opSetMember
    ((s.setMember r.tenant (opSet r) e on).onDev fun d => (d.bump Ctr.idxMembershipUpdates).noteMember e.list (opSet r) id on, ostApplied)

/-- One operation at its commit cairn: its effect and its status (R182, R183, R187). The Bool says that its staging did not complete, be it that no
step staged it or that a SCATTER of it was abandoned (R220). -/
def publishOp (s : State) (o : StagedOp) : State × Nat × Bool :=
  let r := o.req
  if o.refused then (s, ostNotApplied, o.staged.isNone)
  else match o.staged with
  | none => (s, ostNotApplied, true)
  | some (list, code) =>
    if !s.givesShard (s.routingMap (o.commit - 2)) (idShard (opId r)) then (s, ostWrongShard, false)
    else if !s.itemInRange (opId r) then (s, ostItemRange, false)
    else
      let res := if opCode r = opInsert then s.publishInsert o (if opList r = 0xFFFFFFFF then list else opList r) code else s.publishOther o
      (res.1, res.2, false)

/-- An operation has ended: refusals are counted and the completion waits to be sent. -/
def endOp (s : State) (o : StagedOp) (st : Nat) : State :=
  s.onDev fun d =>
    let d := if 0x10 ≤ st then d.bump Ctr.idxOpsRefused else d
    { d with idx := { d.idx with ended := d.idx.ended ++ [(o.req, st, o.commit)] } }

/-- Publication at the cairn of the present epoch, in admitted order; those of a cohort that is missing on this
module were not staged in full (R182). -/
def publish (s : State) : State :=
  let now := s.dev.epoch
  let due := s.dev.idx.staged.filter (·.commit = now)
  let (s, failed) := due.foldl (fun (acc : State × Nat) o =>
    let o := if acc.1.dev.seq.missing.contains (now - 2) && !o.refused then { o with staged := none } else o
    let (s, st, unstaged) := acc.1.publishOp o
    (s.endOp o st, acc.2 + boolNat unstaged)) (s, 0)
  s.onDev fun d =>
    let d := { d with idx := { d.idx with staged := d.idx.staged.filter (·.commit != now) } }
    if failed = 0 then d else d.raise .indexStageFailed Dev.srcLantern [(8, now), (4, failed)]

/-! ### Staging (R182, R186) -/

/-- Stages one operation (R182, R186): an id of this module whose map location does not hold it refuses the operation; an INSERT gets its list and
its code, and its side entry is written beyond SIDE_END, after those already staged for the list. -/
def stageOp (s : State) (w : Encoding) (o : StagedOp) : State × StagedOp :=
  let r := o.req
  let id := opId r
  let e := s.itemLoc id
  if s.givesShard (s.routingMap (o.commit - 2)) (idShard id) ∧ s.itemInRange id ∧ e.live ∧ s.idAt e ≠ id then
    (s.onDev (·.raise .indexMapMismatch Dev.srcLantern [(8, id), (8, s.itemBitsAt id)]), { o with refused := true, staged := some (opList r, []) })
  else if opCode r ≠ opInsert then (s, { o with staged := some (opList r, []) })
  else
    let list := if opList r = 0xFFFFFFFF then s.bestList w r.tenant (opVector r) else opList r
    if s.dev.val Reg.idxLists ≤ list then (s, { o with staged := some (list, []) }) else
    let h := s.headOf list
    let code := s.encodeItem w h (opVector r)
    let before := s.dev.idx.staged.countP fun p => p.commit = o.commit && opCode p.req = opInsert && (p.staged.map (·.1)) = some list
    (if sideCount h + before < 2 ^ h.sideLog then s.writeSide h (h.sideEnd + before) r (o.commit % 2 ^ 32) code else s,
     { o with staged := some (list, code) })

/-- What the steps of a slot stage: the filter sets that come into use, then operations whose commit epoch is the next one, in admitted order. -/
def stageOps (s : State) (w : IndexWork) : State :=
  let s := w.sets.foldl addSet s
  let now := s.dev.epoch
  let due := s.dev.idx.staged.filter fun o => o.commit = now + 1 && o.staged.isNone && !o.refused
  (due.take w.staged).foldl (fun s o =>
    let (s, o') := s.stageOp w.code o
    s.onDev fun d => { d with idx := { d.idx with staged := d.idx.staged.map fun p => if p = o then o' else p } }) s

/-! ### Ageing, folding, frees (R191, R192, R195) -/

end State

namespace Dev

/-- Abandons every step and sump entry of a cohort with its dependants; answers how many (R191). -/
def abandonCohort (d : Dev) (cohort : Nat) : Dev × Nat :=
  let own (origin : Nat) (h : Hdr) : Bool := cohortOf origin h.stage = cohort
  let steps := d.seq.inflight.filter fun f => own f.origin f.step.hdr
  let before := d.seq.inflight.length + d.seq.sump.length
  let d := steps.foldl (fun d f => (d.abandonSteps f.chamber f.origin [f.step.hdr.index]).1) d
  let roots := d.seq.sump.filter fun e => own e.origin e.step.hdr
  let d := roots.foldl (fun d e =>
    let mine := (d.sumpOf e.chamber).filter (·.origin = e.origin)
    let gone := closure [e.step.hdr.index] (mine.map fun x => (x.step.hdr.index, x.step.hdr.depends))
    { d with seq := { d.seq with sump := d.seq.sump.filter fun x => !(x.chamber = e.chamber && x.origin = e.origin && gone.contains x.step.hdr.index) } }.sumpDepths e.chamber) d
  (d, before - (d.seq.inflight.length + d.seq.sump.length))

/-- One cohort has aged out. -/
def ageOut (d : Dev) (cohort : Nat) : Dev :=
  let (d, n) := d.abandonCohort cohort
  let d := ((d.raise .indexAgedOut srcLantern [(8, d.epoch), (8, cohort + 2), (4, n)] true).bump Ctr.idxCohortsAgedOut).missCohort cohort
  { d with ingress := { d.ingress with cohorts := d.ingress.cohorts.filter (·.epoch != cohort) } }

/-- The cohorts that something in the block still belongs to. -/
def liveCohorts (d : Dev) : List Nat :=
  (d.ingress.cohorts.map (·.epoch) ++ d.seq.inflight.map (fun f => cohortOf f.origin f.step.hdr.stage)
    ++ d.seq.sump.map fun e => cohortOf e.origin e.step.hdr.stage).eraseDups

/-- R191 at the cairn of the present epoch: cohorts whose snapshot is below n - 16. -/
def ageCohorts (d : Dev) : Dev :=
  (sortBy (fun a b => decide (a < b)) (d.liveCohorts.filter fun e => decide (e + 2 + 16 < d.epoch))).foldl ageOut d

end Dev

namespace State

/-- The version an overlay entry names: the current one by parity, else a retained previous one (R192). -/
def overlayTarget (s : State) (h : ListHead) (o : Overlay) : Option Nat :=
  let d := s.segDesc h o.ord
  if o.ver = d.curVer % 2 then some d.curNum else if d.prevValid && o.ver = d.prevVer % 2 then some d.prevNum else none

/-- Folds entry `k` of a list's overlay when it is foldable: its tombstone bit is set, and it waits for removal (R192). -/
def foldOverlay (s : State) (list k : Nat) : State :=
  let h := s.headOf list
  match (s.overlays h)[k]? with
  | none => s
  | some o =>
    let mark := (list, o.slot, o.ord, o.ver, o.commit)
    if s.dev.idx.folded.contains mark || !wrapLe o.commit (wrapSub (s.dev.epoch % 2 ^ 32) 16) then s else
    let s := match s.overlayTarget h o with
      | some g => (s.setMapBit (s.tombAddr g) o.slot true).onDev (·.bump Ctr.idxTombstonesSet)
      | none => s
    s.onDev fun d => { d with idx := { d.idx with folded := d.idx.folded ++ [mark] } }

/-- Removal of the folded entries of a list (R195). -/
def dropFolded (s : State) (list : Nat) : State :=
  let h := s.headOf list
  let keep := (s.overlays h).filter fun o => !s.dev.idx.folded.contains (list, o.slot, o.ord, o.ver, o.commit)
  ((s.devWrite (s.ovlAddr h) (keep.flatMap ovlBytes)).putHead { h with ovlCount := keep.length }).onDev fun d =>
    { d with idx := { d.idx with folded := d.idx.folded.filter (·.1 != list) } }

/-- Every folded entry is removed, in ascending list number. -/
def dropAllFolded (s : State) : State :=
  (sortBy (fun a b => decide (a < b)) (s.dev.idx.folded.map (·.1)).eraseDups).foldl dropFolded s

/-- Charge of one segment version (R174). -/
def segCharge (s : State) : Nat := segStride s.codeBytes + 512

/-- A segment number returns to the pool, and its charge from the tenant to the system account (R195, R246, R247). -/
def freeSeg (s : State) (tenant g : Nat) : State :=
  s.onDev fun d =>
    let d := { d with idx := { d.idx with freeSegs := d.idx.freeSegs ++ [g] } }.credit tenant 1 s.segCharge
    d.setUsed 64 1 (d.usedOf 64 1 + s.segCharge)

/-- Frees the previous version of an ordinal at its FREE_AT (R195). -/
def freePrev (s : State) (list ord : Nat) : State :=
  let h := s.headOf list
  let d := s.segDesc h ord
  if s.dev.epc.inCairn ∧ ord < h.ords ∧ d.prevValid ∧ d.freeAt = s.dev.epoch % 2 ^ 32 then
    ((s.putSegDesc h ord { d with prevValid := false }).freeSeg h.tenant d.prevNum).onDev (·.bump Ctr.idxSegmentsFreed)
  else s

/-- SIDE_START := MERGE_END at MERGE_AT + 16 (R195). -/
def advanceSide (s : State) (list : Nat) : State :=
  let h := s.headOf list
  if s.dev.epc.inCairn ∧ (h.mergeAt + 16) % 2 ^ 32 = s.dev.epoch % 2 ^ 32 ∧ sideCount h ≠ 0 ∧ wrapLt h.sideStart h.mergeEnd then s.putHead { h with sideStart := h.mergeEnd } else s

end State

/-! ### The commands -/

/-- COHORT_AGE_OUT at the cairn of the present epoch (R191). -/
def execCohortAgeOut (s : State) : Host.Outcome State Fault Refusal := devOnly s (·.ageCohorts)

/-- OVERLAY_ENTRY_FOLDABLE: entry `k` of a list's overlay (R192). -/
def execOverlayEntryFoldable (list k : Nat) (s : State) : Host.Outcome State Fault Refusal := done (s.foldOverlay list k)

/-- PREV_VERSION_FREE of an ordinal of a list (R195). -/
def execPrevVersionFree (list ord : Nat) (s : State) : Host.Outcome State Fault Refusal := done (s.freePrev list ord)

/-- SIDE_START_ADVANCE of a list (R195). -/
def execSideStartAdvance (list : Nat) (s : State) : Host.Outcome State Fault Refusal := done (s.advanceSide list)

end Sys2Proof.Machine
end

