-- ==== Sys2Proof/Machine/Rows.lean ====
section
/-! DEFINITION. Row tables: descriptors, versions, the redirect log, hot indices and the steps GATHER and SCATTER with the
siphon's batches (08_row_tables_and_siphon.md R206 to R229). -/

namespace Sys2Proof.Machine

open Sys2Proof.Crypto

/-! ### Descriptors (R207, R208) -/

/-- A version of a table: home, tier, number and presence bitmap. -/
structure RowVer where
  home : Nat
  tier : Nat
  ver : Nat
  present : Nat
  deriving DecidableEq, Repr

structure RowTable where
  t : Nat
  tenant : Nat
  valid : Bool
  mutable' : Bool
  byShard : Bool
  drip : Bool
  rowBytes : Nat
  rows : Nat
  cur : RowVer
  from' : Nat
  prev : RowVer
  prevValid : Bool
  freeAt : Nat
  rdrBase : Nat
  rdrLog : Nat
  hotLog : Nat
  hotActive : Nat
  hotA : Nat
  hotB : Nat
  spillBase : Nat
  spillRows : Nat
  cntBase : Nat
  deriving DecidableEq, Repr

def rowParse (t : Nat) (b : List Byte) : RowTable :=
  { t, tenant := fieldAt b 5 1, valid := bit (fieldAt b 6 1) 0, mutable' := bit (fieldAt b 6 1) 1, byShard := bit (fieldAt b 6 1) 2,
    drip := bit (fieldAt b 6 1) 3, rowBytes := fieldAt b 8 2, rows := fieldAt b 16 8,
    cur := ⟨fieldAt b 24 8, fieldAt b 32 1, fieldAt b 33 1, fieldAt b 40 8⟩, from' := fieldAt b 36 4,
    prev := ⟨fieldAt b 48 8, fieldAt b 56 1, fieldAt b 57 1, fieldAt b 64 8⟩, prevValid := bit (fieldAt b 58 1) 0, freeAt := fieldAt b 60 4,
    rdrBase := fieldAt b 72 8, rdrLog := fieldAt b 80 1, hotLog := fieldAt b 81 1, hotActive := fieldAt b 82 1, hotA := fieldAt b 88 8,
    hotB := fieldAt b 96 8, spillBase := fieldAt b 104 8, spillRows := fieldAt b 112 4, cntBase := fieldAt b 116 8 }

/-- The first field that bars a step from a table: VALID, CHECK, a field out of range or reserved, the tenant (R208). -/
def rowField (addr t tenant : Nat) (b : List Byte) : Option Nat :=
  let r := rowParse t b
  let tests : List (Nat × Bool) := [
    (0x06, r.valid), (0x7C, fieldAt b 124 4 = check32c addr (b.take 124)), (0x00, fieldAt b 0 4 = 0x5A525431), (0x04, fieldAt b 4 1 = t),
    (0x05, decide (r.tenant < 64)), (0x06, decide (fieldAt b 6 1 < 16)), (0x07, fieldAt b 7 1 = 0),
    (0x08, between 64 r.rowBytes 16384 && r.rowBytes % 64 = 0), (0x0A, fieldAt b 10 6 = 0), (0x10, between 1 r.rows (2 ^ 40)),
    (0x20, decide (r.cur.tier ≤ 2)), (0x22, fieldAt b 34 2 = 0), (0x38, decide (r.prev.tier ≤ 2)), (0x3A, decide (fieldAt b 58 1 < 2)),
    (0x3B, fieldAt b 59 1 = 0), (0x48, if r.mutable' then r.rdrBase % 128 = 0 else r.rdrBase = 0),
    (0x50, if r.mutable' then between 4 r.rdrLog 20 else r.rdrLog = 0), (0x51, if r.drip then between 4 r.hotLog 20 else r.hotLog = 0),
    (0x52, decide (r.hotActive < 2)), (0x53, fieldAt b 83 5 = 0), (0x58, r.hotA % 64 = 0), (0x60, r.hotB % 64 = 0), (0x68, r.spillBase % 64 = 0),
    (0x74, r.drip || r.cntBase = 0), (0x05, r.tenant = tenant)]
  (tests.find? fun t => !t.2).map (·.1)

namespace State

def rowDescAddr (s : State) (t : Nat) : Nat := s.dev.val Reg.rowDescBase + 128 * t
def rowTable (s : State) (t : Nat) : RowTable := rowParse t (s.devRead (s.rowDescAddr t) 128).1

/-- Fields of a descriptor rewritten, as (offset, bytes), with its CHECK. -/
def putRowFields (s : State) (t : Nat) (fs : List (Nat × List Byte)) : State :=
  let a := s.rowDescAddr t
  let s := fs.foldl (fun s (o, bs) => s.devWrite (a + o) bs) s
  s.devWrite (a + 124) (leBytes 4 (check32c a (s.devRead a 124).1))

/-- The table a step may use, or the field for which it is refused: 0xFF while ROWS_EN is 0 (R208, R216, R228). -/
def tableFor (s : State) (t tenant units : Nat) : Except Nat RowTable :=
  if !s.dev.on Reg.rowCtrlRowsEn then .error 0xFF else
  let a := s.rowDescAddr t
  match rowField a t tenant (s.devRead a 128).1 with
  | some f => .error f
  | none => let r := s.rowTable t; if r.rowBytes = 64 * units then .ok r else .error 0x08

end State

/-- ROW_TABLE_REFUSED: the step is abandoned (R208). -/
def Dev.rowRefused (d : Dev) (x : Ctx) (t field : Nat) : Dev :=
  (d.raise .rowTableRefused x.src [(1, x.c), (2, x.hdr.index), (1, t), (1, field)] true).abandon x

/-! ### Versions, redirects, hot copies (R211 to R214, R226) -/

/-- The version read at a snapshot. -/
def RowTable.version (r : RowTable) (snap : Nat) : Option RowVer :=
  if wrapLe r.from' snap then some r.cur else if r.prevValid then some r.prev else none

/-- The bucket of a row among 2^`lg` (R212). -/
def rowBucket (row lg : Nat) : Nat := row * 0x9E3779B97F4A7C15 % 2 ^ 64 / 2 ^ (64 - lg)

/-- An entry of the redirect log. -/
structure Redirect where
  row : Nat
  ver : Nat
  used : Bool
  spill : Nat
  commit : Nat
  deriving DecidableEq, Repr

def redirectParse (b : List Byte) : Redirect :=
  { row := fieldAt b 0 6, ver := bits (fieldAt b 6 1) 0 1, used := bit (fieldAt b 6 1) 1, spill := fieldAt b 8 4, commit := fieldAt b 12 4 }
def redirectBytes (e : Redirect) : List Byte :=
  leBytes 6 e.row ++ leBytes 1 (e.ver % 2 + 2 * boolNat e.used) ++ [0] ++ leBytes 4 e.spill ++ leBytes 4 e.commit

namespace State

def redirectAddr (r : RowTable) (bucket k : Nat) : Nat := r.rdrBase + 128 * bucket + 16 * k
def redirectAt (s : State) (r : RowTable) (bucket k : Nat) : Redirect := redirectParse (s.devRead (redirectAddr r bucket k) 16).1
def bucketEntries (s : State) (r : RowTable) (bucket : Nat) : List Redirect := (List.range 8).map (s.redirectAt r bucket)

/-- The entry a read of a row takes: its version's parity and the greatest COMMIT at or before the snapshot (R212). -/
def redirectFor (s : State) (r : RowTable) (row ver snap : Nat) : Option Redirect :=
  if !r.mutable' then none else
  ((s.bucketEntries r (rowBucket row r.rdrLog)).filter fun e => e.used && e.row = row && e.ver = ver % 2 && wrapLe e.commit snap).foldl
    (fun best e => match best with | none => some e | some b => if wrapLt b.commit e.commit then some e else some b) none

def spillAddr (r : RowTable) (k : Nat) : Nat := r.spillBase + k * r.rowBytes

/-- Bases of the two hot indices. -/
def hotBase (r : RowTable) (which : Nat) : Nat := if which = 0 then r.hotA else r.hotB

/-- The device address of a row's hot copy of a version's parity in the active index (R226). -/
def hotFor (s : State) (r : RowTable) (row ver : Nat) : Option Nat :=
  if !r.drip then none else
  let base := hotBase r r.hotActive
  let b := base + 64 + 128 * rowBucket row r.hotLog
  ((List.range 8).map fun k => (s.devRead (b + 16 * k) 16).1).findSome? fun e =>
    let w := fieldAt e 0 8
    if bit w 42 && bits w 0 40 = row && bits w 40 1 = ver % 2 then
      let strata := s.devNat base 8
      let stack := s.devNat (base + 8) 8
      some ((if bit w 41 then stack else strata) + fieldAt e 8 4 * r.rowBytes)
    else none

/-- The hot copies of a row of a version's parity in both indices: what a fold writes beside the home (R213, R215). -/
def hotCopies (s : State) (r : RowTable) (row ver : Nat) : List Nat := [0, 1].filterMap fun w => s.hotFor { r with hotActive := w } row ver

/-- A row's presence bit; every row is present where the version has no bitmap. -/
def rowPresent (s : State) (v : RowVer) (row : Nat) : Bool :=
  v.present = 0 || mapBit (s.devRead (v.present + row / 8) 1).1 (row % 8)

end State

/-- Row statuses (R210). -/
def rsFound : Nat := 0
def rsPad : Nat := 1
def rsInvalid : Nat := 2
def rsMissing : Nat := 3
def rsLate : Nat := 4
def rsRemote : Nat := 5
def rsLost : Nat := 6
def rsNotOwner : Nat := 7

/-- Where a row's bytes come from: a spill row, a hot copy or a home in strata or stacks (all device addresses), or flash. -/
inductive RowSrc where
  | redirect (a : Nat)
  | hot (a : Nat)
  | home (a : Nat)
  | flash (lbn off : Nat)
  deriving DecidableEq, Repr

/-- The pad index. -/
def padIndex : Nat := 0xFFFFFFFFFFFFFFFF

/-- The local row of an index and, in a table BY_SHARD, its shard (R209); `none` for an INVALID one. -/
def localRow (r : RowTable) (x : Nat) : Option (Nat × Option Nat) :=
  if r.byShard then (if x % 2 ^ 48 < r.rows then some (x % 2 ^ 48, some (x / 2 ^ 48)) else none)
  else if x < r.rows then some (x, none) else none

/-- R214: the status of an index, with the source of a FOUND row; `mine` says whether this module owns a shard. -/
def rowRead (s : State) (r : RowTable) (mine : Nat → Bool) (x snap : Nat) : Nat × Option RowSrc :=
  if x = padIndex then (rsPad, none) else
  match localRow r x with
  | none => (rsInvalid, none)
  | some (row, shard) =>
    if shard.any fun k => !mine k then (rsRemote, none) else
    match r.version snap with
    | none => (rsMissing, none)
    | some v =>
      match s.redirectFor r row v.ver snap with
      | some e => (rsFound, some (.redirect (State.spillAddr r e.spill)))
      | none =>
        if !s.rowPresent v row then (rsMissing, none) else
        match s.hotFor r row v.ver with
        | some a => (rsFound, some (.hot a))
        | none =>
          if v.tier = 2 then
            let lb := max 1 (s.dev.rd Reg.flsLbBytes)
            (rsFound, some (.flash (v.home + row * r.rowBytes / lb) (row * r.rowBytes % lb)))
          else (rsFound, some (.home (v.home + row * r.rowBytes)))

/-- What reading an index reads beside the row itself, as (address, bytes): its bucket of the redirect log, its presence byte, its bucket of the hot
index; addresses formed at run time from the table's descriptor (R214, R232). -/
def rowRanges (s : State) (r : RowTable) (x snap : Nat) : List (Nat × Nat) :=
  match localRow r x, r.version snap with
  | some (row, _), some v =>
    let log := if r.mutable' then [(State.redirectAddr r (rowBucket row r.rdrLog) 0, 128)] else []
    if (s.redirectFor r row v.ver snap).isSome then log else
    let here := if v.present = 0 then [] else [(v.present + row / 8, 1)]
    if !s.rowPresent v row then log ++ here else
    let base := State.hotBase r r.hotActive
    log ++ here ++ if r.drip then [(base, 16), (base + 64 + 128 * rowBucket row r.hotLog, 128)] else []
  | _, _ => []

/-- The checks of R232 on those, and whether poison was read in them. -/
def checkRanges (x : Ctx) (rs : List (Nat × Nat)) (s : State) : State × Bool :=
  (rs.foldl (fun s a => s.locCheck x.c (.dev a.1) a.2 x.hdr.index) s, rs.any fun a => (s.devRead a.1 a.2).2)

/-- The access counter of a row that a read through the hot set or the home touches (R225); 0 for none. -/
def rowCounter (r : RowTable) (x : Nat) : Nat :=
  if r.drip then (match localRow r x with | some (row, _) => r.cntBase + 2 * row | none => 0) else 0

namespace Dev

/-- A dropped index is counted for its table and for the step's tenant; one of another owner counts as MISSING (R218). -/
def dropIndex (d : Dev) (t tenant st : Nat) : Dev :=
  if st = rsInvalid then (d.bump (Ctr.tabInvalid t)).bump (Ctr.rowTntInvalid tenant)
  else if st = rsMissing || st = rsNotOwner then (d.bump (Ctr.tabMissing t)).bump (Ctr.rowTntMissing tenant) else d

/-- Stack bytes read by a metered step. -/
def meterStack (d : Dev) (h : Hdr) (a n : Nat) : Dev := if 0x1000000000 ≤ a then d.meter h 3 n else d

end Dev

/-! ### GATHER (R216 to R219) -/

/-- The outputs of a GATHER: rows, statuses and references. -/
def gatherOuts (p : GatherP) (rb : Nat) : List (Nat × Nat) :=
  [(p.outAddr, rb * p.outCap), (p.statusAddr, p.count)] ++ if bit p.mode 0 then [(p.refAddr, 4 * p.count)] else []

/-- Reads one FOUND row into its place, with its status; a flash row is queued. Answers its present status, and whether poison was read. -/
def fetchRow (x : Ctx) (r : RowTable) (outs : List (Nat × Nat)) (rowAddr statAddr idx : Nat) (src : RowSrc) (poison : Bool) (s : State) :
    State × Nat × Bool :=
  let put (s : State) (a : Nat) : State × Bool :=
    let s := s.locCheck x.c (.dev a) r.rowBytes x.hdr.index
    let (bs, bad) := s.devRead a r.rowBytes
    let s := (s.locWrite x.c (locOf x.c rowAddr) bs (bad || poison)).locWrite x.c (locOf x.c statAddr) [BitVec.ofNat 8 rsFound] (bad || poison)
    (s.onDev fun d => (d.meterStack x.hdr a r.rowBytes).bump (Ctr.tabReads r.t), bad)
  let touch (s : State) : State :=
    let a := rowCounter r idx
    if a = 0 then s else (s.locCheck x.c (.dev a) 2 x.hdr.index).touchRow a
  match src with
  | .redirect a => let q := put s a; (q.1.onDev (·.bump Ctr.rowRedirectHits), rsFound, q.2)
  | .hot a => let q := put s a; ((touch q.1).onDev (·.bump Ctr.rowHotHits), rsFound, q.2)
  | .home a => let q := put s a; ((touch q.1).onDev (·.bump Ctr.rowHomeReads), rsFound, q.2)
  | .flash lbn off =>
    let st := extentStatus s x.hdr.tenant r.rowBytes ⟨lbn, off, r.rowBytes, 0⟩
    let rd : FlashRead :=
      { chamber := x.c, idx := x.hdr.index, origin := x.origin, slot := x.hdr.slot, tenant := x.hdr.tenant, lbn, off, len := r.rowBytes,
        dsts := [rowAddr], stats := [statAddr], row := true, table := r.t, counter := rowCounter r idx, deadline := true, late := false,
        dirty := poison, outs }
    let s := s.mapLook lbn
    if st = 0 then
      (s.onDev fun d => { (d.bump Ctr.rowHomeReads).bump (Ctr.tabReads r.t) with fls := { d.fls with reads := d.fls.reads ++ [rd] } }, rsFound, false)
    else
      let s := s.deliver rd (List.replicate r.rowBytes 0) st (st = 4)
      (s.onDev (·.dropIndex r.t x.hdr.tenant (State.readStatus true st)), State.readStatus true st, st = 4)

/-- A GATHER under way: the state, the rows written by the whole step, the coalescing table (index, row, place, status), the remote indices, the rows
fetched and the bytes written by this part, whether poison was read, and where it stopped. -/
structure GatherSt where
  s : State
  u : Nat
  seen : List (Nat × Nat × Nat × Nat)
  remote : List Nat
  fetched : Nat
  written : Nat
  dirty : Bool
  stop : Option Nat
  deriving DecidableEq, Repr

/-- A queued flash read of the same row serves one more place. -/
def alsoRead (x : Ctx) (rowAddr : Nat) (dst : Option Nat) (stat : Nat) (s : State) : State × Bool :=
  let hit (r : FlashRead) : Bool := r.chamber = x.c && r.idx = x.hdr.index && r.origin = x.origin && r.row && r.dsts.contains rowAddr
  if s.dev.fls.reads.any hit then
    let more (r : FlashRead) : FlashRead := if hit r then { r with dsts := r.dsts ++ dst.toList, stats := r.stats ++ [stat] } else r
    (s.onDev fun d => { d with fls := { d.fls with reads := d.fls.reads.map more } }, true)
  else (s, false)

/-- Cycles of a part of a GATHER: indices, rows fetched, bytes written (R219). -/
def gatherCost (n fetched written rb : Nat) : Nat := ceilDiv n 64 + ceilDiv (fetched * rb) 256 + ceilDiv written 512 + 32

/-- One index of the procedure of R217: the work unit of R50. The first index of a part always runs. -/
def gatherOne (op : GatherOp) (p : GatherP) (r : RowTable) (mine : Nat → Bool) (snap : Nat) (poison : Bool) (x : Ctx) (g : GatherSt)
    (i idx : Nat) : GatherSt :=
  if g.stop.isSome then g else
  let ref := bit p.mode 0
  let rb := r.rowBytes
  let place (u : Nat) : Nat := addrPlus p.outAddr (rb * if ref then u else i)
  let stat := addrPlus p.statusAddr i
  let start := x.resume.getD 0 0
  let (st0, src) := rowRead g.s r mine idx snap
  let st := if st0 = rsRemote ∧ op = .fetch then rsNotOwner else st0
  let dropped := st = rsPad || st = rsInvalid || st = rsMissing || st = rsNotOwner
  let old := if dropped then none else g.seen.find? (·.1 = idx)
  let fresh := !dropped && old.isNone
  let bytes := if !ref then rb + 1 else if fresh then rb + 5 else 5
  let rows := boolNat (fresh && src.isSome)
  if start < i ∧ x.hdr.budget < gatherCost (i + 1 - start) (g.fetched + rows) (g.written + bytes) rb then { g with stop := some i } else
  if fresh && (decide (65536 ≤ g.seen.length) || (ref && decide (p.outCap ≤ g.u))) then { g with stop := some i } else
  let (s, metaBad) := if idx = padIndex then (g.s, false) else checkRanges x (rowRanges g.s r idx snap) g.s
  let poison := poison || metaBad
  let putRef (s : State) (v : Nat) : State := if ref then s.locWrite x.c (locOf x.c (addrPlus p.refAddr (4 * i))) (leBytes 4 v) poison else s
  let putStat (s : State) (st : Nat) : State := s.locWrite x.c (locOf x.c stat) [BitVec.ofNat 8 st] poison
  let blank (s : State) : State := if ref then s else s.locWrite x.c (locOf x.c (place 0)) (List.replicate rb 0) poison
  let s := if st = rsPad then s else s.onDev (·.bump Ctr.rowGatherIndices)
  let g := { g with fetched := g.fetched + rows, written := g.written + bytes, dirty := g.dirty || metaBad }
  if dropped then { g with s := (blank (putStat (putRef s 0xFFFFFFFF) st)).onDev (·.dropIndex r.t x.hdr.tenant st) }
  else match old with
  | some (_, u, at', st) =>
    let s := (putRef s u).onDev fun d => (d.bump Ctr.rowDupIndex).dropIndex r.t x.hdr.tenant st
    let (s, queued) := alsoRead x at' (if ref then none else some (place u)) stat s
    let s := if queued then s else
      let s := putStat s st
      if ref then s else if st = rsFound then
        let (bs, bad) := s.locRead x.c (locOf x.c at') rb
        s.locWrite x.c (locOf x.c (place u)) bs bad
      else blank s
    { g with s }
  | none =>
    let s := putRef s g.u
    let (s, st, bad) := match src with
      | some sr => fetchRow x r (gatherOuts p rb) (place g.u) stat idx sr poison s
      | none => (s.locWrite x.c (locOf x.c (place g.u)) (List.replicate rb 0) poison |> (putStat · rsRemote), rsRemote, false)
    { g with s, u := g.u + 1, seen := g.seen ++ [(idx, g.u, place g.u, st)], remote := if st = rsRemote then g.remote ++ [idx] else g.remote,
             dirty := g.dirty || bad }

/-- Does the routing map of a cohort give this module a shard? -/
def minesOf (s : State) (cohort : Nat) (shard : Nat) : Bool := s.givesShard (s.routingMap cohort) shard

/-- The owner node of a shard under a map. -/
def ownerNode (map : Option (List Byte)) (shard : Nat) : Option Nat :=
  map.bind fun b => if shard < mapShards b ∧ shardOwner b shard < mapMembers b then some (memberNode b (shardOwner b shard)) else none

/-- Header bytes 0 to 27 of a siphon batch (R222). -/
def batchHead (kind t round count version snap units : Nat) : List Byte :=
  leBytes 1 kind ++ leBytes 1 t ++ leBytes 1 round ++ [0] ++ leBytes 2 count ++ leBytes 2 version ++ leBytes 8 snap ++ leBytes 2 units ++ List.replicate 10 0

/-- Marks indices LOST at every position. -/
def loseIndices (p : GatherP) (x : Ctx) (idxs : List Nat) (lost : List Nat) (s : State) : State :=
  (idxs.zip (List.range idxs.length)).foldl (fun s (v, i) =>
    if lost.contains v then s.locWrite x.c (locOf x.c (addrPlus p.statusAddr i)) [BitVec.ofNat 8 rsLost] else s) s

/-- The end of a SPLIT: each owner's indices ascending, in a main and an overflow batch; what is left over is LOST (R221). The plans have a slot of
both rounds for every pair of modules, so every other member gets both batches, of COUNT 0 where none of its indices is left. -/
def splitEnd (p : GatherP) (r : RowTable) (snap : Nat) (x : Ctx) (idxs remote : List Nat) (poison : Bool) (s : State) : State :=
  let map := s.routingMap x.cohort
  let version := (map.map mapVersion).getD 0
  let members := (map.map mapMembers).getD 0
  let box := columnBase x.c + p.boxAddr
  let sorted := sortBy (fun a b : Nat => decide (a < b)) remote
  let (s, dropped, peer) := (List.range members).foldl (fun (acc : State × Nat × Nat) m =>
    let (s, dropped, peer) := acc
    let node := (map.map (memberNode · m)).getD 0
    if node = s.dev.val Reg.fabNodeNodeId then acc else
    let mine := sorted.filter fun v => (map.bind fun b => if v / 2 ^ 48 < mapShards b then some (shardOwner b (v / 2 ^ 48)) else none) = some m
    let put (s : State) (round : Nat) (xs : List Nat) : State :=
      let a := box + boxStride p.pairCap * (2 * m + round)
      let bs := batchHead 1 r.t round xs.length version snap p.rowUnits ++ leBytes 4 0 ++ xs.flatMap (leBytes 8)
      let s := (s.locCheck x.c (.dev a) bs.length x.hdr.index).devWrite a bs poison
      s.onDev fun d => { d.bump Ctr.rowSiphonRequested xs.length with rows := { d.rows with splits := d.rows.splits ++
        [⟨x.c, p.table, p.idxAddr, p.outAddr, p.statusAddr, node, round, xs⟩] } }
    let s := put (put s 0 (mine.take p.pairCap)) 1 ((mine.drop p.pairCap).take p.pairCap)
    let lost := mine.drop (2 * p.pairCap)
    let s := loseIndices p x idxs lost s
    (s.onDev fun d => (d.bump Ctr.rowSiphonOverflowRows lost.length).bump (Ctr.tabLost r.t) lost.length,
     dropped + lost.length, if dropped = 0 ∧ lost ≠ [] then node else peer)) (s, 0, 0)
  if dropped = 0 then s
  else s.onDev (·.raise .siphonOverflow x.src [(1, x.c), (2, x.hdr.index), (2, peer), (4, dropped)] true)

/-- The end of a part of a GATHER: a continuation from where it stopped, counted (R217). -/
def gatherMore (s : State) (resume : List Nat) : State × Option (List Nat) := (s.onDev (·.bump Ctr.rowGatherContinuations), some resume)

/-- GATHER FETCH and SPLIT (R217). Poison read anywhere in a part poisons all that the part writes (R94). -/
def gatherRun (op : GatherOp) (p : GatherP) (x : Ctx) (s : State) : State × Option (List Nat) :=
  match s.tableFor p.table x.hdr.tenant p.rowUnits with
  | .error f => (s.onDev (·.rowRefused x p.table f), none)
  | .ok r =>
    let (s, list, bad) := s.locUse x (locOf x.c p.idxAddr) (8 * p.count)
    let snapAt := columnBase x.c + p.snapAddr
    let (sb, snapBad) := s.devRead snapAt 8
    let snap := leNat sb
    let idxs := (chunks 8 list).map leNat
    let start := x.resume.getD 0 0
    let s := if op = .split && start = 0 then s.onDev fun d => { d with rows := { d.rows with splits := d.rows.splits.filter fun b =>
        !(b.chamber = x.c && b.idxAddr = p.idxAddr && b.outAddr = p.outAddr && b.table = p.table) } } else s
    let mine := minesOf s x.cohort
    let map := s.routingMap x.cohort
    let own (op : GatherOp) (v : Nat) : GatherOp := if op = .split && r.byShard && (ownerNode map (v / 2 ^ 48)).isNone then .fetch else op
    let run (poison : Bool) : GatherSt := ((idxs.zip (List.range idxs.length)).drop start).foldl
      (fun g (v, i) => gatherOne (own op v) p r mine (snap % 2 ^ 32) poison x g i v)
      ⟨s, x.resume.getD 1 0, [], x.resume.drop 2, 0, 0, false, none⟩
    let clean := run (bad || snapBad)
    let poison := bad || snapBad || clean.dirty
    let g := if clean.dirty then run true else clean
    match g.stop with
    | some i => gatherMore g.s ([i, g.u] ++ g.remote)
    | none => (if op = .split then splitEnd p r snap x idxs g.remote.eraseDups poison g.s else g.s, none)

/-! ### SERVE and FILL (R222 to R224) -/

/-- The message a RECV left at an address of a chamber. -/
def State.inboxAt (s : State) (c addr : Nat) : Option SiphonIn := s.dev.rows.inbox.find? fun m => m.chamber = c && m.addr = addr

/-- The first field of a batch that fails: `body` are the bytes after the header. -/
def batchField (kind t units seq : Nat) (b body : List Byte) : Option Nat :=
  let tests : List (Nat × Bool) := [(0, fieldAt b 0 1 = kind), (1, fieldAt b 1 1 = t), (2, decide (fieldAt b 2 1 < 2)), (3, fieldAt b 3 1 = 0),
    (4, decide (fieldAt b 4 2 ≤ 4096)), (16, fieldAt b 16 2 = units), (18, fieldAt b 18 8 = 0 && fieldAt b 26 2 = 0),
    (28, fieldAt b 28 4 = check32c seq (b.take 28 ++ body))]
  (tests.find? fun t => !t.2).map (·.1)

/-- May this module serve a shard of a request routed by a map version: by the current map, or by the previous one within the
drain window (R383), and not while it holds the cohort's state as a shadow (R384)? The Bool says that the version is stale. -/
def State.servesUnder (s : State) (version cohort : Nat) : (Nat → Bool) × Bool :=
  let cur := s.currentMap
  let shadow (k : Nat) : Bool := s.dev.pool.shadows.any fun h => h.cohort = cohort && h.shard = k
  if cur.map mapVersion = some version then (fun k => s.givesShard cur k && !shadow k, false)
  else if s.dev.pool.prevMap != [] && mapVersion s.dev.pool.prevMap = version && decide (s.dev.epoch ≤ s.dev.pool.takenAt + 3) then
    (fun k => s.givesShard (some s.dev.pool.prevMap) k && !shadow k, false)
  else (fun _ => false, true)

/-- A request under a stale map (R383). SOURCE is Lantern, also where a chamber's SERVE step meets the request (log entry 134). -/
def Dev.staleRequest (d : Dev) (peer version : Nat) : Dev :=
  let d := d.bump Ctr.poolStaleRequests
  if d.pool.staleSaid.contains (peer, d.epoch) then d else
  { (d.raise .poolStaleRequest Dev.srcLantern [(2, peer), (2, version), (8, d.epoch)]) with
    pool := { d.pool with staleSaid := d.pool.staleSaid ++ [(peer, d.epoch)] } }

/-- Whether the reply area of a SERVE holds a reply to send (R223). -/
def Dev.replyReady (d : Dev) (c out : Nat) (ok : Bool) : Dev :=
  let rest := d.rows.noReply.filter (· != (c, out))
  { d with rows := { d.rows with noReply := if ok then rest else rest ++ [(c, out)] } }

/-- A SERVE or FILL under way: the state, the rows fetched, the bytes written, whether poison was read, and where it stopped. -/
structure SiphonSt where
  s : State
  fetched : Nat
  written : Nat
  dirty : Bool
  stop : Option Nat
  deriving DecidableEq, Repr

/-- One index of a SERVE (R223): its row and its status in the reply. -/
def serveOne (p : GatherP) (r : RowTable) (n snap : Nat) (serves : Option (Nat → Bool)) (poison : Bool) (x : Ctx) (g : SiphonSt) (i v : Nat) : SiphonSt :=
  if g.stop.isSome then g else
  let start := x.resume.getD 0 0
  let rb := r.rowBytes
  let rowAt := addrPlus p.outAddr (32 + roundUp n 64 + i * rb)
  let statAt := addrPlus p.outAddr (32 + i)
  let owned := match serves with
    | none => false
    | some f => match localRow r v with | some (_, some k) => f k | _ => true
  let (st, src) := rowRead g.s r (fun _ => true) v (snap % 2 ^ 32)
  let st := if !owned && st != rsPad && st != rsInvalid then rsNotOwner else st
  let src := if st = rsFound then src else none
  let rows := boolNat src.isSome
  if start < i ∧ x.hdr.budget < gatherCost (i + 1 - start) (g.fetched + rows) (g.written + rb + 1) rb then { g with stop := some i } else
  let (s, metaBad) := if st = rsPad || st = rsNotOwner then (g.s, false) else checkRanges x (rowRanges g.s r v (snap % 2 ^ 32)) g.s
  let poison := poison || metaBad
  let s := if st = rsPad then s else s.onDev (·.bump Ctr.rowGatherIndices)
  let g := { g with fetched := g.fetched + rows, written := g.written + rb + 1, dirty := g.dirty || metaBad }
  let s := s.locCheck x.c (locOf x.c rowAt) rb x.hdr.index
  match src with
  | some sr =>
    let (s, st, bad) := fetchRow x r [(p.outAddr, 32 + roundUp n 64 + n * rb)] rowAt statAt v sr poison s
    { g with s := if st = rsFound then s.onDev (·.bump Ctr.rowSiphonServed) else s, dirty := g.dirty || bad }
  | none =>
    let s := (s.locWrite x.c (locOf x.c rowAt) (List.replicate rb 0) poison).locWrite x.c (locOf x.c statAt) [BitVec.ofNat 8 st] poison
    { g with s := s.onDev (·.dropIndex r.t x.hdr.tenant st) }

/-- GATHER SERVE: reads the rows of the request at its SNAPSHOT and forms the reply (R223). -/
def serveRun (p : GatherP) (x : Ctx) (s : State) : State × Option (List Nat) :=
  match s.tableFor p.table x.hdr.tenant p.rowUnits with
  | .error f => (s.onDev (·.rowRefused x p.table f), none)
  | .ok r =>
    match s.inboxAt x.c p.idxAddr with
    | none => (s.onDev (·.replyReady x.c p.outAddr false), none)
    | some m =>
      if !m.complete then (s.onDev (·.replyReady x.c p.outAddr false), none) else
      let src := locOf x.c p.idxAddr
      let (s, b, bad) := s.locUse x src 32
      let n := fieldAt b 4 2
      let (s, body, bad2) := s.locUse x (src.plus 32) (8 * n)
      match batchField 1 p.table p.rowUnits m.seq b body with
      | some f => (s.onDev fun d => (d.raise .siphonBadBatch x.src [(2, m.peer), (1, p.table), (1, f)] true).replyReady x.c p.outAddr false, none)
      | none =>
        let start := x.resume.getD 0 0
        let version := fieldAt b 6 2
        let snap := fieldAt b 8 8
        let (serves, stale) := s.servesUnder version (snap - 2)
        let s := s.onDev (·.replyReady x.c p.outAddr true)
        let s := if stale && start = 0 then s.onDev (·.staleRequest m.peer version) else s
        let idxs := ((chunks 8 body).map leNat).take n
        let run (poison : Bool) : SiphonSt :=
          let s := s.locWrite x.c (locOf x.c p.outAddr) (batchHead 2 p.table (fieldAt b 2 1) n version snap p.rowUnits ++ leBytes 4 0) poison
          let s := s.locWrite x.c (locOf x.c (addrPlus p.outAddr (32 + n))) (List.replicate (roundUp n 64 - n) 0) poison
          ((idxs.zip (List.range n)).drop start).foldl
            (fun g (v, i) => serveOne p r n snap (if stale then none else some serves) poison x g i v) ⟨s, 0, 0, false, none⟩
        let clean := run (bad || bad2)
        let g := if clean.dirty then run true else clean
        match g.stop with
        | some i => gatherMore g.s [i]
        | none => (g.s, none)

/-- One position of a FILL (R224): the returned row and status of its index, where the batch holds it. -/
def fillOne (p : GatherP) (r : RowTable) (q : SplitBatch) (n : Nat) (body : List Byte) (poison : Bool) (x : Ctx) (g : SiphonSt) (i v : Nat) : SiphonSt :=
  if g.stop.isSome then g else
  match (List.range n).find? fun k => q.indices.getD k 0 = v with
  | none => g
  | some k =>
    let start := x.resume.getD 0 0
    let rb := r.rowBytes
    if start < i ∧ x.hdr.budget < gatherCost (i + 1 - start) 0 (g.written + rb + 1) rb then { g with stop := some i } else
    let st := (body.getD k 0).toNat
    let st := if st = rsNotOwner then rsLost else st
    let row := (body.drop (roundUp n 64 + k * rb)).take rb
    let ref := bit p.mode 0
    let (u, refBad) := if ref then
        let b := g.s.locRead x.c (locOf x.c (addrPlus p.refAddr (4 * i))) 4
        (leNat b.1, b.2)
      else (i, false)
    let rowAt := addrPlus p.outAddr (u * rb)
    let s := g.s.locCheck x.c (locOf x.c rowAt) rb x.hdr.index
    let s := (s.locWrite x.c (locOf x.c rowAt) row (poison || refBad)).locWrite x.c (locOf x.c (addrPlus p.statusAddr i)) [BitVec.ofNat 8 st] (poison || refBad)
    { g with s := s.onDev (·.dropIndex r.t x.hdr.tenant st), written := g.written + rb + 1, dirty := g.dirty || refBad }

/-- GATHER FILL: the reply's rows and statuses go to every position of their index; a batch that is absent or fails makes its
indices LOST (R224). -/
def fillRun (p : GatherP) (x : Ctx) (s : State) : State × Option (List Nat) :=
  match s.tableFor p.table x.hdr.tenant p.rowUnits with
  | .error f => (s.onDev (·.rowRefused x p.table f), none)
  | .ok r =>
    let boxAddr := 2 ^ 31 + p.boxAddr
    let box := locOf x.c boxAddr
    let (s, b, bad) := s.locUse x box 32
    let n := fieldAt b 4 2
    let (s, body, bad2) := s.locUse x (box.plus 32) (roundUp n 64 + n * r.rowBytes)
    let inb := s.inboxAt x.c boxAddr
    let good := inb.any fun m => m.complete && (batchField 2 p.table p.rowUnits m.seq b body).isNone
    let round := if good then fieldAt b 2 1 else if s.rsvFirst ≤ x.hdr.slot ∧ x.hdr.slot < s.rsvFirst + s.rsvCount then 1 else 0
    let peer := (inb.map (·.peer)).getD 0
    let batch := s.dev.rows.splits.find? fun q => q.chamber = x.c && q.table = p.table && q.idxAddr = p.idxAddr && q.outAddr = p.outAddr
      && q.statusAddr = p.statusAddr && q.owner = peer && q.round = round
    match batch with
    | none => (s, none)
    | some q =>
      let (list, listBad) := s.locRead x.c (locOf x.c p.idxAddr) (8 * p.count)
      let idxs := (chunks 8 list).map leNat
      let close (s : State) : State := s.onDev fun d => { d with rows := { d.rows with splits := d.rows.splits.filter (· != q) } }
      if !good || n != q.indices.length then
        let s := loseIndices p x idxs q.indices (close s)
        (s.onDev fun d => (((d.raise .siphonLost x.src [(2, peer), (1, p.table), (1, round), (4, q.indices.length)] true).bump
          Ctr.rowSiphonLostRows q.indices.length).bump (Ctr.tabLost p.table) q.indices.length).putFlag Reg.rowStatusSiphonLoss true, none)
      else
        let start := x.resume.getD 0 0
        let run (poison : Bool) : SiphonSt := ((idxs.zip (List.range idxs.length)).drop start).foldl
          (fun g (v, i) => fillOne p r q n body poison x g i v) ⟨s, 0, 0, false, none⟩
        let clean := run (bad || bad2 || listBad)
        let g := if clean.dirty then run true else clean
        match g.stop with
        | some i => gatherMore g.s [i]
        | none =>
          let lost := (List.range n).countP fun k => (body.getD k 0).toNat = rsNotOwner
          let late := (List.range n).countP fun k => (body.getD k 0).toNat = rsLate
          ((close g.s).onDev fun d => ((d.bump Ctr.rowSiphonLostRows lost).bump (Ctr.tabLost p.table) lost).bump Ctr.rowRowsLate late, none)

/-! ### SCATTER (R220) -/

/-- The lowest spill row of a table that is free. -/
def Dev.freeSpill (d : Dev) (r : RowTable) : Option Nat := (List.range r.spillRows).find? fun k => !d.rows.spills.contains (r.t, k)

/-- One row of a SCATTER, or the bucket that is full or finds the spill rows exhausted. A row staged for the same row and COMMIT by a step of lower
INDEX is replaced, and one staged by a step of higher INDEX stands. -/
def scatterOne (p : ScatterP) (r : RowTable) (commit : Nat) (bad : Bool) (x : Ctx) (s : State) (i row ord : Nat) : Except Nat State :=
  let bucket := rowBucket row r.rdrLog
  let same (e : StagedRow) : Bool := e.table = r.t && e.row = row && e.commit = commit
  let put (s : State) (k : Nat) : State :=
    let bs := (s.locRead x.c (locOf x.c (addrPlus p.srcAddr (i * r.rowBytes))) r.rowBytes).1
    (s.locCheck x.c (.dev (State.spillAddr r k)) r.rowBytes x.hdr.index).devWrite (State.spillAddr r k) bs bad
  match s.dev.rows.staged.find? same with
  | some e =>
    if x.hdr.index < e.idx then .ok (s.onDev (·.bump Ctr.rowScatterSuperseded)) else
    .ok ((put s e.spill).onDev fun d => { (d.bump Ctr.rowScatterSuperseded).bump Ctr.rowScatterRows with
      rows := { d.rows with staged := d.rows.staged.map fun f => if same f then { f with ord, idx := x.hdr.index } else f } })
  | none =>
    let s := s.locCheck x.c (.dev (State.redirectAddr r bucket 0)) 128 x.hdr.index
    let used := (s.bucketEntries r bucket).countP (·.used) + s.dev.rows.staged.countP fun e => e.table = r.t && rowBucket e.row r.rdrLog = bucket
    if 8 ≤ used then .error bucket else
    match s.dev.freeSpill r with
    | none => .error bucket
    | some k =>
      .ok ((put s k).onDev fun d => { d.bump Ctr.rowScatterRows with rows := { d.rows with
        spills := d.rows.spills ++ [(r.t, k)], staged := d.rows.staged ++ [⟨r.t, row, r.cur.ver % 2, k, commit, ord, x.hdr.index⟩] } })

/-- SCATTER. -/
def scatterRun (p : ScatterP) (x : Ctx) (s : State) : State × Option (List Nat) :=
  match s.tableFor p.table x.hdr.tenant p.rowUnits with
  | .error f => (s.onDev (·.rowRefused x p.table f), none)
  | .ok r =>
    let commit := (x.cohort + 2) % 2 ^ 32
    let (s, list, bad) := s.locUse x (locOf x.c p.idxAddr) (8 * p.count)
    let (s, ords, bad2) := s.locUse x (locOf x.c p.ordAddr) (2 * p.count)
    let ord (i : Nat) : Nat := fieldAt ords (2 * i) 2
    let idxs := (chunks 8 list).map leNat
    let src := (s.locRead x.c (locOf x.c p.srcAddr) (p.count * r.rowBytes)).2
    let spoil (d : Dev) : Dev :=
      let mine := d.idx.staged.filter (·.commit = x.cohort + 2)
      let hit := (mine.zip (List.range mine.length)).filter fun (_, k) => (List.range p.count).any fun i => ord i = k
      { d with idx := { d.idx with staged := d.idx.staged.map fun o => if hit.any (·.1 = o) then { o with refused := true, staged := none } else o } }
    if !r.mutable' then
      (s.onDev fun d => (spoil (d.raise .rowImmutable x.src [(1, x.c), (2, x.hdr.index), (1, p.table)] true)).abandon x, none)
    else
      let at' (i : Nat) : Nat := idxs.getD i 0
      let res := (List.range p.count).foldl (fun (acc : Except Nat State) i =>
        match acc with
        | .error e => .error e
        | .ok s =>
          if at' i = padIndex then .ok s else
          match localRow r (at' i) with
          | none => .ok (s.onDev (·.dropIndex r.t x.hdr.tenant rsInvalid))
          | some (row, shard) =>
            if shard.any fun k => !minesOf s x.cohort k then .ok (s.onDev (·.dropIndex r.t x.hdr.tenant rsNotOwner))
            else if (List.range p.count).any fun j => decide (i < j) && at' j = at' i then .ok (s.onDev (·.bump Ctr.rowScatterSuperseded))
            else scatterOne p r commit (bad || bad2 || src) x s i row (ord i)) (.ok s)
      match res with
      | .ok t => (t, none)
      | .error bucket =>
        (s.onDev fun d => (spoil ((d.raise .rowRedirectFull x.src [(1, p.table), (4, bucket), (4, r.spillRows)] true).putFlag
          Reg.rowStatusRedirectFull true)).abandon x, none)

/-! ### Publication, folding, flips, the dripline (R212, R213, R211, R226) -/

namespace State

/-- A redirect entry into the first free place of its bucket. -/
def putRedirect (s : State) (r : RowTable) (e : Redirect) : State :=
  let b := rowBucket e.row r.rdrLog
  match (List.range 8).find? fun k => !(s.redirectAt r b k).used with
  | some k => s.devWrite (redirectAddr r b k) (redirectBytes e)
  | none => s

/-- The staged rows of the operations that are published at this cairn become entries; those of the others are dropped and their spill
rows freed. `ok` lists, by ordinal in the cohort, the operations published. -/
def publishRows (s : State) (ok : List Bool) : State :=
  let now := s.dev.epoch % 2 ^ 32
  let due := s.dev.rows.staged.filter (·.commit = now)
  let s := due.foldl (fun s e =>
    if ok.getD e.ord false then s.putRedirect (s.rowTable e.table) ⟨e.row, e.ver, true, e.spill, e.commit⟩
    else s.onDev fun d => { d with rows := { d.rows with spills := d.rows.spills.filter (· != (e.table, e.spill)) } }) s
  s.onDev fun d => { d with rows := { d.rows with staged := d.rows.staged.filter (·.commit != now) } }

/-- A run of bytes into a version's home: flash pages are rewritten whole. -/
def putInHome (s : State) (v : RowVer) (off : Nat) (bs : List Byte) (poison : Bool) : Option State :=
  if v.tier = 2 then
    let lo := off / pageBytes * pageBytes
    let hi := roundUp (off + bs.length) pageBytes
    let lb := max 1 (s.dev.rd Reg.flsLbBytes)
    let s := s.mapLooks ((List.range ((hi - 1) / lb + 1 - lo / lb)).map fun i => v.home + lo / lb + i)
    let (old, p) := s.flashRun v.home lo (hi - lo)
    s.tierWrite 2 v.home lo (old.take (off - lo) ++ bs ++ old.drop (off - lo + bs.length)) (p || poison)
  else some (s.devWrite (v.home + off) bs poison)

/-- REDIRECT_FOLD of an entry that is foldable: its spill row is copied into the version it names, and into the row's hot copies, which stay copies of
the home (R215), and the presence bit is set; the entry leaves at the next cairn. Entries of one row fold in ascending COMMIT; entries of the old parity after a flip do not fold. -/
def foldRedirect (s : State) (t bucket k : Nat) : State :=
  let r := s.rowTable t
  let e := s.redirectAt r bucket k
  let sooner := (s.bucketEntries r bucket).zip (List.range 8) |>.any fun (f, j) =>
    f.used && f.row = e.row && f.ver = e.ver && wrapLt f.commit e.commit && !s.dev.rows.folded.contains (t, bucket, j)
  if !r.mutable' || !e.used || s.dev.rows.folded.contains (t, bucket, k) || e.ver != r.cur.ver % 2 || sooner
      || !wrapLe e.commit (wrapSub (s.dev.epoch % 2 ^ 32) 16) then s else
  let (bs, bad) := s.devRead (spillAddr r e.spill) r.rowBytes
  match s.putInHome r.cur (e.row * r.rowBytes) bs bad with
  | none => s
  | some s =>
    let s := (s.hotCopies r e.row e.ver).foldl (fun s a => s.devWrite a bs bad) s
    let s := if r.cur.present = 0 then s else s.setMapBit r.cur.present e.row true
    s.onDev fun d => { d.bump Ctr.rowRedirectsFolded with rows := { d.rows with folded := d.rows.folded ++ [(t, bucket, k)] } }

/-- An entry is removed; its spill row is free once no entry names it. -/
def dropRedirect (s : State) (t bucket k : Nat) : State :=
  let r := s.rowTable t
  let e := s.redirectAt r bucket k
  let s := s.devWrite (redirectAddr r bucket k) (List.replicate 16 0)
  if (s.bucketEntries r bucket).any fun f => f.used && f.spill = e.spill then s
  else s.onDev fun d => { d with rows := { d.rows with spills := d.rows.spills.filter (· != (t, e.spill)) } }

/-- At a cairn the folded entries leave the log. -/
def dropFoldedRows (s : State) : State :=
  let due := s.dev.rows.folded
  let s := due.foldl (fun s (t, b, k) => s.dropRedirect t b k) s
  s.onDev fun d => { d with rows := { d.rows with folded := [] } }

/-- Every place of a table's redirect log. -/
def redirectPlaces (r : RowTable) : List (Nat × Nat) :=
  if r.mutable' then (List.range (2 ^ r.rdrLog)).flatMap fun b => (List.range 8).map fun k => (b, k) else []

/-- TABLE_VERSION_FLIP: a version loaded from the state at epoch `base`, checked against `expect`, becomes current at this cairn (R211,
R213). Every entry with COMMIT above the base is duplicated with the new parity, one that is only staged too. Held back while PREV_VALID is set, or
while a bucket has no room for the duplicates. -/
def flipTable (s : State) (t home tier present base expect : Nat) : State :=
  let r := s.rowTable t
  let f := s.dev.epoch % 2 ^ 32
  let readers := if tier = 2 then home * s.dev.rd Reg.flsLbBytes else home
  let (bs, bad) := s.tierRead tier home 0 (r.rows * r.rowBytes)
  let dups := (redirectPlaces r).filterMap fun (b, k) =>
    let e := s.redirectAt r b k
    if e.used && e.ver = r.cur.ver % 2 && wrapLt (base % 2 ^ 32) e.commit then some (b, { e with ver := (r.cur.ver + 1) % 2 }) else none
  let staged := s.dev.rows.staged.filter fun e => e.table = t && e.ver = r.cur.ver % 2
  let here (b : Nat) : Nat := (s.bucketEntries r b).countP (·.used) + (s.dev.rows.staged.countP fun e => e.table = t && rowBucket e.row r.rdrLog = b)
  let more := dups.map (·.1) ++ staged.map fun e => rowBucket e.row r.rdrLog
  let room := more.all fun b => here b + more.count b ≤ 8
  if !r.valid || !s.dev.epc.inCairn then s
  else if bad || check32c readers bs != expect then s.onDev (·.raise .rowVersionCheck Dev.srcLantern [(1, t), (1, (r.cur.ver + 1) % 256)])
  else if !wrapLe (wrapSub f 16) (base % 2 ^ 32) then s.onDev (·.bump Ctr.rowFlipsStale)
  else if r.prevValid || !room then s.onDev (·.bump Ctr.rowFlipsDeferred)
  else
    let s := s.putRowFields t [(48, leBytes 8 r.cur.home ++ leBytes 1 r.cur.tier ++ leBytes 1 r.cur.ver ++ leBytes 1 1), (60, leBytes 4 ((f + 16) % 2 ^ 32)),
      (64, leBytes 8 r.cur.present), (24, leBytes 8 home ++ leBytes 1 tier ++ leBytes 1 ((r.cur.ver + 1) % 256)), (36, leBytes 4 f), (40, leBytes 8 present)]
    (dups.foldl (fun s d => s.putRedirect r d.2) s).onDev fun d => { d.bump Ctr.rowTableFlips with
      rows := { d.rows with staged := d.rows.staged ++ staged.map fun e => { e with ver := (e.ver + 1) % 2 } } }

/-- TABLE_VERSION_FREE at FREE_AT (R211, R213): the previous version's entries leave unfolded, and its home is freed and credited. -/
def freeTable (s : State) (t : Nat) : State :=
  let r := s.rowTable t
  if !(s.dev.epc.inCairn && r.valid && r.prevValid && r.freeAt = s.dev.epoch % 2 ^ 32) then s else
  let s := (redirectPlaces r).foldl (fun s (b, k) =>
    let e := s.redirectAt r b k
    if e.used && e.ver = r.prev.ver % 2 then s.dropRedirect t b k else s) s
  let s := s.putRowFields t [(58, [0])]
  match s.homes.find? fun h => h.state = hsHome && h.tier = r.prev.tier && h.home = r.prev.home with
  | none => s
  | some h =>
    let s := s.onDev fun d => d.credit (ownerOf h) h.tier (d.chargeOf h.tier h.length)
    let s := if h.tier = 2 then (List.range (s.extent 2 h.home h.length).2).foldl (fun s i => s.unmapBlock (h.home + i)) s else s
    s.setHome { h with state := hsEmpty }

/-- The rows a refresh admits: counter at least HOT_MIN, by counter descending, then row ascending. -/
def hotRanked (s : State) (r : RowTable) : List Nat :=
  let cs := (List.range r.rows).map fun row => (s.devNat (r.cntBase + 2 * row) 2, row)
  (sortBy (fun a b => decide (b.1 < a.1)) (cs.filter fun c => decide (s.dev.val (Reg.hotCfgHotMin r.t) ≤ c.1))).map (·.2)

/-- Assignment of ranked rows to slots: (row, tier bit, slot); a row whose bucket is full is skipped. -/
def hotAssign (r : RowTable) (strata stack : Nat) : List Nat → List (Nat × Nat × Nat) → List (Nat × Nat × Nat)
  | [], acc => acc
  | row :: rest, acc =>
    let n := acc.length
    if strata + stack ≤ n then acc
    else if 8 ≤ acc.countP (fun a => rowBucket a.1 r.hotLog = rowBucket row r.hotLog) then hotAssign r strata stack rest acc
    else hotAssign r strata stack rest (acc ++ [if n < strata then (row, 0, n) else (row, 1, n - strata)])

/-- ROW_STATUS.DRIP_BUSY follows the builds (R226, R228). -/
def showDrip (s : State) : State := s.onDev fun d => d.putFlag Reg.rowStatusDripBusy (d.rows.hotReady != [] || d.rows.hotBusy != [])

/-- The charges of a table's inactive index with its copies, in place of what it was charged before; each slot comes from the pool of the system
account (R227, R246). The Bool says that a quota refuses them, and nothing is charged then (R247). -/
def chargeHot (s : State) (r : RowTable) (which inStrata inStacks : Nat) : State × Bool :=
  let own := s.dev.chargeOf 0 (64 + 128 * 2 ^ r.hotLog)
  let up := s.dev.chargeOf 0 (inStrata * r.rowBytes)
  let down := s.dev.chargeOf 1 (inStacks * r.rowBytes)
  let old := (s.dev.rows.hotCharged.find? fun h => h.1 = r.t && h.2.1 = which).map (·.2.2)
  let release (d : Dev) : Dev := match old with
    | some (t, a, b) => (((d.credit t 0 a).credit t 1 b).setUsed 64 0 (d.usedOf 64 0 + (a - own))).setUsed 64 1 (d.usedOf 64 1 + b)
    | none => d
  let d := release s.dev
  let (d1, ok) := d.charge r.tenant 0 (own + up)
  let (d2, ok') := if ok then d1.charge r.tenant 1 down else (d1, false)
  if ok && ok' then
    let d := ((d2.credit 64 0 up).credit 64 1 down)
    ({ s with dev := { d with rows := { d.rows with hotCharged := d.rows.hotCharged.filter (fun h => !(h.1 = r.t && h.2.1 = which)) ++
        [(r.t, which, r.tenant, own + up, down)] } } }, true)
  else ({ s with dev := { d2 with tier := { d2.tier with used := s.dev.tier.used } } }, false)

/-- The copies of a refresh, each from the current version, and the index over them. -/
def buildHot (s : State) (r : RowTable) (base : Nat) (as : List (Nat × Nat × Nat)) : State :=
  let bases := [s.devNat base 8, s.devNat (base + 8) 8]
  let s := as.foldl (fun s (row, tier, slot) =>
    let (bs, p) := s.tierRead r.cur.tier r.cur.home (row * r.rowBytes) r.rowBytes
    s.devWrite (bases.getD tier 0 + slot * r.rowBytes) bs p) s
  let s := s.devWrite (base + 16) (leBytes 8 r.cur.ver)
  let s := s.devWrite (base + 64) (List.replicate (128 * 2 ^ r.hotLog) 0)
  (as.zip (List.range as.length)).foldl (fun s ((row, tier, slot), i) =>
    let k := (as.take i).countP fun a => rowBucket a.1 r.hotLog = rowBucket row r.hotLog
    s.devWrite (base + 64 + 128 * rowBucket row r.hotLog + 16 * k)
      (leBytes 8 (row % 2 ^ 40 + r.cur.ver % 2 * 2 ^ 40 + tier * 2 ^ 41 + 2 ^ 42) ++ leBytes 4 slot ++ leBytes 4 0)) s

/-- DRIPLINE_REFRESH of a table at an epoch that is a multiple of DRIP_PERIOD (R226): one that has not flipped by then is abandoned. -/
def refreshHot (s : State) (t : Nat) (build : HotBuild) : State :=
  let r := s.rowTable t
  if !(s.dev.on Reg.rowCtrlDripEn && r.valid && r.drip && s.dev.epoch % max 1 (s.dev.val Reg.dripPeriod) = 0) then s else
  let s := s.onDev fun d => { d with rows := { d.rows with hotReady := d.rows.hotReady.filter (·.1 != t), hotBusy := d.rows.hotBusy.filter (· != t) } }
  let which := 1 - r.hotActive
  let as := hotAssign r (s.dev.val (Reg.hotStrataRows t)) (s.dev.val (Reg.hotStackRows t)) (s.hotRanked r) []
  let (s, ok) := s.chargeHot r which (as.countP fun a => a.2.1 = 0) (as.countP fun a => a.2.1 = 1)
  if !ok then s.showDrip
  else if build = .late then (s.onDev fun d => { d with rows := { d.rows with hotBusy := d.rows.hotBusy ++ [t] } }).showDrip
  else match as.find? fun a => build = .failed a.1 with
  | some (row, _, slot) => s.showDrip.onDev (·.raise .rowHotCheck Dev.srcLantern [(1, t), (8, row), (4, slot)])
  | none =>
    let s := s.buildHot r (hotBase r which) as
    let s := (List.range r.rows).foldl (fun s row =>
      s.devWrite (r.cntBase + 2 * row) (leBytes 2 (s.devNat (r.cntBase + 2 * row) 2 / 2 ^ s.dev.val (Reg.hotCfgDecayShift t)))) s
    (s.onDev fun d => { d with rows := { d.rows with hotReady := d.rows.hotReady ++ [(t, d.epoch)] } }).showDrip

/-- HOT_INDEX_FLIP at the first cairn after the build (R226). -/
def flipHot (s : State) (t : Nat) : State :=
  if !(s.dev.epc.inCairn && s.dev.rows.hotReady.any fun h => h.1 = t && decide (h.2 < s.dev.epoch)) then s else
  let r := s.rowTable t
  ((s.putRowFields t [(82, leBytes 1 (1 - r.hotActive))]).onDev fun d =>
    { d with rows := { d.rows with hotReady := d.rows.hotReady.filter (·.1 != t) } }.bump Ctr.rowDripRefreshes).showDrip

end State

/-! ### The commands -/

/-- GATHER FETCH. -/
def execGatherFetch (c : Nat) (h : Hdr) (p : GatherP) (us : List Upset) (s : State) : Host.Outcome State Fault Refusal :=
  stepCmd c h (.gather .fetch p) us (gatherRun .fetch p) s

/-- GATHER SPLIT. -/
def execGatherSplit (c : Nat) (h : Hdr) (p : GatherP) (us : List Upset) (s : State) : Host.Outcome State Fault Refusal :=
  stepCmd c h (.gather .split p) us (gatherRun .split p) s

/-- GATHER SERVE. -/
def execGatherServe (c : Nat) (h : Hdr) (p : GatherP) (us : List Upset) (s : State) : Host.Outcome State Fault Refusal :=
  stepCmd c h (.gather .serve p) us (serveRun p) s

/-- GATHER FILL. -/
def execGatherFill (c : Nat) (h : Hdr) (p : GatherP) (us : List Upset) (s : State) : Host.Outcome State Fault Refusal :=
  stepCmd c h (.gather .fill p) us (fillRun p) s

/-- SCATTER. -/
def execScatter (c : Nat) (h : Hdr) (p : ScatterP) (us : List Upset) (s : State) : Host.Outcome State Fault Refusal :=
  stepCmd c h (.scatter p) us (scatterRun p) s

/-- TABLE_VERSION_FLIP. -/
def execTableVersionFlip (t home tier present base expect : Nat) (s : State) : Host.Outcome State Fault Refusal :=
  done (s.flipTable t home tier present base expect)

/-- TABLE_VERSION_FREE. -/
def execTableVersionFree (t : Nat) (s : State) : Host.Outcome State Fault Refusal := done (s.freeTable t)

/-- REDIRECT_FOLD of entry `k` of a bucket. -/
def execRedirectFold (t bucket k : Nat) (s : State) : Host.Outcome State Fault Refusal := done (s.foldRedirect t bucket k)

/-- DRIPLINE_REFRESH. -/
def execDriplineRefresh (t : Nat) (build : HotBuild) (s : State) : Host.Outcome State Fault Refusal := done (s.refreshHot t build)

/-- HOT_INDEX_FLIP. -/
def execHotIndexFlip (t : Nat) (s : State) : Host.Outcome State Fault Refusal := done (s.flipHot t)

end Sys2Proof.Machine
end

