-- ==== Sys2Proof/Machine/Fabric.lean ====
section
/-! DEFINITION. The fabric: frames and messages, plan-named transfers, reliable delivery, time, and the ports
(13_fabric_links_and_transport.md R330 to R358). -/

namespace Sys2Proof.Machine

open Sys2Proof.Crypto

/-! ### Frames (R332 to R336) -/

/-- The frame types of R335. -/
def tyPlan : Nat := 1
def tyQuery : Nat := 2
def tyReply : Nat := 3
def tySiphon : Nat := 4
def tyBulk : Nat := 5
def tyMgmt : Nat := 6
def tyTime : Nat := 7

/-- The MGMT subtypes of R349. -/
def mgAck : Nat := 1
def mgEchoReq : Nat := 2
def mgEchoRsp : Nat := 3
def mgSpdm : Nat := 4
def mgCoord : Nat := 5

def nodeBytes (n : Nat) : List Byte := beBytes 2 n

/-- The Ethernet header (R332): destination and source MAC, the tag when TAG_EN is 1, and the EtherType. -/
def Dev.ethHeader (d : Dev) (port : Nat) (mac : List Byte) : List Byte :=
  let tag := if d.on Reg.fabCtrlTagEn then beBytes 2 0x8100 ++ beBytes 2 (d.val Reg.fabVlanPcp * 8192 + d.val Reg.fabVlanVid) else []
  mac ++ [0x02, 0x5A, BitVec.ofNat 8 port, 0x00] ++ nodeBytes (d.rd Reg.fabNodeNodeId) ++ tag ++ beBytes 2 0x88B5

def Dev.peerMac (d : Dev) (i : Nat) : List Byte := leBytes 2 (d.val (Reg.peerMacHiMac i)) ++ leBytes 4 (d.val (Reg.peerMacLo i))

/-- The 32-byte header of a frame (R334). -/
def Dev.zftHeader (d : Dev) (type flags tenant dst len slot seq : Nat) : List Byte :=
  [1, BitVec.ofNat 8 type] ++ leBytes 2 flags ++ leBytes 1 tenant ++ [0] ++ leBytes 2 (d.rd Reg.fabNodeNodeId) ++ leBytes 2 dst
    ++ leBytes 2 (d.rd Reg.poolMapVersionCurrent) ++ leBytes 2 len ++ leBytes 2 slot ++ leBytes 8 d.epoch ++ leBytes 8 seq

def msgPrefix (tag src dst off total msg : Nat) : List Byte :=
  leBytes 2 tag ++ leBytes 1 src ++ leBytes 1 dst ++ leBytes 4 off ++ leBytes 4 total ++ leBytes 4 msg

/-- A received frame, read by R332 to R336. -/
structure Zft where
  type : Nat
  flags : Nat
  tenant : Nat
  src : Nat
  dst : Nat
  mapVersion : Nat
  slot : Nat
  epoch : Nat
  seq : Nat
  tag : Nat
  srcChamber : Nat
  dstChamber : Nat
  offset : Nat
  total : Nat
  msg : Nat
  data : List Byte
  /-- Header, prefix and data, over which the trailer is computed. -/
  body : List Byte
  trailer : Nat
  deriving DecidableEq, Repr

def Zft.reliable (z : Zft) : Bool := bit z.flags 0
def Zft.poison (z : Zft) : Bool := bit z.flags 2

/-- Where the ZFT header of an Ethernet frame starts, when its EtherType is ZFT's. -/
def zftStart (fr : List Byte) : Option Nat :=
  let at' (o : Nat) : Nat := beNat ((fr.drop o).take 2)
  if at' 12 = 0x88B5 then some 14 else if at' 12 = 0x8100 && at' 16 = 0x88B5 then some 18 else none

/-- The frame that a ZFT header and what follows it spell; `none` where a field is not as R334 and R336 allow. -/
def parseZft (b : List Byte) : Option Zft :=
  let type := fieldAt b 1 1
  let pre := if type = tyTime then 0 else 16
  let len := fieldAt b 12 2
  let f (o n : Nat) : Nat := if pre = 0 then 0 else fieldAt b (32 + o) n
  if fieldAt b 0 1 = 1 && between 1 type 7 && fieldAt b 2 2 < 32 && fieldAt b 4 1 < 64 && fieldAt b 5 1 = 0 && len ≤ 8192
      && (pre = 0 || (between 1 (f 8 4) 67108864 && decide (f 4 4 + len ≤ f 8 4))) then
    some { type, flags := fieldAt b 2 2, tenant := fieldAt b 4 1, src := fieldAt b 6 2, dst := fieldAt b 8 2, mapVersion := fieldAt b 10 2,
           slot := fieldAt b 14 2, epoch := fieldAt b 16 8, seq := fieldAt b 24 8, tag := f 0 2, srcChamber := f 2 1, dstChamber := f 3 1,
           offset := f 4 4, total := f 8 4, msg := f 12 4, data := (b.drop (32 + pre)).take len, body := b.take (32 + pre + len),
           trailer := fieldAt b (32 + pre + len) 4 }
  else none

/-- MALFORMED messages of type MGMT: a reserved subtype (R349). -/
def Zft.subtype (z : Zft) : Nat := fieldAt z.data 0 1

namespace Dev

/-! ### Peers and sequences (R337, R338) -/

/-- The entry that names a node: of several, the lowest (R338). -/
def peerOf (d : Dev) (node : Nat) : Option Nat :=
  (List.range 4096).find? fun i => d.on (Reg.peerCfgValid i) && d.val (Reg.peerCfgNode i) = node

def peerSeq (d : Dev) (i : Nat) : PeerSeq := (d.fab.peers.find? (·.peer = i)).getD { peer := i }

def setPeer (d : Dev) (q : PeerSeq) : Dev :=
  let rest := d.fab.peers.filter (·.peer != q.peer)
  { d with fab := { d.fab with peers := insertBy (fun a b : PeerSeq => decide (a.peer < b.peer)) q rest } }

/-- Writing an entry resets the sequence state of its peer at the cairn at which it takes effect (R338). -/
def resetPeers (d : Dev) (is : List Nat) : Dev :=
  { d with fab := { d.fab with peers := d.fab.peers.filter fun q => !is.contains q.peer } }

/-- FAB_PEER_DUP at a cairn, once for each higher entry that names a node already named. -/
def peerDups (d : Dev) : Dev :=
  let named := (List.range 4096).filterMap fun i => if d.on (Reg.peerCfgValid i) then some (d.val (Reg.peerCfgNode i), i) else none
  (named.foldl (fun (acc : List (Nat × Nat) × Dev) (n, i) =>
    match acc.1.find? (·.1 = n) with
    | some (_, j) => (acc.1, acc.2.raise .fabPeerDup srcFabric [(2, n), (2, j), (2, i)])
    | none => (acc.1 ++ [(n, i)], acc.2)) ([], d)).2

/-- Is this the first report of a kind about `who` in the epoch? -/
def sayFab (d : Dev) (code who : Nat) : Dev × Bool :=
  if d.fab.said.contains (code, who) then (d, false) else ({ d with fab := { d.fab with said := d.fab.said ++ [(code, who)] } }, true)

/-! ### Sending -/

/-- The queue of a frame (R359). -/
def frameQueue (d : Dev) (type subtype tenant : Nat) : Nat :=
  if type = tyPlan || type = tySiphon then 0
  else if type = tyTime || (type = tyMgmt && subtype ≤ mgEchoRsp) then 1
  else if type = tyMgmt then 2
  else if type = tyBulk then 4 + d.val (Reg.egsTenantMapBulk tenant) else 4 + d.val (Reg.egsTenantMapQr tenant)

/-- A frame formed for peer `i`: queued at the peer's port with its trailer, which tap 1 computes (R320). A frame whose time is
inserted as it leaves gets its trailer then. -/
def formFrame (d : Dev) (i port queue tenant stamp : Nat) (mac zft : List Byte) (poison : Bool) : Dev × QFrame :=
  let seq := zftSeq zft
  let t := if stamp = 0 then some (d.frameTrailer seq zft) else none
  let f : QFrame := { port, queue, peer := i, tenant, eth := d.ethHeader port mac, zft, trailer := t, stamp, since := d.now }
  (if stamp = 0 then d.tapPass 1 seq zft poison else d, f)

/-- One fragment of a message to peer `i`: `h` gives TYPE, tenant, slot, TAG, chambers; the sequence is of its class. -/
def sendFragment (d : Dev) (i type subtype tenant slot tag src dst total msg stamp : Nat) (rel : Bool) (off : Nat) (data : List Byte) (poison : Bool) : Dev :=
  let q := d.peerSeq i
  let seq := if rel then q.relOut else q.planOut
  let flags := boolNat rel + 2 * boolNat (rel && q.syn) + 4 * boolNat poison
  let zft := d.zftHeader type flags tenant (d.val (Reg.peerCfgNode i)) data.length slot seq ++ msgPrefix tag src dst off total msg ++ data
  let (d, f) := d.formFrame i (d.val (Reg.peerCfgPort i)) (d.frameQueue type subtype tenant) tenant stamp (d.peerMac i) zft poison
  let q := if rel then { q with relOut := seq + 1, syn := false, unacked := q.unacked ++ [⟨seq, type, msg, f, d.now, 0⟩] } else { q with planOut := seq + 1 }
  (d.setPeer q).enqueue f

/-- A message to peer `i` in fragments of 8,192 bytes (R336); `poisonAt` says which fragments carry poison. -/
def sendMessage (d : Dev) (i type subtype tenant slot tag src dst stamp : Nat) (rel : Bool) (data : List Byte) (poisonAt : Nat → Bool) : Dev :=
  if !d.on (Reg.peerCfgValid i) then d else
  let q := d.peerSeq i
  let d := d.setPeer { q with msgOut := q.msgOut + 1 }
  (chunks 8192 data).zipIdx.foldl (fun d (part, k) =>
    d.sendFragment i type subtype tenant slot tag src dst data.length (q.msgOut % 2 ^ 32) stamp rel (8192 * k) part (poisonAt k)) d

/-- A reliable message to a node, if an entry names it. -/
def sendReliable (d : Dev) (node type subtype tenant : Nat) (data : List Byte) (poison : Bool) : Dev :=
  match d.peerOf node with
  | some i => d.sendMessage i type subtype tenant 0 0 0 0 0 true data fun _ => poison
  | none => d

/-- An unreliable MGMT message to peer `i` (R349). -/
def sendMgmt (d : Dev) (i subtype stamp : Nat) (rest : List Byte) : Dev :=
  d.sendMessage i tyMgmt subtype 0 0 0 0 0 stamp false ([BitVec.ofNat 8 subtype] ++ List.replicate 7 0 ++ rest) fun _ => false

/-- A COORD message to a node: its body after the subtype byte (R349). -/
def sendCoord (d : Dev) (node : Nat) (body : List Byte) : Dev := d.sendReliable node tyMgmt mgCoord 0 ([BitVec.ofNat 8 mgCoord] ++ body) false

/-! ### Reliable delivery (R347) -/

def sendAck (d : Dev) (i : Nat) : Dev := d.sendMgmt i mgAck 0 (leBytes 8 (d.peerSeq i).relIn)

/-- An ACK releases the frames below its SEQUENCE and makes the peer reachable. -/
def takeAck (d : Dev) (i ack : Nat) : Dev :=
  let q := d.peerSeq i
  (d.setPeer { q with unacked := q.unacked.filter fun u => decide (ack ≤ u.seq) }).putFlag (Reg.peerStatusReachable i) true

/-- ACK_TIMER: an ACK to every peer from which reliable frames have come. -/
def ackAll (d : Dev) : Dev := (d.fab.peers.filter fun q => q.relIn != 0 || q.held != []).foldl (fun d q => d.sendAck q.peer) d

/-- Resends an unacknowledged frame with RETX set, in the queue of its first transmission (R347, R359). -/
def resend (d : Dev) (i : Nat) (u : Unacked) : Dev :=
  let f := u.frame
  let zft := f.zft.take 2 ++ leBytes 2 (setBits (fieldAt f.zft 2 2) 4 1 1) ++ f.zft.drop 4
  let t := d.frameTrailer u.seq zft
  let d := (d.tapPass 1 u.seq zft (bit (fieldAt zft 2 2) 2)).bump Ctr.fabRetransmissions
  let q := d.peerSeq i
  let d := d.setPeer { q with unacked := q.unacked.map fun v => if v.seq = u.seq then { v with sent := d.now, resends := v.resends + 1 } else v }
  d.enqueue { f with zft, trailer := some t }

/-- The message of a frame whose last resend was not acknowledged is dropped (R347). -/
def dropMessage (d : Dev) (i : Nat) (u : Unacked) : Dev :=
  let q := d.peerSeq i
  let d := d.setPeer { q with unacked := q.unacked.filter fun v => !(v.type = u.type && v.msg = u.msg) }
  (d.putFlag (Reg.peerStatusReachable i) false).raise .fabPeerUnreachable srcFabric [(2, d.val (Reg.peerCfgNode i)), (1, u.type), (4, u.msg)]

/-- RETRANSMIT_TIMER: every frame whose RETX_US has passed is resent, or its message is dropped after the last resend. -/
def retransmit (d : Dev) : Dev :=
  d.fab.peers.foldl (fun d q => q.unacked.foldl (fun d u =>
    if !(d.peerSeq q.peer).unacked.any (·.seq = u.seq) || d.now < u.sent + 1000 * d.val Reg.fabReliableRetxUs then d
    else if u.resends < d.val Reg.fabReliableRetxMax then d.resend q.peer u else d.dropMessage q.peer u) d) d

/-! ### Receiving -/

/-- The conditions of R333 on a frame of `size` bytes with its FCS that came in on a port, in their order; what passes gives its
peer and its fields. A frame longer than the 9,216 bytes of R332 is counted as malformed (log entry 147). A frame from the time source may be multicast (R337). -/
def acceptFrame (d : Dev) (p : Nat) (fr : List Byte) (fcs : Bool) : Dev × Option (Nat × Zft) :=
  let size := fr.length + 4
  let d := (d.bump (Ctr.portFramesIn p)).bump (Ctr.portBytesIn p) size
  if !fcs then (d.bump (Ctr.portFcsErrors p), none)
  else if 9216 < size then (d.bump Ctr.fabMalformed, none) else
  match zftStart fr with
  | none => (d.bump (Ctr.portNonZft p), none)
  | some o =>
    match parseZft (fr.drop o) with
    | none => (d.bump Ctr.fabMalformed, none)
    | some z =>
      let (d, same) := d.tapMatch 0 z.seq 2 z.body z.trailer
      let d := d.tapPass 0 z.seq z.body z.poison
      if !same then (d.bump (Ctr.portCheckFails p), none) else
      let peer := if z.type = tyTime then (d.peerOf z.src).filter (· = d.val Reg.fabTimeSourcePeer) else d.peerOf z.src
      match peer with
      | none => (d.bump Ctr.fabUnknownPeer, none)
      | some i =>
        if z.dst != d.rd Reg.fabNodeNodeId && !bit z.flags 3 then (d.bump Ctr.fabUnknownPeer, none) else
        let q := d.peerSeq i
        let q := if z.reliable && bit z.flags 1 then { q with relIn := 0, held := [] } else q
        let twice := if z.type = tyTime then d.fab.timeIn.contains z.seq
          else if z.reliable then decide (z.seq < q.relIn) || q.held.any (·.1 = z.seq) else q.planIn.contains z.seq
        if twice then (d.bump Ctr.fabDuplicateFrames, none) else
        let d := if z.type = tyTime then { d with fab := { d.fab with timeIn := d.fab.timeIn ++ [z.seq] } }
          else d.setPeer (if z.reliable then q else { q with planIn := q.planIn ++ [z.seq] })
        (d.meterTenant z.tenant 10 size, some (i, z))


end Dev

/-- Bytes covered by intervals (offset, length). -/
def coveredBytes (parts : List (Nat × Nat)) : Nat :=
  ((sortBy (fun a b : Nat × Nat => decide (a.1 < b.1)) parts).foldl (fun (acc : Nat × Nat) (o, n) =>
    (max acc.1 (o + n), acc.2 + ((o + n) - max acc.1 o))) (0, 0)).2

/-! ### Plan-named transfers (R339 to R344) -/

/-- The peer index that stands for the chambers of this module, and the landing buffer of the gallery network. -/
def galleryPeer : Nat := 0xFFFF
def galleryPort : Nat := 8

namespace State

/-- The RECV of the active plan that a fragment matches (R341). -/
def recvFor (s : State) (c peer src tag : Nat) : Option (Nat × RecvP) :=
  (s.planSteps s.dev.activeBank c).findSome? fun st => match st.params with
    | .recv p => if p.peer = peer && p.srcChamber = src && p.tag = tag then some (st.hdr.index, p) else none
    | _ => none

/-- The RECV step of a chamber that has issued in this epoch. -/
def recvSt (s : State) (c idx : Nat) : Option RecvSt := s.dev.fab.recvs.find? fun r => r.chamber = c && r.idx = idx

def putRecv (s : State) (r : RecvSt) : State :=
  s.onDev fun d => { d with fab := { d.fab with recvs := d.fab.recvs.map fun q => if q.chamber = r.chamber ∧ q.idx = r.idx then r else q } }

/-- A fragment is written at DST_ADDR + OFFSET; one of a message too long for CAP is not, and its RECV is LOST (R341). -/
def writeFragment (s : State) (r : RecvSt) (f : Landed) : State :=
  if r.p.cap < f.total then s.putRecv { r with lost := true } else
    let s := s.locWrite r.chamber ((locOf r.chamber r.p.dstAddr).plus f.offset) f.data f.poison
    s.putRecv { r with total := some f.total, got := r.got ++ [(f.offset, f.data.length)], poison := r.poison || f.poison,
                       firstSeq := if f.offset = 0 then f.seq else r.firstSeq }

/-- Bytes that a landing buffer holds. -/
def landingBytes (s : State) (port : Nat) : Nat := ((s.dev.fab.landing.filter (·.port = port)).map (·.data.length)).sum

/-- A fragment waits for its RECV in the landing buffer of its port, if it fits (R341). -/
def land (s : State) (f : Landed) : State :=
  if 2097152 < s.landingBytes f.port + f.data.length then
    s.onDev fun d =>
      let (d, first) := (d.bump Ctr.fabLandingDrops).sayFab 0x0B09 0
      if first then d.raise .fabLandingFull Dev.srcFabric [(1, f.port), (8, d.epoch), (4, 1)] else d
  else s.onDev fun d => { d with fab := { d.fab with landing := d.fab.landing ++ [f] } }

/-- An arriving fragment of a plan-named transfer (R341). SOURCE of FAB_NO_RECV, FAB_LANDING_FULL and FAB_TRANSFER_LOST is the fabric controller, for a
transfer of the gallery network too (log entry 135). -/
def arrive (s : State) (f : Landed) : State :=
  let n := s.dev.epoch
  if f.epoch < n then s.onDev (·.bump Ctr.fabLateFrames)
  else if n + 1 < f.epoch then s.onDev (·.bump Ctr.fabEpochMismatch)
  else match s.recvFor f.chamber f.peer f.srcChamber f.tag with
  | none => s.onDev fun d =>
    let (d, first) := (d.bump Ctr.fabNoRecvFrames).sayFab 0x0B04 f.peer
    let node := if f.peer = galleryPeer then galleryPeer else d.val (Reg.peerCfgNode f.peer)
    if first then d.raise .fabNoRecv Dev.srcFabric [(2, node), (1, f.chamber), (2, f.tag)] else d
  | some (idx, p) =>
    let f := if p.cap < f.total then { f with data := [] } else f
    if f.epoch = n then
      match s.recvSt f.chamber idx with
      | some r => if r.completed then s.onDev (·.bump Ctr.fabLateFrames) else s.writeFragment r f
      | none => s.land f
    else s.land f

/-- The data of a message to send: a siphon batch gets its CHECK, folded with the SEQUENCE of its first frame (R222). -/
def siphonCheck (data : List Byte) (seq : Nat) : List Byte :=
  let n := fieldAt data 4 2
  let len := if fieldAt data 0 1 = 1 then 8 * n else roundUp n 64 + n * 64 * fieldAt data 16 2
  data.take 28 ++ leBytes 4 (check32c seq (data.take 28 ++ (data.drop 32).take len)) ++ data.drop 32

end State

/-- SEND (R339, R344). -/
def sendRun (p : SendP) (x : Ctx) (s : State) : State × Option (List Nat) :=
  if p.kind = tySiphon && s.dev.rows.noReply.contains (x.c, p.srcAddr) then (s, none) else
  if p.kind = tyPlan && p.peer != galleryPeer && s.dev.seq.missing.contains x.cohort then (s, none) else
  let src := locOf x.c p.srcAddr
  let poisonAt (k : Nat) : Bool := (s.locRead x.c (src.plus (8192 * k)) (min 8192 (p.length - 8192 * k))).2
  let data := (s.locRead x.c src p.length).1
  let s := s.onDev fun d => (d.bump Ctr.fabTransfersSent)
  if p.peer = galleryPeer then
    let data := if p.kind = tySiphon then State.siphonCheck data 0 else data
    ((chunks 8192 data).zipIdx.foldl (fun s (part, k) => s.arrive
      { port := galleryPort, chamber := p.dstChamber, peer := galleryPeer, srcChamber := x.c, tag := p.tag, epoch := s.dev.epoch,
        offset := 8192 * k, total := p.length, poison := poisonAt k, seq := 0, data := part }) s, none)
  else
    let data := if p.kind = tySiphon then State.siphonCheck data (s.dev.peerSeq p.peer).planOut else data
    (s.onDev (·.sendMessage p.peer p.kind 0 x.hdr.tenant x.hdr.slot p.tag x.c p.dstChamber 0 false data poisonAt), none)

/-- RECV: it issues, and what the landing buffers hold for it is written (R341). -/
def recvRun (p : RecvP) (x : Ctx) (s : State) : State × Option (List Nat) :=
  let r : RecvSt := { chamber := x.c, idx := x.hdr.index, origin := x.origin, deadline := x.hdr.deadline, p, total := none, got := [],
                      poison := false, lost := false, firstSeq := 0, completed := false }
  let mine (f : Landed) : Bool := f.chamber = x.c && f.peer = p.peer && f.srcChamber = p.srcChamber && f.tag = p.tag && f.epoch = s.dev.epoch
  let held := s.dev.fab.landing.filter mine
  let s := s.onDev fun d => { d with fab := { d.fab with
    recvs := (d.fab.recvs.filter fun q => !(q.chamber = x.c && q.idx = x.hdr.index)) ++ [r], landing := d.fab.landing.filter (!mine ·) } }
  (held.foldl (fun s f => match s.recvSt x.c x.hdr.index with | some r => s.writeFragment r f | none => s) s, none)

/-! ### Cohorts of other modules (R62, R345) -/

/-- The record of an admitted query or operation in an ingress area and in the PLAN data that distributes it: KIND as in R345, tenant,
the client's node, the length of the body, the ingress epoch, CLIENT_SEQ, and from byte 32 on the body; records follow each other at
multiples of 32 bytes (log entry 90). -/
def ingressRecord (kind epoch node : Nat) (r : Request) : List Byte :=
  let b := leBytes 1 kind ++ leBytes 1 r.tenant ++ leBytes 2 node ++ leBytes 4 r.body.length ++ leBytes 8 epoch ++ leBytes 8 r.seq
    ++ List.replicate 8 0 ++ r.body
  padTo (roundUp b.length 32) b

/-- The records in some bytes, at most `fuel` of them: KIND, ingress epoch and request. -/
def ingressRecords : Nat → List Byte → List (Nat × Nat × Request)
  | 0, _ => []
  | fuel + 1, b =>
    let kind := fieldAt b 0 1
    let n := fieldAt b 4 4
    if !between 1 kind 2 || decide (b.length < 32 + n) then [] else
    let origin := if kind = 1 then Origin.client (fieldAt b 2 2) else .other
    (kind, fieldAt b 8 8, ⟨fieldAt b 1 1, fieldAt b 16 8, (b.drop 32).take n, origin⟩) :: ingressRecords fuel (b.drop (roundUp (32 + n) 32))

/-- A record of another module's cohort, by its stamped epoch: a query joins that cohort behind the queries it has, an operation is
staged for its commit epoch (R62, R181). -/
def Dev.takeRecord (d : Dev) (x : Nat × Nat × Request) : Dev :=
  let (kind, e, r) := x
  if kind = 2 then { d with idx := { d.idx with staged := d.idx.staged ++ [⟨r, e + 2, none, false⟩] } }
  else if d.ingress.cohorts.any (·.epoch = e) then
    { d with ingress := { d.ingress with cohorts := d.ingress.cohorts.map fun k => if k.epoch = e then { k with queries := k.queries ++ [r] } else k } }
  else { d with ingress := { d.ingress with cohorts := d.ingress.cohorts ++ [⟨e, [r], []⟩] } }

/-- The records that a RECV has brought to `dst`. -/
def State.takeCohort (s : State) (c dst n : Nat) : State :=
  let (b, bad) := s.locRead c (locOf c dst) n
  if bad then s else s.onDev fun d => (ingressRecords (n / 32) b).foldl Dev.takeRecord d

/-- RECV_COMPLETE (R342): the message is complete, or the RECV's DEADLINE slot ends, or its message does not fit; the result and the MERGE
entry are written. `cohort` says that the message carries records of another module's cohort, which enter here when it is whole and carries no
poison (R62, R345). -/
def State.recvEnd (s : State) (c idx : Nat) (cohort : Bool) : State :=
  match s.recvSt c idx with
  | none => s
  | some r =>
    let whole := r.total.any fun n => coveredBytes r.got = n
    let due := s.dev.epc.slot.any fun m => decide (r.deadline ≤ m)
    if r.completed || !(whole || due || r.lost) then s else
    let whole := whole && !r.lost
    let status := if !whole then 1 else if r.poison then 2 else 0
    let s := s.locWrite c (.store r.p.resultAddr) (leBytes 4 (coveredBytes r.got) ++ leBytes 1 status ++ List.replicate 11 0)
    let s := if r.p.entryAddr = 0 then s else s.locWrite c (.store (r.p.entryAddr + 6)) [if whole then 1 else 0]
    let node := if r.p.peer = galleryPeer then galleryPeer else s.dev.val (Reg.peerCfgNode r.p.peer)
    let s := if cohort && whole && !r.poison then s.takeCohort c r.p.dstAddr (coveredBytes r.got) else s
    (s.putRecv { r with completed := true }).onDev fun d =>
      let m : SiphonIn := { chamber := c, addr := r.p.dstAddr, peer := node, seq := r.firstSeq, complete := whole }
      let d := if r.p.kind = tySiphon then { d with rows := { d.rows with
          inbox := (d.rows.inbox.filter fun q => !(q.chamber = c && q.addr = m.addr)) ++ [m] } } else d
      if whole then d.bump Ctr.fabTransfersReceived else
        let d := d.bump Ctr.fabTransfersLost
        let d := if r.p.peer = galleryPeer then d else d.putFlag (Reg.peerStatusLoss r.p.peer) true
        let (d, first) := d.sayFab 0x0B03 r.p.peer
        if first then d.raise .fabTransferLost Dev.srcFabric [(2, node), (1, c), (2, r.p.tag), (8, d.epoch)] true else d

/-- At a cairn the RECVs and landing buffers of the epoch that ended are done with, and reports start anew. -/
def Dev.fabricCairn (d : Dev) : Dev :=
  { d with fab := { d.fab with recvs := [], landing := d.fab.landing.filter fun f => decide (d.epoch ≤ f.epoch), said := [] } }

/-! ### Messages (R336, R347) -/

namespace Dev

/-- A fragment of a reliable message joins its message; a whole one is put in the inbox. -/
def gather (d : Dev) (i : Nat) (z : Zft) : Dev :=
  let same (q : Partial) : Bool := q.peer = i && q.type = z.type && q.msg = z.msg
  let q := (d.fab.partials.find? same).getD ⟨i, z.type, z.msg, z.total, z.tenant, z.mapVersion, z.epoch, false, []⟩
  let q := { q with poison := q.poison || z.poison, parts := q.parts ++ [(z.offset, z.data)] }
  let rest := d.fab.partials.filter (!same ·)
  if coveredBytes (q.parts.map fun (o, b) => (o, b.length)) = q.total then
    { d with fab := { d.fab with partials := rest, inbox := d.fab.inbox ++ [q] } }
  else { d with fab := { d.fab with partials := rest ++ [q] } }

/-- The frames held of a peer that have become the next expected, in SEQUENCE order. -/
def releaseHeld (i : Nat) : Nat → Dev → Dev
  | 0, d => d
  | fuel + 1, d =>
    let q := d.peerSeq i
    match q.held.find? (·.1 = q.relIn) with
    | none => d
    | some (n, body) =>
      let d := d.setPeer { q with relIn := n + 1, held := q.held.filter (·.1 != n) }
      releaseHeld i fuel (match parseZft body with | some z => d.gather i z | none => d)

/-- A reliable frame (R347): taken when it is the next expected, held when it is ahead and within the window. -/
def takeReliable (d : Dev) (i : Nat) (z : Zft) : Dev :=
  let q := d.peerSeq i
  if z.seq = q.relIn then
    releaseHeld i 1025 ((d.setPeer { q with relIn := q.relIn + 1 }).gather i z)
  else if q.held.length < 1024 && decide (z.seq ≤ q.relIn + 1024) then
    (d.setPeer { q with held := q.held ++ [(z.seq, z.body)] }).sendAck i
  else d

end Dev

/-- The bytes of a message, put together by offset (R336). -/
def Partial.data (q : Partial) : List Byte :=
  (sortBy (fun a b : Nat × List Byte => decide (a.1 < b.1)) q.parts).foldl (fun acc (o, b) => acc.take o ++ List.replicate (o - acc.length) 0 ++ b) []

/-! ### Time (R350 to R352) -/

/-- The sum and the halves of R351, and the median of the last measurements; of an even number, the lower of the middle two. -/
def Dev.pathDelay (d : Dev) (p : Nat) (m : Int) : Dev :=
  let old := assocD ([] : List Int) p d.fab.delays
  let ms := (old ++ [m]).drop ((old.length + 1) - 8)
  let d := { d with fab := { d.fab with delays := assocPut p ms d.fab.delays } }
  d.put (Reg.portPathDelay p) (ofSigned 32 ((sortBy (fun a b : Int => decide (a < b)) ms).getD ((ms.length - 1) / 2) 0))

/-- A time period in ns. -/
def Dev.timePeriod (d : Dev) : Nat := 100000 * d.val Reg.fabTimeCfgTimePeriod

/-- `discipline` of R352, for a frame that came in on port `p` at the present TIME. -/
def Dev.discipline (d : Dev) (p src : Nat) : Dev :=
  let d := { d.bump Ctr.fabTimeFrames with fab := { d.fab with timeAt := d.now, timeLost := false } }
  if !d.on Reg.fabCtrlTimeEn then d else
  let o : Int := (src : Int) + toSigned 32 (d.rd (Reg.portPathDelay p)) + toSigned 32 (d.val (Reg.portDelayAdj p)) - d.now
  let d := d.put Reg.fabTimeOffset (ofSigned 64 o)
  let big := d.val Reg.fabTimeCfgStepNs < o.natAbs
  let d :=
    if !d.flag Reg.epcStatusRunning && big then
      let d := (d.put Reg.epcTime ((d.now : Int) + o).toNat).bump Ctr.fabTimeSteps
      { d with fab := { d.fab with timeAt := d.now } }
    else
      let d := d.put Reg.fabTimeRate (ofSigned 32 (clampInt (-200000) 200000 (o * 1000000000 / (max 1 d.timePeriod : Nat))))
      if big then
        let (d, first) := d.sayFab 0x0B06 0
        if first then d.raise .fabTimeOffset srcFabric [(4, ofSigned 32 o), (8, d.epoch)] else d
      else d
  d.putFlag Reg.fabStatusTimeLocked (!big)

/-- TIME_FRAME_SEND: a TIME frame on every UP port (R350). -/
def Dev.sendTime (d : Dev) : Dev :=
  if !d.on Reg.fabCtrlTimeMaster then d else
  let seq := d.fab.timeSeq
  let d := { d with fab := { d.fab with timeSeq := seq + 1 } }
  ((List.range 8).filter d.portUp).foldl (fun d p =>
    let data := leBytes 8 0 ++ leBytes 8 d.epoch ++ leBytes 4 d.timePeriod ++ List.replicate 12 0
    let zft := d.zftHeader tyTime 8 0 0 32 0 seq ++ data
    let (d, f) := d.formFrame 0 p 1 0 1 [0x03, 0x5A, 0, 0, 0, 1] zft false
    d.enqueue f) d

/-- ECHO_EXCHANGE: an ECHO_REQ to the time source on every UP port (R351). -/
def Dev.sendEchoes (d : Dev) : Dev :=
  let i := d.val Reg.fabTimeSourcePeer
  if !d.on (Reg.peerCfgValid i) then d else
  ((List.range 8).filter d.portUp).foldl (fun d p =>
    let q := d.peerSeq i
    let d := d.setPeer { q with msgOut := q.msgOut + 1, planOut := q.planOut + 1 }
    let data : List Byte := [BitVec.ofNat 8 mgEchoReq] ++ List.replicate 15 0
    let zft := d.zftHeader tyMgmt 0 0 (d.val (Reg.peerCfgNode i)) 16 0 q.planOut ++ msgPrefix 0 0 0 0 16 (q.msgOut % 2 ^ 32) ++ data
    let (d, f) := d.formFrame i p 1 0 2 (d.peerMac i) zft false
    d.enqueue f) d

/-- TIME_LOSS (R352). -/
def Dev.loseTime (d : Dev) : Dev :=
  if d.on Reg.fabCtrlTimeEn && !d.fab.timeLost && decide (d.fab.timeAt + d.val Reg.fabTimeCfgLossPeriods * d.timePeriod ≤ d.now) then
    let d := { d with fab := { d.fab with timeLost := true, unlocked := 0 } }.putFlag Reg.fabStatusTimeLocked false
    d.raise .fabTimeLost srcFabric [(2, d.val (Reg.peerCfgNode (d.val Reg.fabTimeSourcePeer))), (4, d.rd Reg.fabTimeOffset % 2 ^ 32)]
  else d

/-- After 4,096 epochs without TIME_LOCKED the module withdraws (R447). -/
def Dev.timeCairn (d : Dev) : Dev :=
  if !d.fab.timeLost then d else
  let n := d.fab.unlocked + 1
  let d := { d with fab := { d.fab with unlocked := n } }
  if n = 4096 then d.withdraw else d

/-! ### Ports (R353 to R355) -/

namespace Dev

/-- In TRAINING, READY, ACTIVE and DRAIN ports are powered (R354); GLB_STATE codes 3 to 6. -/
def portsPowered (d : Dev) : Bool := between 3 (d.rd Reg.glbState) 6

/-- A port starts training at 800 Gb/s. -/
def portTrain (d : Dev) (p : Nat) : Dev :=
  if !d.portsPowered || !bit (d.rd Reg.fabCtrlPortEn) p then d else
  let d := (d.put (Reg.portStatusState p) 1).put (Reg.portStatusSpeed p) 0
  { d with fab := { d.fab with attempts := assocPut p 0 d.fab.attempts } }

/-- PORT_TRAINING_TIMEOUT: three attempts at 800 Gb/s, three at 400 Gb/s, then FAILED; with more than two ports FAILED the module
withdraws (R447). -/
def trainingTimeout (d : Dev) (p : Nat) : Dev :=
  if d.rd (Reg.portStatusState p) != 1 then d else
  let n := assocD 0 p d.fab.attempts + 1
  let d := { d with fab := { d.fab with attempts := assocPut p n d.fab.attempts } }
  if n < 3 then d
  else if n < 6 then d.put (Reg.portStatusSpeed p) 1
  else
    let d := (d.put (Reg.portStatusState p) 4).raise .fabLinkTrainFail srcFabric [(1, p), (1, 1)]
    if 2 < ((List.range 8).filter fun q => d.rd (Reg.portStatusState q) = 4).length then d.withdraw else d

/-- PORT_UP. -/
def portComesUp (d : Dev) (p : Nat) : Dev :=
  if d.rd (Reg.portStatusState p) = 2 then
    (d.put (Reg.portStatusState p) 3).put Reg.fabStatusPortUp (setBits (d.rd Reg.fabStatusPortUp) p 1 1)
  else d

/-- An UP port goes DOWN, with its cause (1 alignment, 2 uncorrectable codewords; log entry 19), and retrains. -/
def linkDown (d : Dev) (p cause : Nat) : Dev :=
  if d.portUp p then
    (((d.portDown p).bump (Ctr.portLinkDowns p)).raise .fabLinkDown srcFabric [(1, p), (1, cause)]).portTrain p
  else if d.rd (Reg.portStatusState p) = 2 then d.portTrain p else d

/-- FAB_FEC_DEGRADED. -/
def sayFec (d : Dev) (p bad : Nat) : Dev :=
  { (d.raise .fabFecDegraded srcFabric [(1, p), (4, bad)]) with fab := { d.fab with fecSaid := assocPut p d.now d.fab.fecSaid } }

/-- The end of a 1 ms window with the codewords FEC corrected and could not correct (R353). -/
def fecWindow (d : Dev) (p good bad : Nat) : Dev :=
  let d := (d.bump (Ctr.portFecCorrected p) good).bump (Ctr.portFecUncorrected p) bad
  if !d.portUp p || bad = 0 then d
  else if 16 < bad then d.linkDown p 2
  else
    let d := d.putFlag (Reg.portStatusFecDegraded p) true
    match d.fab.fecSaid.find? (·.1 = p) with
    | some (_, t) => if d.now < t + 1000000000 then d else d.sayFec p bad
    | none => d.sayFec p bad
/-- A write to PORT_EN: ports that it enables start training, ports that it disables are DOWN (R355). -/
def writePortEn (d : Dev) (v : Nat) : Dev :=
  let old := d.rd Reg.fabCtrlPortEn
  let d := d.put Reg.fabCtrlPortEn v
  (List.range 8).foldl (fun d p =>
    if bit v p && !bit old p then d.portTrain p else if !bit v p && bit old p then d.portDown p else d) d

end Dev

/-! ### The commands -/

/-- SEND. -/
def execSend (c : Nat) (h : Hdr) (p : SendP) (us : List Upset) (s : State) : Host.Outcome State Fault Refusal :=
  stepCmd c h (.send p) us (sendRun p) s

/-- RECV. -/
def execRecv (c : Nat) (h : Hdr) (p : RecvP) (us : List Upset) (s : State) : Host.Outcome State Fault Refusal :=
  stepCmd c h (.recv p) us (recvRun p) s

/-- RECV_COMPLETE of the RECV with that INDEX in a chamber; `cohort` says that the plan has the message carry a cohort's records. -/
def execRecvComplete (c : Nat) (e : RecvEnd) (s : State) : Host.Outcome State Fault Refusal := done (s.recvEnd c e.idx e.cohort)

/-- ACK_TIMER. -/
def execAckTimer (t : Nat) (s : State) : Host.Outcome State Fault Refusal := devOnly s fun d => (d.clock t).ackAll

/-- RETRANSMIT_TIMER. -/
def execRetransmitTimer (t : Nat) (s : State) : Host.Outcome State Fault Refusal := devOnly s fun d => (d.clock t).retransmit

/-- TIME_FRAME_SEND. -/
def execTimeFrameSend (t : Nat) (s : State) : Host.Outcome State Fault Refusal := devOnly s fun d => (d.clock t).sendTime

/-- ECHO_EXCHANGE. -/
def execEchoExchange (t : Nat) (s : State) : Host.Outcome State Fault Refusal := devOnly s fun d => (d.clock t).sendEchoes

/-- TIME_LOSS. -/
def execTimeLoss (t : Nat) (s : State) : Host.Outcome State Fault Refusal := devOnly s fun d => (d.clock t).loseTime

/-- PORT_TRAINING_TIMEOUT. -/
def execPortTrainingTimeout (p : Nat) (s : State) : Host.Outcome State Fault Refusal := devOnly s fun d => if p < 8 then d.trainingTimeout p else d

/-- PORT_PHY_UP. -/
def execPortPhyUp (p : Nat) (s : State) : Host.Outcome State Fault Refusal :=
  devOnly s fun d => if p < 8 ∧ d.rd (Reg.portStatusState p) = 1 then d.put (Reg.portStatusState p) 2 else d

/-- PORT_UP. -/
def execPortUp (p : Nat) (s : State) : Host.Outcome State Fault Refusal := devOnly s fun d => if p < 8 then d.portComesUp p else d

/-- PORT_ALIGNMENT_LOSS. -/
def execPortAlignmentLoss (p : Nat) (s : State) : Host.Outcome State Fault Refusal := devOnly s fun d => if p < 8 then d.linkDown p 1 else d

/-- FEC_WINDOW: corrected and uncorrectable codewords of a port's window that ends at `t`. -/
def execFecWindow (p good bad t : Nat) (s : State) : Host.Outcome State Fault Refusal :=
  devOnly s fun d => if p < 8 then (d.clock t).fecWindow p good bad else d

/-- PORT_ENABLE_WRITE of the eight PORT_EN bits. -/
def execPortEnableWrite (v : Nat) (s : State) : Host.Outcome State Fault Refusal := devOnly s (·.writePortEn (v % 256))

end Sys2Proof.Machine
end

