-- ==== Sys2Proof/Machine/Job.lean ====
section
/-! DEFINITION. The job: composition maps, claims of state, heartbeats, the down set, stragglers and Lantern's cores
(15_pools_tenants_metering.md R377 to R396, 18_faults_and_failover.md R449 to R462). -/

namespace Sys2Proof.Machine

open Sys2Proof.Crypto

/-! ### COORD messages (R385, R452) -/

def kdAnnounce : Nat := 0x01
def kdProbe : Nat := 0x02
def kdHandoff : Nat := 0x03
def kdHeartbeat : Nat := 0x40
def kdDown : Nat := 0x41
def kdTags : Nat := 0x42
def kdSet : Nat := 0x43

def coordKinds : List Nat := [kdAnnounce, kdProbe, kdHandoff, kdHeartbeat, kdDown, kdTags, kdSet]

/-- Bytes 1 onward of a COORD message of this module. -/
def State.coordBody (s : State) (kind epoch : Nat) (rest : List Byte) : List Byte :=
  [BitVec.ofNat 8 kind] ++ leBytes 2 (s.dev.rd Reg.poolMapVersionCurrent) ++ leBytes 4 0 ++ leBytes 8 epoch ++ rest

/-! ### The map announced (R378, R380, R451) -/

def roleOf (b : List Byte) (m : Nat) : Nat := if m < mapMembers b then memberRole b m else 0xFF

/-- The byte offset of a map's first field that fails R380, for its header at device address `a`; `sender` is the node that sent it. -/
def mapBad (s : State) (b : List Byte) (a sender : Nat) : Option Nat :=
  let at' (ok : Bool) (k : Nat) : Option Nat := if ok then none else some k
  let n := mapMembers b
  let k := mapShards b
  let scan (m : Nat) : Bool := roleOf b m = 0 || roleOf b m = 2
  let rank (m : Nat) : Bool := roleOf b m = 1 || roleOf b m = 2
  let me := s.dev.rd Reg.fabNodeNodeId
  (at' (fieldAt b 0 4 = 0x5A434D31) 0)
    <|> (at' (fieldAt b 4 2 = 1) 4)
    <|> (at' (between 1 n 65536) 32)
    <|> (at' (between 1 k 65536) 36)
    <|> (at' (decide (mapBytes n k ≤ b.length) && decide (mapBytes n k ≤ s.dev.val Reg.poolMapLenBytes) && s.poolReady) 32)
    <|> (at' (fieldAt b 60 4 = check32c a (b.take 60 ++ (b.take (mapBytes n k)).drop 64)) 60)
    <|> (at' (decide (mapCoordinator b < n)) 40)
    <|> (at' ((b.drop 42).take 18 = List.replicate 18 0) 42)
    <|> ((List.range n).findSome? fun i =>
      at' (decide (memberRole b i < 4)) (memberAt i + 2) <|> at' (fieldAt b (memberAt i + 3) 1 = 0) (memberAt i + 3)
        <|> at' (i != 0xFFFF || memberRole b i = 3) (memberAt i + 2))
    <|> ((List.range k).findSome? fun i =>
      at' (scan (shardOwner b i)) (shardAt b i)
        <|> at' (shardReplica b i = 0xFFFF || scan (shardReplica b i)) (shardAt b i + 2)
        <|> at' (shardRanker b i = 0xFFFF || rank (shardRanker b i)) (shardAt b i + 4)
        <|> at' (fieldAt b (shardAt b i + 6) 2 = 0) (shardAt b i + 6))
    <|> (at' (decide (1024 < n) || memberNode b (mapCoordinator b) = sender) 40)
    <|> (at' (memberOf b me).isSome 64)
    <|> (at' (s.storedMap.all fun c => mapJob c = mapJob b) 8)
    <|> (at' (s.storedMap.all fun c => newerVersion (mapVersion c) (mapVersion b)) 6)

def Dev.ownTags (d : Dev) : List Nat :=
  [d.val Reg.fltDomainATray, d.val Reg.fltDomainAShelf, d.val Reg.fltDomainBLoop, d.val Reg.fltDomainBSwitch]

/-- The shard, partner and tag for which a map is refused under R451. -/
def domainShared (s : State) (b : List Byte) : Option (Nat × Nat × Nat) :=
  match memberOf b (s.dev.rd Reg.fabNodeNodeId) with
  | none => none
  | some me =>
    let own := s.dev.ownTags
    (List.range (mapShards b)).findSome? fun k =>
      let partner := if shardOwner b k = me then some (shardReplica b k) else if shardReplica b k = me then some (shardOwner b k) else none
      partner.bind fun m =>
        if own.contains 0 then some (k, m, 0)
        else if m = 0xFFFF then none
        else match s.dev.job.tags.find? (·.1 = memberNode b m) with
          | none => some (k, m, 0)
          | some (_, ts) => ((own.zip ts).find? fun (x, y) => x != 0 && x = y).map fun t => (k, m, t.1)

/-- Is the job of this map relayed, and is a member one of its relays (R453)? -/
def relayed (b : List Byte) : Bool := decide (1024 < mapMembers b)
def isRelay (m : Nat) : Bool := decide (m % 64 < 2)

/-- The nodes of a relay's group, without the relay itself. -/
def groupNodes (b : List Byte) (me : Nat) : List Nat :=
  (((List.range 64).map (64 * (me / 64) + ·)).filter fun m => decide (m < mapMembers b) && m != me).map (memberNode b)

/-- A relay forwards the first copy of a MAP_ANNOUNCE or DOWN message to its group. -/
def State.forward (s : State) (map : List Byte) (body : List Byte) : State :=
  match memberOf map (s.dev.rd Reg.fabNodeNodeId) with
  | some me => if relayed map && isRelay me then s.onDev fun d => (groupNodes map me).foldl (fun d n => d.sendCoord n body) d else s
  | none => s

namespace State

/-- MAP_ANNOUNCE: the bytes of the message, from the node that sent it (R380). -/
def announce (s : State) (msg : List Byte) (sender : Nat) : State :=
  let b := msg.drop 16
  let half := 1 - s.dev.rd Reg.tntStatusMapHalf
  let a := s.mapHalfAddr half
  let v := fieldAt b 6 2
  let again := s.dev.flag Reg.tntStatusMapPending && s.dev.rd Reg.poolMapVersionPending = v && (s.devRead a b.length).1 = b
  if again then s else
  match mapBad s b a sender with
  | some f => s.onDev (·.raise .poolMapBad Dev.srcLantern [(2, v), (4, f)])
  | none =>
    match domainShared s b with
    | some (k, m, t) => s.onDev (·.raise .fltDomainShared Dev.srcLantern [(2, v), (2, k), (2, m), (2, t)])
    | none =>
      if mapEffective b < s.dev.epoch + 4 then s.onDev (·.raise .poolMapLate Dev.srcLantern [(2, v), (8, mapEffective b), (8, s.dev.epoch)])
      else
        let s := (s.devWrite a b).onDev fun d =>
          { (d.putFlag Reg.tntStatusMapPending true).put Reg.poolMapVersionPending v with pool := { d.pool with pendingAt := mapEffective b } }
        s.forward b (msg.drop 1)

/-- The role of a shard in a map: ranker for kind 0, owner for kind 1 (R384). -/
def roleHolder (b : List Byte) (kind k : Nat) : Nat := if kind = 0 then shardRanker b k else shardOwner b k

/-- At the cairn of F, the claims of state that another member's plan no longer serves: `gone` names them as (cohort, shard,
kind); each sends a STATE_PROBE (R384). -/
def startClaims (s : State) (gone : List (Nat × Nat × Nat)) : State :=
  gone.foldl (fun s (c, k, kind) =>
    match s.currentMap, s.routingMap c with
    | some cur, some old =>
      let x := roleHolder old kind k
      if some (roleHolder cur kind k) = memberOf cur (s.dev.rd Reg.fabNodeNodeId) ∧ x < mapMembers old
          ∧ memberNode old x ≠ s.dev.rd Reg.fabNodeNodeId ∧ k < mapShards cur ∧ k < mapShards old then
        let body := s.coordBody kdProbe c (leBytes 2 k ++ leBytes 1 kind ++ leBytes 5 0)
        s.onDev fun d => { d.sendCoord (memberNode old x) body with pool := { (d.sendCoord (memberNode old x) body).pool with
          claims := d.pool.claims ++ [⟨c, k, kind, memberNode old x, d.epoch + 2, none⟩] } }
      else s
    | _, _ => s) s

/-- Is a map change due at the cairn of the present epoch (R381)? -/
def mapDue (s : State) : Bool :=
  s.dev.on Reg.tntCtrlPoolEn && s.dev.flag Reg.tntStatusMapPending && decide (s.dev.pool.pendingAt ≤ s.dev.epoch)

/-- Does this module's entry in a map agree with the active plan (R381)? -/
def mapAgrees (s : State) (b : List Byte) (me : Nat) : Bool :=
  memberPlan b me = s.planId % 2 ^ 32 && (memberRole b me = 3 || memberRole b me = s.planRole)

/-- MAP_TAKE_EFFECT, in a cairn (R36, R381). -/
def takeMap (s : State) (gone : List (Nat × Nat × Nat)) : State :=
  let d := s.dev
  if !d.epc.inCairn || !s.mapDue then s else
  let half := 1 - d.rd Reg.tntStatusMapHalf
  let b := s.mapIn half
  match memberOf b (d.rd Reg.fabNodeNodeId) with
  | none => s
  | some me =>
    if !s.mapAgrees b me then
      s.onDev fun d => (d.raise .poolRoleMismatch Dev.srcLantern [(2, mapVersion b), (1, memberRole b me), (4, memberPlan b me), (8, s.planId)]).putFlag
        Reg.tntStatusRoleMismatch true
    else
      let prev := s.storedMap.getD []
      let mine (k : Nat) : Bool := shardOwner b k = me || shardReplica b k = me
      let d := ((((d.put Reg.tntStatusMapHalf half).putFlag Reg.tntStatusMapPending false).put Reg.poolMapVersionCurrent (mapVersion b)).put
        Reg.poolRole (memberRole b me)).put Reg.poolMapEffective (mapEffective b)
      let d := ((d.put Reg.poolSelfMember me).putFlag Reg.tntStatusFallback
        ((List.range (mapShards b)).any fun k => mine k && shardRanker b k = 0xFFFF)).bump Ctr.poolMapChanges
      let d := { d with pool := { d.pool with haveMap := true, takenAt := d.epoch, prevMap := prev },
                        job := { d.job with down := d.job.down.filter fun n => (memberOf b n).isSome, noReplicaSaid := [] } }
      ({ s with dev := d }).startClaims gone

/-- A STATE_PROBE from a node: the state is kept as a shadow, and a handoff is sent (R384). -/
def probe (s : State) (msg : List Byte) (sender : Nat) : State :=
  let c := fieldAt msg 8 8
  let rest := (msg.drop 16).take 8
  let sh : Shadow := { cohort := c, shard := fieldAt rest 0 2, kind := fieldAt rest 2 1, until' := s.dev.pool.takenAt + 3 }
  let state := Config.handoffState s.dev.freeCtr
  let body := s.coordBody kdHandoff c (rest ++ state ++ leBytes 4 (check32c c state))
  s.onDev fun d =>
    let d := { d with freeCtr := d.freeCtr + 1, pool := { d.pool with shadows := d.pool.shadows ++ [sh] } }
    d.sendCoord sender body

/-- A STATE_HANDOFF reaches its claim, when its CRC matches. -/
def handoff (s : State) (msg : List Byte) : State :=
  let c := fieldAt msg 8 8
  let n := msg.length - 28
  let state := (msg.drop 24).take n
  if fieldAt msg (24 + n) 4 != check32c c state then s else
  let put (q : Claim) : Claim :=
    if q.cohort = c ∧ q.shard = fieldAt msg 16 2 ∧ q.kind = fieldAt msg 18 1 then { q with handoff := some state } else q
  s.onDev fun d => { d with pool := { d.pool with claims := d.pool.claims.map put } }

/-- STATE_CLAIM at the cairn of F + 2 (R384): from the handoff, else the shadow, else the replica, as far as they can be read; the
steps left of the cohort for the shard join the sumps as entries of reason 4. -/
def claim (s : State) (cohort shard kind : Nat) (shadow replica : Bool) (steps : List (Nat × Step)) : State :=
  match s.dev.pool.claims.find? fun q => q.cohort = cohort && q.shard = shard && q.kind = kind && q.due = s.dev.epoch && s.dev.epc.inCairn with
  | none => s
  | some q =>
    let s := s.onDev fun d => { d with pool := { d.pool with claims := d.pool.claims.erase q } }
    if q.handoff.isNone && !shadow && !replica then
      let x := ((s.storedMap.bind fun b => memberOf b q.from').orElse fun _ => memberOf s.dev.pool.prevMap q.from').getD 0xFFFF
      s.onDev fun d => { d.raise .poolStateLost Dev.srcLantern [(8, cohort), (2, shard), (2, x)] true with
        pool := { (d.raise .poolStateLost Dev.srcLantern [(8, cohort), (2, shard), (2, x)] true).pool with lost := d.pool.lost ++ [(cohort, shard)] } }
    else s.onDev fun d =>
      let d := d.bump Ctr.poolStateClaims
      let d := if q.handoff.isSome then d.bump Ctr.poolStateHandoffs else
        let d := d.raise .poolStateClaimed Dev.srcLantern [(8, cohort), (2, shard), (1, if shadow then 1 else 2)]
        if shadow then d else d.bump Ctr.poolStateFromReplica
      steps.foldl (fun d (c, st) => d.sumpAppend { chamber := c, step := st, origin := cohort + st.hdr.stage, reason := 4, resume := [] }) d

end State

/-- Shadows end with the epoch F + 3, and the marks of lost shards with the ageing of their cohorts (R191). -/
def Dev.dropShadows (d : Dev) : Dev :=
  { d with pool := { d.pool with shadows := (d.pool.shadows.filter fun h => decide (d.epoch ≤ h.until')),
                                 lost := d.pool.lost.filter fun x => decide (d.epoch ≤ x.1 + 18) } }

/-! ### Heartbeats (R452, R453) -/

namespace State

/-- The member index of this module, of the coordinator and of the deputy, under the current map. -/
def selfMember (s : State) : Option Nat := s.storedMap.bind fun b => memberOf b (s.dev.rd Reg.fabNodeNodeId)

/-- The member that acts as coordinator: the deputy once the coordinator is in the down set (R454). -/
def actingCoordinator (s : State) (b : List Byte) : Nat :=
  let c := mapCoordinator b
  if s.dev.job.down.contains (memberNode b c) then (c + 1) % mapMembers b else c

def deputy (b : List Byte) : Nat := (mapCoordinator b + 1) % mapMembers b

end State

namespace Dev

/-- Has the module a fault of these codes in the epoch, with the node as its first item, repeated where asked? -/
def lostNode (d : Dev) : Option Nat :=
  (d.flt.marks.find? fun m => m.epoch = d.epoch && (m.code = .fabTransferLost
    || ((m.code = .siphonLost || m.code = .fabPeerUnreachable) && decide (d.val Reg.fltRepeatRepeatN ≤ d.repeats m)))).map (·.first)

/-- Byte 18 of a heartbeat. -/
def beatFlags (d : Dev) : Nat :=
  d.rd Reg.fltStatusStraggler + 2 * d.rd Reg.pwrStatusStepReq + 4 * d.rd Reg.fltStatusWithdrawn + 8 * d.rd Reg.btStatusIneligible

/-- A heartbeat is kept until two epochs have passed. -/
def takeBeat (d : Dev) (b : Beat) : Dev :=
  let keep := d.job.beats.filter fun q => !(q.node = b.node && q.epoch = b.epoch) && decide (d.epoch ≤ q.epoch + 2)
  { d with job := { d.job with beats := keep ++ [b] } }

end Dev

namespace State

/-- HEARTBEAT_SEND (R452, R453). -/
def sendBeat (s : State) : State :=
  match s.storedMap, s.selfMember with
  | some b, some me =>
    if s.dev.job.beatSent = some s.dev.epoch then s else
    let lost := (s.dev.lostNode.bind (memberOf b)).getD 0xFFFF
    let body := s.coordBody kdHeartbeat s.dev.epoch (leBytes 2 s.dev.job.misses.length ++ leBytes 1 s.dev.beatFlags ++ leBytes 2 lost)
    let own : Beat := ⟨s.dev.rd Reg.fabNodeNodeId, s.dev.epoch, s.dev.job.misses.length, s.dev.beatFlags, lost⟩
    let to' := if relayed b && me != mapCoordinator b then [64 * (me / 64), 64 * (me / 64) + 1] else [mapCoordinator b, deputy b]
    s.onDev fun d =>
      let d := ((to'.eraseDups.filter fun m => m != me && decide (m < mapMembers b)).map (memberNode b)).foldl (fun d n => d.sendCoord n body) d
      let d := d.takeBeat own
      { d with job := { d.job with beatSent := some d.epoch } }
  | _, _ => s

/-- A HEARTBEAT from a node. -/
def beatIn (s : State) (msg : List Byte) (sender : Nat) : State :=
  s.onDev (·.takeBeat ⟨sender, fieldAt msg 8 8, fieldAt msg 16 2, fieldAt msg 18 1 % 16, fieldAt msg 19 2⟩)

/-- HEARTBEAT_SET_SEND: a relay's set to the coordinator and the deputy (R453). -/
def sendBeatSet (s : State) : State :=
  match s.storedMap, s.selfMember with
  | some b, some me =>
    if !relayed b || !isRelay me then s else
    let members := ((List.range 64).map (64 * (me / 64) + ·)).filter fun m => decide (m < mapMembers b)
    let entry (m : Nat) : List Byte :=
      match s.dev.job.beats.find? fun q => q.node = memberNode b m && q.epoch = s.dev.epoch with
      | some q => leBytes 2 m ++ leBytes 2 q.misses ++ leBytes 1 (q.flags + 128) ++ leBytes 2 q.lost ++ [0]
      | none => leBytes 2 m ++ leBytes 2 0 ++ [0] ++ leBytes 2 0xFFFF ++ [0]
    let body := s.coordBody kdSet s.dev.epoch (leBytes 2 (me / 64) ++ leBytes 2 members.length ++ leBytes 4 0 ++ members.flatMap entry)
    s.onDev fun d => (([mapCoordinator b, deputy b].eraseDups.filter (· != me)).map (memberNode b)).foldl (fun d n => d.sendCoord n body) d
  | _, _ => s

/-- A HEARTBEAT_SET: the heartbeats whose PRESENT is set. -/
def beatSetIn (s : State) (msg : List Byte) : State :=
  match s.storedMap with
  | none => s
  | some b =>
    (chunks 8 (((msg.drop 24).take (8 * fieldAt msg 18 2)))).foldl (fun s e =>
      if bit (fieldAt e 4 1) 7 && decide (fieldAt e 0 2 < mapMembers b) then
        s.onDev (·.takeBeat ⟨memberNode b (fieldAt e 0 2), fieldAt msg 8 8, fieldAt e 2 2, fieldAt e 4 1 % 16, fieldAt e 5 2⟩)
      else s) s

/-- TAGS of a node (R451). -/
def tagsIn (s : State) (msg : List Byte) (sender : Nat) : State :=
  s.onDev fun d => { d with job := { d.job with
    tags := assocPut sender ((List.range 4).map fun i => fieldAt msg (16 + 2 * i) 2) d.job.tags } }

/-! ### Down (R454, R455) -/

/-- Why a member is declared down in the present epoch: 0 silent, 1 withdrawn, 2 straggler, 3 reported lost. -/
def downCause (s : State) (b : List Byte) (m : Nat) : Option Nat :=
  let d := s.dev.epoch
  let now := s.dev.job.beats.filter (·.epoch = d)
  match now.find? (·.node = memberNode b m) with
  | none => some 0
  | some q =>
    if bit q.flags 2 then some 1
    else if 2 ≤ (now.filter fun r => r.lost = m && r.node != memberNode b m).length then some 3
    else if bit q.flags 0 then some 2 else none

/-- The EFFECTIVE epoch of a DOWN (R454, R458). -/
def downEffective (s : State) (cause : Nat) : Nat :=
  let d := s.dev.epoch
  if cause = 2 then roundUp (d + 2) (max 1 (s.dev.val Reg.fltStraggleSwapPeriod)) else d + 2

/-- A DOWN message, once for each member: it waits for its EFFECTIVE; one whose cairn has passed makes the module late (R454). -/
def scheduleDown (s : State) (eff m cause : Nat) : State :=
  if s.dev.job.downDue.any (·.2.1 = m) then s else
  s.onDev fun d => { d with job := { d.job with downDue := d.job.downDue ++ [(eff, m, cause)], missNow := d.job.missNow || decide (eff ≤ d.epoch) } }

/-- DOWN_DECLARE: the acting coordinator declares members, and the deputy the coordinator (R454). -/
def declareDown (s : State) : State :=
  match s.storedMap, s.selfMember with
  | some b, some me =>
    let boss := s.actingCoordinator b
    let watched := if me = boss then (List.range (mapMembers b)).filter (· != me)
      else if me = deputy b then [mapCoordinator b] else []
    watched.foldl (fun s m =>
      let node := memberNode b m
      if s.dev.job.down.contains node || s.dev.job.declared.contains node then s else
      match s.downCause b m with
      | none => s
      | some cause =>
        let eff := s.downEffective cause
        let body := s.coordBody kdDown eff (leBytes 2 m ++ leBytes 1 cause ++ leBytes 5 0)
        let to' := if relayed b then (List.range (mapMembers b)).filter isRelay else List.range (mapMembers b)
        let s := s.onDev fun d =>
          let d := ((to'.filter (· != me)).map (memberNode b)).foldl (fun d n => d.sendCoord n body) d
          let d := if cause = 2 then d.bump Ctr.fltSwaps else d
          { d with job := { d.job with declared := d.job.declared ++ [node] } }
        s.scheduleDown eff m cause) s
  | _, _ => s

/-- A DOWN message; a relay forwards the first copy. -/
def downIn (s : State) (msg : List Byte) : State :=
  let m := fieldAt msg 16 2
  if s.dev.job.downDue.any (·.2.1 = m) then s else
  let s := s.scheduleDown (fieldAt msg 8 8) m (fieldAt msg 18 1)
  match s.storedMap with
  | some b => s.forward b (msg.drop 1)
  | none => s

/-- Peer entries that name a down node are repointed to its replica's node, with the place of the entry that names the replica
(R455, R338). -/
def repoint (s : State) (b : List Byte) (m : Nat) : State :=
  let node := memberNode b m
  match (List.range (mapShards b)).findSome? fun k => if shardOwner b k = m && shardReplica b k != 0xFFFF then some (shardReplica b k) else none with
  | none => s
  | some r =>
    let rn := memberNode b r
    s.onDev fun d =>
      let at' := d.peerOf rn
      ((List.range 4096).filter fun i => d.on (Reg.peerCfgValid i) && d.val (Reg.peerCfgNode i) = node).foldl (fun d i =>
        let set (d : Dev) (f : Field) (v : Nat) : Dev := (d.put f v).adopt f
        let d := set d (Reg.peerCfgNode i) rn
        let d := match at' with
          | some j => set (set (set d (Reg.peerCfgPort i) (d.val (Reg.peerCfgPort j))) (Reg.peerMacLo i) (d.val (Reg.peerMacLo j))) (Reg.peerMacHiMac i) (d.val (Reg.peerMacHiMac j))
          | none => d
        d.resetPeers [i]) d

/-- Does a map change of this cairn still have to be made, before the down set is applied (R455)? -/
def mapFirst (s : State) : Bool :=
  let b := s.mapIn (1 - s.dev.rd Reg.tntStatusMapHalf)
  s.mapDue && (memberOf b (s.dev.rd Reg.fabNodeNodeId)).any (s.mapAgrees b)

/-- DOWN_SET_APPLY, in a cairn: the members whose EFFECTIVE has come join the down set (R455, R456); this module, if named, enters DRAIN. -/
def applyDown (s : State) : State :=
  if !s.dev.epc.inCairn || s.mapFirst then s else
  match s.storedMap with
  | none => s
  | some b =>
    let due := s.dev.job.downDue.filter fun (e, m, _) => decide (e ≤ s.dev.epoch) && decide (m < mapMembers b)
    let s := due.foldl (fun s (e, m, cause) =>
      let node := memberNode b m
      let s := s.onDev fun d =>
        let d := { d with job := { d.job with down := if d.job.down.contains node then d.job.down else d.job.down ++ [node] } }
        (d.bump Ctr.fltDownApplied).raise .fltMemberDown Dev.srcLantern [(2, m), (8, e), (1, cause)]
      let s := s.repoint b m
      if node = s.dev.rd Reg.fabNodeNodeId && s.dev.rd Reg.glbState = 5 then s.onDev (·.enterState 6) else s) s
    let s := s.onDev fun d => { d with job := { d.job with downDue := d.job.downDue.filter (!due.contains ·) } }
    let isDown (m : Nat) : Bool := decide (m < mapMembers b) && s.dev.job.down.contains (memberNode b m)
    ((List.range (mapShards b)).filter fun k => isDown (shardOwner b k) && isDown (shardReplica b k) && !s.dev.job.noReplicaSaid.contains k).foldl
      (fun s k => s.onDev fun d => { (d.raise .fltNoReplica Dev.srcLantern [(2, k), (8, d.epoch)] true) with
        job := { d.job with noReplicaSaid := d.job.noReplicaSaid ++ [k] } }) s

end State

/-! ### Lantern's cores (R449, R450) and stragglers (R457) -/

namespace Dev

/-- A commit pair goes out of service, with the core that caused it; with fewer than two pairs left the module withdraws. -/
def retirePair (d : Dev) (core : Nat) : Dev :=
  let p := core % 4
  let left := (List.range 4).countP fun i => i != p && bit (d.rd Reg.fltStatusPairs) i
  let d := d.put Reg.fltStatusPairs (setBits (d.rd Reg.fltStatusPairs) p 1 0)
  let d := { d with job := { d.job with retired := d.job.retired ++ [core] } }
  let d := d.raise .fltCoreRetired srcLantern [(1, core), (1, left)]
  if left < 2 then d.withdraw else d

/-- WATCHDOG_EXPIRE (R450). -/
def watchdog (d : Dev) (core : Nat) : Dev :=
  if 8 ≤ core ∨ d.job.retired.contains core ∨ bit (d.rd Reg.fltStatusPairs) (core % 4) = false then d else
  let d := (d.raise .fltWatchdog srcLantern [(1, core), (8, d.epoch)]).bump Ctr.fltWatchdogResets
  let rs := (d.job.resets.filter fun r => decide (d.epoch < r.2 + 4096)) ++ [(core, d.epoch)]
  let d := { d with job := { d.job with resets := rs } }
  if 3 ≤ (rs.filter (·.1 = core)).length then d.retirePair core else d

/-- A write set of a pair in service whose two CRC-64 values differ: nothing of it applies at this cairn, the module is late, and the second mismatch in
a row retires the pair (R449). -/
def commitMismatch (d : Dev) (pair a b : Nat) : Dev :=
  if !bit (d.rd Reg.fltStatusPairs) pair then d else
  let again := d.job.mismatches.contains (pair, d.epoch - 1)
  let d := (d.raise .fltCommitMismatch srcLantern [(1, pair), (8, a), (8, b)]).bump Ctr.fltCommitMismatches
  let d := { d with job := { d.job with missNow := true, mismatches := (d.job.mismatches.filter (·.1 != pair)) ++ [(pair, d.epoch)] } }
  if again then d.retirePair pair else d

/-- STRAGGLER_EVALUATE at a cairn (R457): the epoch that ended was a miss when it was late, ran another bank than armed, kept another map
than pending, or a write set was held. -/
def straggle (d : Dev) : Dev :=
  let e := d.epoch - 1
  let miss := d.flag Reg.epcStatusLate || d.epc.slotLate.isSome || d.epc.saidNotReady || d.epc.saidMismatch || d.job.missNow
    || (d.flag Reg.tntStatusMapPending && decide (d.pool.pendingAt ≤ e))
  let keep := d.job.misses.filter fun m => decide (e < m + d.val Reg.fltStraggleStraggleWindow)
  let ms := if miss then keep ++ [e] else keep
  let d := { d with job := { d.job with misses := ms, missNow := false } }
  let many := decide (d.val Reg.fltStraggleStraggleMisses ≤ ms.length)
  let was := d.flag Reg.fltStatusStraggler
  let d := d.putFlag Reg.fltStatusStraggler many
  let d := if many && !was then d.raise .fltStraggler srcLantern [(4, ms.length), (4, d.val Reg.fltStraggleStraggleWindow)] else d
  if many then d.bump Ctr.fltStragglerEpochs else d

/-- Metering at a cairn (R391, R392): byte-epochs of the USED values of its snapshot (R256), and the energy estimate from the increases of the counters since the last cairn. -/
def meterCairn (d : Dev) : Dev :=
  if !d.on Reg.tntCtrlMeterEn then d else
  (List.range 64).foldl (fun d t =>
    let d := ((d.meterTenant t 5 (d.rd (Reg.tntStrataUsed t))).meterTenant t 6 (d.rd (Reg.tntStackUsed t))).meterTenant t 7 (d.rd (Reg.tntFlashUsed t))
    let e := [0, 1, 2, 3, 4, 8, 9, 10, 11, 12, 13].foldl (fun e i =>
      let o := Ctr.mtrChamberCycles t + 8 * i
      e + d.rd (Reg.energyCoef i) * (d.count o - assocD 0 o d.pool.meterPrev)) 0
    let acc := (assocD 0 t d.pool.energy + e) % 2 ^ 128
    let prev := [0, 1, 2, 3, 4, 8, 9, 10, 11, 12, 13].foldl (fun ps i =>
      let o := Ctr.mtrChamberCycles t + 8 * i
      if d.count o = 0 then ps else assocPut o (d.count o) ps) d.pool.meterPrev
    let d := { d with pool := { d.pool with energy := if acc = 0 then d.pool.energy else assocPut t acc d.pool.energy, meterPrev := prev } }
    let mj := Ctr.mtrEnergyMj t
    d.bump mj (acc / 10 ^ 12 - d.count mj)) d

end Dev

/-! ### The commands -/

/-- MAP_TAKE_EFFECT; `gone` names as (cohort, shard, kind) the states whose holder's active plan has no step for them. -/
def execMapTakeEffect (gone : List (Nat × Nat × Nat)) (s : State) : Host.Outcome State Fault Refusal := done (s.takeMap gone)

/-- STATE_CLAIM: which sources besides the handoff can be read, and the steps left of the cohort for the shard. -/
def execStateClaim (cohort shard kind : Nat) (shadow replica : Bool) (steps : List (Nat × Step)) (s : State) : Host.Outcome State Fault Refusal :=
  done (s.claim cohort shard kind shadow replica steps)

/-- DOWN_SET_APPLY. -/
def execDownSetApply (s : State) : Host.Outcome State Fault Refusal := done s.applyDown

/-- HEARTBEAT_SEND. -/
def execHeartbeatSend (s : State) : Host.Outcome State Fault Refusal := done s.sendBeat

/-- HEARTBEAT_SET_SEND. -/
def execHeartbeatSetSend (s : State) : Host.Outcome State Fault Refusal := done s.sendBeatSet

/-- DOWN_DECLARE. -/
def execDownDeclare (s : State) : Host.Outcome State Fault Refusal := done s.declareDown

/-- WATCHDOG_EXPIRE of a core. -/
def execWatchdogExpire (core : Nat) (s : State) : Host.Outcome State Fault Refusal := devOnly s (·.watchdog core)

end Sys2Proof.Machine
end

