-- ==== Sys2Proof/Machine/Ingress.lean ====
section
/-! DEFINITION. Ingress and replies: query records, the cut-off, refusals, and the replies and completions that leave
(02_epochs_and_plans.md R62, R63; 07_lists_updates_visibility.md R181, R196, R201; 13_fabric_links_and_transport.md R345,
R346; 15_pools_tenants_metering.md R387, R390; 16_host_attachment.md R406). -/

namespace Sys2Proof.Machine

open Sys2Proof.Crypto

/-! ### Query records (R345) -/

def queryK (b : List Byte) : Nat := fieldAt b 0 4
def queryMode (b : List Byte) : Nat := fieldAt b 11 1
def queryExact (b : List Byte) : Bool := bit (queryMode b) 0
def queryTokens (b : List Byte) : Bool := bit (queryMode b) 2
def queryFiltered (b : List Byte) : Bool := fieldAt b 12 1 != 0

/-- OPS of R177 for a number of sets: OP1 to OP(NSETS − 1) given, the others 0. -/
def setOpsOk (n ops : Nat) : Bool :=
  ops < 64 && [1, 2, 3].all fun i => (bits ops (2 * (i - 1)) 2 != 0) == decide (i < n)

/-- Does a query record keep the table of R345, and R197 where it may be widened? -/
def queryOk (b : List Byte) : Bool :=
  let k := queryK b
  let re := fieldAt b 4 4
  let n := fieldAt b 12 1
  let d := fieldAt b 18 2
  let widen := bit (queryMode b) 1 && queryFiltered b
  between 1 k 65536 && (if re = 0 then !widen else between k re 1048576) && between 1 (fieldAt b 8 2) 4096 && fieldAt b 10 1 < 4
    && queryMode b < 8 && n ≤ 4 && setOpsOk n (fieldAt b 13 1) && ((b.drop (14 + n)).take (4 - n)).all (· = 0) && fieldAt b 20 4 = 0
    && (if queryTokens b then d = 0 && b.length = 40 && fieldAt b 25 3 = 0 else between 8 d 4096 && b.length = 24 + 4 * d)

/-! ### Replies (R346) -/

/-- REPLY status codes. -/
def rsAnswered : Nat := 0
def rsDuplicate : Nat := 1
def rsNoExact : Nat := 2
def rsBadRecord : Nat := 3
def rsTenantRefused : Nat := 4

/-- The 48-byte header of a reply. -/
def replyHeader (status flags n seq snapshot k sel rest tie missing : Nat) : List Byte :=
  [1, BitVec.ofNat 8 status] ++ leBytes 2 flags ++ leBytes 4 n ++ leBytes 8 seq ++ leBytes 8 snapshot ++ leBytes 4 k ++ leBytes 4 sel
    ++ leBytes 4 rest ++ leBytes 4 tie ++ leBytes 2 missing ++ List.replicate 6 0

/-- The completion of an operation. -/
def opReply (status seq commit : Nat) : List Byte :=
  [2, BitVec.ofNat 8 status] ++ List.replicate 6 0 ++ leBytes 8 seq ++ leBytes 8 commit

namespace Dev

/-- The next free epoch value. -/
def drawEpoch (d : Dev) : Dev × Nat := ({ d with freeCtr := d.freeCtr + 1 }, (Config.noEpoch d.freeCtr).toNat)

/-- DMA bytes of a tenant's ring traffic (R391, R414). -/
def hostBytes (d : Dev) (fn tenant : Nat) (inward : Bool) (n : Nat) : Dev :=
  (d.meterTenant tenant 12 n).bump (if inward then Ctr.fnBytesIn fn else Ctr.fnBytesOut fn) n

/-- A reply is written to REPLY_ADDR through tap 5, and its entry's completion waits to be posted (R320, R406, R448). -/
def hostReply (d : Dev) (e : HostRef) (addr cap snapshot : Nat) (data : List Byte) (poison : Bool) : Dev :=
  let data := data.take cap
  let a := (Config.replySource d.freeCtr).toNat
  let check := match d.cvuUnits 5 with | u :: _ => d.cvuValue u a data | [] => 0
  let d := ({ d with freeCtr := d.freeCtr + 1 }).tapPass 5 a data poison
  let d := (d.emit (.hostWrite e.fn addr data poison)).hostBytes e.fn e.tenant false data.length
  let c : Completion := { fn := e.fn, ring := e.ring, tenant := e.tenant, seq := e.seq, epoch := snapshot, check, bytes := data.length,
                          result := fieldAt data 1 1, status := 0, addr }
  { d with host := { d.host with ended := d.host.ended ++ [c] } }

def Request.ref (r : Request) (fn ring : Nat) : HostRef := { fn, ring, seq := r.seq, tenant := r.tenant }

/-- A reply to where its query came from. -/
def sendReply (d : Dev) (r : Request) (snapshot : Nat) (data : List Byte) (poison : Bool) : Dev :=
  match r.origin with
  | .client n => d.sendReliable n tyReply 0 r.tenant data poison
  | .ring fn ring addr cap => d.hostReply (Request.ref r fn ring) addr cap snapshot data poison
  | .gone fn => d.bump (Ctr.fnDiscarded fn)
  | .other => d

/-- A query is refused: a reply with a status, no entries and no records. -/
def refuseQuery (d : Dev) (r : Request) (status : Nat) : Dev :=
  let (d, e) := d.drawEpoch
  d.sendReply r e (replyHeader status 0 0 r.seq e (queryK r.body) 0 0 0 0) false

/-- An operation's completion goes to where the operation came from. -/
def sendOpEnd (d : Dev) (r : Request) (status commit : Nat) : Dev :=
  match r.origin with
  | .client n => d.sendReliable n tyReply 0 r.tenant (opReply status r.seq commit) false
  | .ring fn ring _ _ =>
    let c : Completion := { fn, ring, tenant := r.tenant, seq := r.seq, epoch := commit, check := 0, bytes := 0, result := status, status := 0, addr := 0 }
    { d with host := { d.host with ended := d.host.ended ++ [c] } }
  | .gone fn => d.bump (Ctr.fnDiscarded fn)
  | .other => d

/-- An operation is refused before it has a commit epoch. -/
def refuseOp (d : Dev) (r : Request) (status : Nat) : Dev :=
  let (d, e) := d.drawEpoch
  (d.bump Ctr.idxOpsRefused).sendOpEnd r status e

/-- After a commit cairn the operations that ended there are reported (R346). -/
def sendEnded (d : Dev) : Dev :=
  let es := d.idx.ended
  es.foldl (fun d (r, st, commit) => d.sendOpEnd r st commit) { d with idx := { d.idx with ended := [] } }

/-! ### Arrival (R62, R345) -/

/-- In DRAIN, stage 0 admits nothing (R480). -/
def draining (d : Dev) : Bool := d.rd Reg.glbState = 6

/-- A query or operation of a client, whole: it waits for the cut-off, or is refused. -/
def arriveMessage (d : Dev) (node tenant : Nat) (msg : List Byte) : Dev :=
  let kind := fieldAt msg 0 1
  let r : Request := { tenant, seq := fieldAt msg 8 8, body := msg.drop 16, origin := .client node }
  let head := decide (16 ≤ msg.length) && ((msg.drop 1).take 7).all (· = 0)
  if kind = 2 && head then
    if d.draining then d.refuseOp r ostNotApplied
    else if !opBodyOk r.body then d.refuseOp r ostBadRecord
    else { d with ingress := { d.ingress with arrivingOps := d.ingress.arrivingOps ++ [r] } }
  else if kind = 1 && head && queryOk r.body then
    if d.draining then d.refuseQuery r rsTenantRefused
    else { d with ingress := { d.ingress with arriving := d.ingress.arriving ++ [r] } }
  else d.refuseQuery r rsBadRecord

/-! ### The cut-off (R63, R181, R201, R387, R390) -/

/-- (tenant, client sequence) ascending. -/
def requestBefore (a b : Request) : Bool := decide (a.tenant < b.tenant) || (a.tenant = b.tenant && decide (a.seq < b.seq))

/-- Was a (tenant, sequence) admitted or carried within the last 16 epochs? -/
def wasSeen (d : Dev) (seen : List (Nat × Nat × Nat)) (r : Request) : Bool :=
  seen.any fun (t, q, e) => t = r.tenant && q = r.seq && decide (d.epoch ≤ e + 16)

def mark (d : Dev) (seen : List (Nat × Nat × Nat)) (r : Request) : List (Nat × Nat × Nat) :=
  (seen.filter fun (t, q, e) => !(t = r.tenant && q = r.seq) && decide (d.epoch ≤ e + 16)) ++ [(r.tenant, r.seq, d.epoch)]

/-- INGRESS_DUPLICATE, from the controller through which the query arrived (R535). -/
def sayDuplicate (d : Dev) (r : Request) : Dev :=
  let src := match r.origin with | .client _ => srcFabric | _ => srcHost
  d.raise .ingressDuplicate src [(1, r.tenant), (8, r.seq)]

/-- A query admitted from a host ring is open until its reply is written. -/
def openQuery (d : Dev) (r : Request) : Dev :=
  match r.origin with
  | .ring fn ring addr cap =>
    let q : OpenQuery := { ref := Request.ref r fn ring, addr, cap, snapshot := d.epoch + 2 }
    { d with host := { d.host with queries := d.host.queries ++ [q] } }
  | _ => d

/-- A query is carried to the next epoch, and counted each time that happens (R63; log entry 127). -/
def carryQuery (d : Dev) (r : Request) : Dev :=
  let d := d.bump Ctr.epcIngressCarried
  { d with ingress := { d.ingress with carried := d.ingress.carried ++ [r], seen := d.mark d.ingress.seen r } }

/-- One query at the cut-off; `again` says that it was carried before. `tokens`: the routing map has a member that ranks; `sample`:
the active plan scans the sample. -/
def cutQuery (cap : Nat) (tokens sample : Bool) (acc : Dev × List Request) (q : Request × Bool) : Dev × List Request :=
  let (d, admitted) := acc
  let (r, again) := q
  let t := r.tenant
  if !again && d.wasSeen d.ingress.seen r then ((d.sayDuplicate r).refuseQuery r rsDuplicate, admitted)
  else if d.draining then (d.refuseQuery r rsTenantRefused, admitted)
  else if !d.on (Reg.tenantCfgEnable t) then ((d.bump Ctr.poolTenantRefusals).refuseQuery r rsTenantRefused, admitted)
  else if queryTokens r.body && !(tokens && d.on (Reg.tenantCfgTokensEn t)) then (d.refuseQuery r rsTenantRefused, admitted)
  else if queryExact r.body && (d.val Reg.idxSampleExactCap = 0 || !sample) then (d.refuseQuery r rsNoExact, admitted)
  else if d.val (Reg.tenantCfgQueryCap t) != 0 && decide (d.val (Reg.tenantCfgQueryCap t) ≤ (admitted.filter (·.tenant = t)).length) then
    ((d.bump Ctr.poolTenantCarried).carryQuery r, admitted)
  else if queryExact r.body && decide (d.val Reg.idxSampleExactCap ≤ (admitted.filter fun a => queryExact a.body).length) then (d.carryQuery r, admitted)
  else if cap ≤ admitted.length then (d.carryQuery r, admitted)
  else
    let d := (d.bump Ctr.epcIngressAdmitted).meterTenant t 14 1
    (({ d with ingress := { d.ingress with seen := d.mark d.ingress.seen r } }).openQuery r, admitted ++ [r])

/-- One operation at the cut-off. -/
def cutOp (acc : Dev × Nat) (q : Request × Bool) : Dev × Nat :=
  let (d, n) := acc
  let (r, again) := q
  if !again && d.wasSeen d.ingress.seenOps r then ((d.sayDuplicate r).refuseOp r ostDuplicate, n)
  else if d.draining || !d.on Reg.idxCtrlOpsEn then (d.refuseOp r ostNotApplied, n)
  else if !(d.on (Reg.tenantCfgEnable r.tenant) && d.on (Reg.tenantCfgOpsEn r.tenant)) then (d.refuseOp r ostBadRecord, n)
  else
    let d := { d with ingress := { d.ingress with seenOps := d.mark d.ingress.seenOps r } }
    if d.val Reg.idxOpCap ≤ n then
      ({ d.bump Ctr.idxOpsCarried with ingress := { d.ingress with carriedOps := d.ingress.carriedOps ++ [r] } }, n)
    else
      ({ d.bump Ctr.idxOpsAdmitted with idx := { d.idx with staged := d.idx.staged ++ [⟨r, d.epoch + 2, none, false⟩] } }, n + 1)

/-! ### Batches of token sequences (R104, R105) -/

/-- The token-sequence queries of a cohort in admitted order: QORD and token count. -/
def tokensOf (qs : List Request) : List (Nat × Nat) :=
  (qs.zipIdx.filter fun x => queryTokens x.1.body).map fun x => (x.2, fieldAt x.1.body 28 4)

/-- The groups left, from the one whose batch takes a sequence of `count` tokens behind position `pos` of the first, with the place it
takes; `none` where no batch holds it. -/
def seatIn : List (ModelGroup × Nat) → (pos count : Nat) → Option (List (ModelGroup × Nat) × Nat × Nat)
  | [], _, _ => none
  | (g, i) :: rest, pos, count =>
    if pos + min count g.lmax ≤ g.tb then some ((g, i) :: rest, pos, min count g.lmax) else seatIn rest 0 count

/-- The sequences dealt in order to the batches from position `pos` of the first group on (R105). -/
def dealFrom (groups : List (ModelGroup × Nat)) (pos : Nat) : List (Nat × Nat) → List Seat
  | [] => []
  | (q, count) :: rest =>
    match seatIn groups pos count with
    | some ((g, i) :: gs, start, len) => ⟨q, i, start, len⟩ :: dealFrom ((g, i) :: gs) (start + len) rest
    | _ => []

/-- The batches of a cohort. -/
def dealTokens (groups : List ModelGroup) (tokens : List (Nat × Nat)) : List Seat := dealFrom groups.zipIdx 0 tokens

/-- Sequences longer than the L_max of the model that reads them are counted in the chamber that gathers the batch (R104). -/
def countTruncated (d : Dev) (groups : List ModelGroup) (seats : List Seat) (tokens : List (Nat × Nat)) : Dev :=
  seats.foldl (fun d (x : Seat) => match groups[x.group]?.bind fun g => g.chamber.map fun c => (c, g.lmax) with
    | some (c, lmax) => if lmax < assocD 0 x.qord tokens ∧ chamberOk c = true then d.bump (Ctr.chTokensTruncated c) else d
    | none => d) d

/-- Requests of the cut-off in their order, each with whether it was carried. -/
def sorted (old new : List Request) : List (Request × Bool) :=
  sortBy (fun (a b : Request × Bool) => requestBefore a.1 b.1) (old.map (·, true) ++ new.map (·, false))

end Dev

namespace State

/-- Can a token query be answered under the routing map of the present epoch: has it a RANK or MIXED member? Without a map the
active plan's role decides. -/
def ranks (s : State) : Bool :=
  match s.currentMap with
  | some b => (List.range (mapMembers b)).any fun m => memberRole b m = 1 || memberRole b m = 2
  | none => s.planRole = 1 || s.planRole = 2

/-- The record of an admitted query or operation is written where the plan has it written, with the ingress epoch and the client's node;
for an entry of a host ring this module is the client (R31, R62, R67, R345). -/
def placeRecord (s : State) (queries ops : List Request) (p : IngressPlace) : State :=
  match (if p.op then ops else queries)[p.ord]? with
  | none => s
  | some r =>
    let node := match r.origin with | .client n => n | _ => s.dev.val Reg.fabNodeNodeId
    let b := ingressRecord (if p.op then 2 else 1) s.dev.epoch node r
    if chamberOk p.chamber && decide (p.off + b.length ≤ columnEnd) then s.devWrite (columnBase p.chamber + p.off) b else s

/-- INGRESS_CUTOFF: the cohort of the present epoch is formed (R63, R181), its token sequences are dealt to the plan's model groups (R105),
those longer than their model's L_max are counted (R104), and the records are written to their ingress areas (R67); a monitor step in READY
admits none (R500). -/
def cutoff (s : State) (sample : Bool) (groups : List ModelGroup) (places : List IngressPlace) : State :=
  let d := s.dev
  if !d.flag Reg.epcStatusRunning || d.rd Reg.glbState = 4 || d.epc.slot != some s.cutoffSlot || d.ingress.cutAt = some d.epoch then s else
  let g := d.ingress
  let qs := Dev.sorted g.carried g.arriving
  let os := Dev.sorted g.carriedOps g.arrivingOps
  let d := { d with ingress := { g with arriving := [], arrivingOps := [], carried := [], carriedOps := [], cutAt := some d.epoch },
                    host := { d.host with arrived := d.host.arrived.map fun a => { a with late := true } } }
  let g0 := d.idx.staged.length
  let (d, admitted) := qs.foldl (Dev.cutQuery s.ingressCap s.ranks sample) (d, [])
  let (d, _) := os.foldl Dev.cutOp (d, 0)
  let staged := d.idx.staged
  let ops := ((staged.drop g0).filter (·.commit = d.epoch + 2)).map (·.req)
  let tokens := Dev.tokensOf admitted
  let seats := Dev.dealTokens groups tokens
  let d := d.countTruncated groups seats tokens
  let d := if d.draining then d else { d with ingress := { d.ingress with cohorts := d.ingress.cohorts ++ [⟨d.epoch, admitted, seats⟩] } }
  places.foldl (fun s p => s.placeRecord admitted ops p) { s with dev := d }

/-! ### Answers (R167, R196, R346, R448) -/

/-- A padding entry (R154). -/
def padEntry : List Byte := leBytes 8 0xFFFFFFFFFFFFFFFF ++ leBytes 4 0xFF800000 ++ leBytes 2 4 ++ leBytes 2 0

/-- The reply to one query of a cohort from the list at `l` in a chamber. A cohort that is missing on this module has at least this module's
shards missing (R52; log entry 136); WIDENED is set by a returned entry (R199); an EXACT reply carries neither it nor ESTIMATED (R201). -/
def answerList (s : State) (c : Nat) (cohort : Nat) (l : Loc) : State :=
  let (h, bad) := s.locRead c l 32
  match (s.dev.ingress.cohorts.find? (·.epoch = cohort)).bind fun x => x.queries[fieldAt h 20 2]? with
  | none => s
  | some r =>
    let k := queryK r.body
    let n := min (fieldAt h 0 4) k
    let (recs, bad') := s.locRead c (l.plus 32) (16 * min k (fieldAt h 4 4))
    let recs := recs.take (16 * n) ++ (List.replicate (k - n) padEntry).flatten
    let poison := bad || bad'
    let f := fieldAt h 22 2
    let short := queryFiltered r.body && decide (n < k)
    let exact := queryExact r.body
    let widened := (List.range n).any fun i => bit (fieldAt recs (16 * i + 12) 2) 1
    let missing := max (fieldAt h 24 2) (s.missingShards cohort)
    let flags := boolNat (bit f 2 && !exact) + 2 * boolNat short + 4 * boolNat (widened && !exact) + 8 * boolNat (missing != 0) + 16 * boolNat (bit f 0)
      + 32 * boolNat (bit f 1)
    let data := replyHeader rsAnswered flags n r.seq (cohort + 2) k (fieldAt h 8 4) (fieldAt h 12 4) (fieldAt h 16 4) missing ++ recs
    s.onDev fun d =>
      let d := if exact then d.bump Ctr.idxExactQueries else d
      let d := if short then d.bump Ctr.idxFilterShortReplies else d
      let d := if poison then (d.raise .fltReplyPoisoned Dev.srcLantern [(1, r.tenant), (8, cohort + 2), (8, r.seq)]).bump Ctr.fltPoisonedReplies else d
      let d := { d with host := { d.host with queries := d.host.queries.filter fun q =>
        !(r.origin = Origin.ring q.ref.fn q.ref.ring q.addr q.cap && q.ref.seq = r.seq && q.ref.tenant = r.tenant) } }
      d.sendReply r (cohort + 2) data poison

/-- The replies of a final MERGE, one for each of its output lists. -/
def answers (s : State) (c cohort : Nat) (p : MergeP) : State :=
  (List.range p.qcount).foldl (fun s q => s.answerList c cohort ((locOf c p.outAddr).plus (q * (32 + 16 * p.k)))) s

end State

/-! ### The command -/

/-- INGRESS_CUTOFF; `sample` says whether the active plan holds sample-scan steps. -/
def execIngressCutoff (sample : Bool) (plan : CutoffPlan) (s : State) : Host.Outcome State Fault Refusal :=
  done (s.cutoff sample plan.groups plan.places)

end Sys2Proof.Machine
end

