-- ==== Sys2Proof/Machine/States.lean ====
section
/-! DEFINITION. The device states and the moves between them that the state commands, the rails and the comparators make
(19_start_configuration_identity.md R480 to R482, 17_power_droop_thermal.md R416, R431 to R436, 22_module_electrical_mechanical.md R520 to R526). -/

namespace Sys2Proof.Machine

/-- The STATE codes of R508. -/
def stSleep : Nat := 0
def stBoot : Nat := 1
def stRecovery : Nat := 2
def stTraining : Nat := 3
def stReady : Nat := 4
def stActive : Nat := 5
def stDrain : Nat := 6
def stRetain : Nat := 7

/-- The registers of the always-on block, which keep their contents in every state (R439). -/
def aonKey (k : Nat) : Bool := decide (0x50000 * 64 ≤ k) && decide (k < 0x50040 * 64)

/-- The mode registers of the stacks (R283). -/
def modeKey (k : Nat) : Bool :=
  let off := k / 64
  decide (0x200000 ≤ off) && decide (off < 0x2C0000) && decide (0x4000 ≤ off % 0x10000) && decide (off % 0x10000 < 0x7000)

/-- The rails of a row of R521, by their place in R416; row 7 is the reset release. -/
def railRow (k : Nat) : List Nat := [[10], [9], [8, 6], [1], [0], [2], [3], [], [4], [5], [7]].getD k []

namespace Dev

def inState (d : Dev) (n : Nat) : Bool := d.rd Reg.glbState = n

/-- No monitor step runs and no transition into or out of ACTIVE is in progress: a state command takes effect at once (R480, R501). -/
def commandable (d : Dev) : Bool := d.epc.monStep = 0 && !d.epc.startPending && !d.epc.stopPending

/-- What flash keeps without power. -/
def flashKept (f : Flash) : Flash :=
  { sets := f.sets, logs := f.logs, erases := f.erases, writeSeq := f.writeSeq, journalSeq := f.journalSeq, ckpt := f.ckpt, journal := f.journal,
    ckptEpoch := f.ckptEpoch, pbt := f.pbt, formatted := f.formatted, lbCount := f.lbCount,
    blocks := f.blocks, homeCopy := f.homeCopy }

/-- The block after a loss of every rail but VAON, or as BOOT finds it: every register and counter at its reset value but those
of the always-on domain (R38, R439, R507), and what flash keeps. -/
def cleared (d : Dev) : Dev :=
  { regs := { held := d.regs.held.filter (aonKey ·.1), eff := d.regs.eff.filter (aonKey ·.1) },
    ctr := { live := d.ctr.live.filter (·.1 = Ctr.btBoots), snap := d.ctr.snap.filter (·.1 = Ctr.btBoots) },
    out := d.out, freeCtr := d.freeCtr, fls := flashKept d.fls, aon := { d.aon with vinAt := none } }

/-- AON_RTC counts once the crystal is stable, and AON_TIME_HOLD advances by 30,517.578125 ns a tick from the last copy (R434, R521). -/
def tick (d : Dev) (rtc : Nat) : Dev :=
  let d := if d.aon.crystal && decide (d.rd Reg.aonRtc < rtc) then d.put Reg.aonRtc rtc else d
  d.put Reg.aonTimeHold (d.aon.holdTime + (d.rd Reg.aonRtc - d.aon.holdRtc) * 30517578125 / 1000000)

/-- TIME is copied to the always-on domain (R30, R36). -/
def holdNow (d : Dev) : Dev :=
  ({ d with aon := { d.aon with holdTime := d.now, holdRtc := d.rd Reg.aonRtc } }).put Reg.aonTimeHold d.now

/-- Power-good of rails. -/
def railsOn (d : Dev) (rs : List Nat) : Dev := d.put Reg.pwrRailsGood (rs.foldl (fun n r => setBits n r 1 1) (d.rd Reg.pwrRailsGood))
def railsOff (d : Dev) (rs : List Nat) : Dev := d.put Reg.pwrRailsGood (rs.foldl (fun n r => setBits n r 1 0) (d.rd Reg.pwrRailsGood))

/-- The rails that R416 switches on in BOOT. -/
def bootRails : List Nat := [10, 9, 8, 6, 1, 0, 2, 3]

/-- A state command or transition that R480 does not permit, or a reserved code (R481). -/
def refuseState (d : Dev) (cmd : Nat) : Dev :=
  let state := d.rd Reg.glbState
  ((d.putFlag Reg.btStatusStateRefused true).bump Ctr.btStateRefusals).raise .bootStateRefused srcLantern [(1, state), (1, cmd)]

/-- Every port is DOWN with its PHY off (R354). -/
def allPortsDown (d : Dev) : Dev := (List.range 8).foldl (fun d p => d.portDown p) d

/-- Self-tests of the check-value units and chamber checkers (R322): the units' bits, and one record for each that fails, with its POLY; a chamber checker's
makes the module withdraw (R447). -/
def selfTest (d : Dev) (t : Training) : Dev :=
  let d := { d with cvu := { d.cvu with checkers := (t.checkers.map fun (x : Nat × Nat) => x.1).eraseDups } }
  let d := d.put Reg.cvuSelftestFail (t.units.foldl (fun n (x : Nat × Nat) => setBits n x.1 1 1) 0)
  let d := t.units.foldl (fun d (x : Nat × Nat) => d.raise .cvuSelftestFail srcLantern [(1, x.1), (1, x.2)]) d
  t.checkers.foldl (fun d (x : Nat × Nat) => d.raise .cvuSelftestFail (srcGallery x.1) [(1, x.1), (1, x.2)] false (some .withdraw)) d

/-- Sequence state, pipeline and messages end with the epochs of this stay in READY, ACTIVE and DRAIN. -/
def dropWork (d : Dev) : Dev :=
  let cs := (d.seq.sump.map (·.chamber) ++ d.seq.inflight.map (·.chamber)).eraseDups
  let d := { d with seq := {} }
  let d := cs.foldl (fun d c => ((d.sumpDepths c).putFlag (Reg.ldeStatusBusy c) false).putFlag (Reg.selStatusBusy c) false) d
  { d with ingress := { seen := d.ingress.seen, seenOps := d.ingress.seenOps }, rows := { d.rows with splits := [], inbox := [], noReply := [] },
           pim := { maxTemp := d.pim.maxTemp, halted := d.pim.halted, reissue := d.pim.reissue }, spdm := { d.spdm with sessions := [] } }

end Dev

namespace State

/-- The volatile memories lose their contents: strata and stacks, chamber stores, LUT stores, vector registers and plan header windows. -/
def loseMemory (s : State) : State := s.onMem fun m => ((((m.clear .dram).clear .store).clear .lut).clear .vreg).clear .hdr

/-- Lantern lays the home table out where the pair in effect puts it (R252, R255): the records `old` that it held, those of flash homes that it had no
place for, and EMPTY ones; a sound record that stands there already stays. Its bytes are charged to the system account in the strata. -/
def layTable (s : State) (old : List HomeRec) : State :=
  let count := s.dev.val Reg.homeCount
  let s := (List.range count).foldl (fun s n =>
    match old.find? (·.datum = n), s.dev.fls.homeCopy.find? (·.1 = n) with
    | some r, _ => s.homePut r
    | none, some (_, b) =>
      let r := homeParse b
      (s.homePut r).onDev fun d => d.setUsed (ownerOf r) 2 (d.usedOf (ownerOf r) 2 + d.chargeOf 2 r.length)
    | none, none => if (s.homeGet n).isSome then s else s.homePut (emptyHome n)) s
  s.onDev fun d => ({ d with tier := { d.tier with table := 64 * count } }).setUsed 64 0 (d.usedOf 64 0 - d.tier.table + 64 * count)

/-- A datum whose logical blocks include one of an OFFLINE channel (R288). -/
def onOffline (s : State) (r : HomeRec) : Bool :=
  r.tier = 2 && r.state != hsEmpty && (List.range (s.extent 2 r.home r.length).2).any fun i => s.offline (chanOf (r.home + i))

/-- The data on offline channels are lost (R253, R288). -/
def loseOffline (s : State) : State :=
  let s := s.tellBad
  (s.homes.filter s.onOffline).foldl (fun s r => s.loseHome r) s

/-- The home of a weight block that was lost with the strata or the stacks is allocated again, marked reloading until it is restored (R121). -/
def allotBlock (s : State) (b : WeightBlock) : State :=
  match s.homeGet b.datum with
  | some r =>
    if b.tier = 2 || r.state != hsEmpty || decide (s.dev.val Reg.homeCount ≤ b.datum) then s else
    let r := { emptyHome b.datum with owner := b.owner, state := hsHome, tier := b.tier, home := b.home, length := b.length, referrer := b.referrer }
    (s.setHome r).onDev fun d => { d.setUsed (ownerOf r) b.tier (d.usedOf (ownerOf r) b.tier + d.chargeOf b.tier b.length) with
      cvu := { d.cvu with reloading := if d.cvu.reloading.contains b.base then d.cvu.reloading else d.cvu.reloading ++ [b.base] } }
  | none => s

/-- Lantern rebuilds the home table from the flash copy, once a table exists in READY (R253): every flash home is HOME again and charged, or lost with
its channel, and the weight blocks wait for their reload copies. -/
def restoreHomes (s : State) : State :=
  if !s.dev.fls.homesDue || !s.homesReady then s else
  let s := s.layTable []
  let s := (s.dev.fls.blocks.foldl allotBlock s).loseOffline
  s.onDev fun d => { d with fls := { d.fls with homesDue := false } }

/-- The moves under way are abandoned and their destinations freed, before a state without epochs (R244). -/
def endMoves (s : State) : State := s.abandonMoves.freeAbandoned

/-- Every rail but VAON is removed and the module is in SLEEP, with its cause (R431, R436, R441, R480). -/
def powerOff (s : State) (cause : Nat) : State :=
  (s.endMoves.loseMemory).onDev fun d =>
    let d := ((d.cleared.put Reg.glbState (d.rd Reg.glbState)).enterState stSleep).put Reg.aonStatusSleepCause cause
    ({ d with aon := { d.aon with seq := none } }).railsOn [10]

/-- SLEEP commanded: from READY with a checkpoint of the flash map (R312, R480). -/
def orderlySleep (s : State) : State :=
  let s := if s.dev.inState stReady then s.endMoves.checkpoint else s
  s.powerOff 1

/-- BOOT entered anew (R480): strata and stack contents are lost; a monitor boot keeps the staged image, which `mon` then describes. -/
def reboot (s : State) (fromStaging : Bool) : State :=
  let old := s.dev.rd Reg.glbState
  let image := if fromStaging then s.staged 0 s.dev.mon.staged else []
  let mon : Monitor := if fromStaging then { staged := s.dev.mon.staged } else {}
  (s.endMoves.loseMemory.stage 0 image).onDev fun d =>
    let keep (e : Dev) : Dev := { e with mon }
    keep (((((d.cleared.put Reg.glbState old).enterState stBoot).putFlag Reg.btStatusFromStaging fromStaging).put Reg.epcTime d.now).put Reg.pwrRailsGood (d.rd Reg.pwrRailsGood))

/-- Chamber stores, registers, LUT stores and directories are written to zero (R97, R133). -/
def clearStores (s : State) : State :=
  (s.onMem fun m => ((m.clear .store).clear .lut).clear .vreg).onDev fun d =>
    (List.range 256).foldl (fun d c => (d.put (Reg.ldeTables c) 0).put (Reg.ldeScalesId c) 0) { d with lutDir := [] }

/-- READY to RETAIN (R480): moves are abandoned, seals fall back, ports go down, and what the chambers hold is lost (R97, R133, R244, R281, R312, R354). -/
def retain (s : State) : State :=
  let s := s.finishRuns.endMoves.clearStores
  s.onDev fun d =>
    let d := d.pauseSeals.dropWork.allPortsDown
    let d := (List.range 12).foldl (fun d st => (d.pimShow st).putFlag (Reg.stkStatusTrained st) false) d
    let d := (List.range 32).foldl (fun d c => d.putFlag (Reg.chStatusTrained c) false) d
    ((d.putFlag Reg.flsStatusReady false).enterState stRetain).railsOff [0, 4, 5, 7]

/-- Entry to TRAINING: the last rails come up row by row, the self-tests run, and the enabled ports train (R322, R354, R521). -/
def enterTraining (s : State) (t : Training) (resumed : Bool) : State :=
  s.onDev fun d =>
    let d := (d.enterState stTraining).selfTest t
    let d := { d with boot := { d.boot with resumed }, aon := { d.aon with seq := some 8 } }
    (List.range 8).foldl (fun d p => d.portTrain p) d

/-- A channel's training (R288): its rate, or OFFLINE with its reason (0 geometry, 1 rate; log entry 19). -/
def trainChannel (s : State) (ch result : Nat) : State :=
  s.onDev fun d =>
    if result < 4 then ((d.putFlag (Reg.chStatusTrained ch) true).putFlag (Reg.chStatusOffline ch) false).put (Reg.chStatusRate ch) result
    else
      ((((d.putFlag (Reg.chStatusTrained ch) false).putFlag (Reg.chStatusOffline ch) true).putFlag Reg.flsStatusOffline true).raise .flashTrainFail Dev.srcFlash
        [(1, ch), (1, if result = 5 then 0 else 1)])

/-- The training of every channel; the data on an offline channel are lost (R253, R288). -/
def trainChannels (s : State) (t : Training) : State :=
  let s := s.onDev (·.putFlag Reg.flsStatusOffline false)
  ((List.range 32).foldl (fun s ch => s.trainChannel ch (t.channels.getD ch 0)) s).loseOffline

/-- The end of TRAINING (R480): stores cleared, homes restored, and INELIGIBLE as R482 says. -/
def enterReady (s : State) (failed : List Nat) : State :=
  let s := s.clearStores
  let s := s.onDev fun d =>
    let d := (List.range 12).foldl (fun d st => d.putFlag (Reg.stkStatusTrained st) (!failed.contains st)) d
    let d := if d.boot.resumed then d else
      { d with homeMap := [], regs := { d.regs with held := d.regs.held.filter (!modeKey ·.1), eff := d.regs.eff.filter (!modeKey ·.1) } }
    let bad := failed != [] || (List.range 32).any (fun c => d.flag (Reg.chStatusOffline c))
      || decide (2 < ((List.range 8).filter fun p => d.rd (Reg.portStatusState p) = 4).length) || d.cvu.checkers != []
    ((d.putFlag Reg.btStatusIneligible bad).enterState stReady).resetFabric
  s.restoreHomes

/-- Have every channel and every enabled port finished training (R480)? -/
def trained (s : State) : Bool :=
  s.dev.flag Reg.flsStatusReady
    && (List.range 32).all (fun c => s.dev.flag (Reg.chStatusTrained c) || s.dev.flag (Reg.chStatusOffline c))
    && (List.range 8).all fun p => !bit (s.dev.rd Reg.fabCtrlPortEn) p || s.dev.rd (Reg.portStatusState p) = 3 || s.dev.rd (Reg.portStatusState p) = 4

/-- TRAINING_TIMEOUT: what is untrained counts as failed (R480). -/
def trainingExpired (s : State) (failed : List Nat) : State :=
  let chans := (List.range 32).filter fun c => !s.dev.flag (Reg.chStatusTrained c) && !s.dev.flag (Reg.chStatusOffline c)
  let ports := (List.range 8).filter fun p => bit (s.dev.rd Reg.fabCtrlPortEn) p && s.dev.rd (Reg.portStatusState p) != 3 && s.dev.rd (Reg.portStatusState p) != 4
  let s := (chans.foldl (fun s c => s.trainChannel c 4) s).loseOffline
  let s := s.onDev fun d =>
    let d := ports.foldl (fun d p => d.put (Reg.portStatusState p) 4) d
    d.raise .bootTrainTimeout Dev.srcLantern [(4, failed.length + chans.length + ports.length)]
  s.enterReady failed

/-- The state commands of R480 and R481, by code; `t` is what a RESUME's training meets, `lost` the data whose range failed retention (R253). -/
def stateCommand (s : State) (code : Nat) (t : Training) (lost : List Nat) : State :=
  let st := s.dev.rd Reg.glbState
  if code = 0 ∨ st = stSleep then s
  else if code = 1 ∧ st = stActive then s.onDev (·.enterState stDrain)
  else if code = 2 ∧ st = stReady ∧ !s.dev.running then s.retain
  else if code = 3 ∧ st = stRetain then
    let s := (s.onDev (·.railsOn [0])).enterTraining t true
    let s := (s.trainChannels t).onDev (·.putFlag Reg.flsStatusReady true)
    let s := s.tellBad
    (s.homes.filter fun r => lost.contains r.datum && r.state != hsEmpty).foldl (fun s r => s.loseHome r) s
  else if code = 4 ∧ (st = stReady ∨ st = stRetain ∨ st = stRecovery) ∧ !s.dev.running then s.orderlySleep
  else if code = 5 then s.reboot false
  else s.onDev (·.refuseState code)

/-- A write of BT_STATE_CMD, held back while a monitor step runs (R501) or a transition into or out of ACTIVE is in progress (R480). -/
def stateWrite (s : State) (code : Nat) (t : Training) (lost : List Nat) : State :=
  if !s.dev.commandable then s.onDev fun d => { d with epc := { d.epc with heldWrites := d.epc.heldWrites ++ [(1, code)] } }
  else s.stateCommand code t lost

/-- A power-good missed or lost, or REFCLK lost: the cause in the always-on domain, with the rail (R441, R522, R523). -/
def railFault (s : State) (rail : Nat) : State :=
  (s.powerOff 6).onDev fun d => { d with aon := { d.aon with rail := some rail } }

end State

/-! ### The always-on domain (R434 to R436, R520 to R526) -/

namespace Dev

/-- The live state of a comparator: 0 VIN, 1 TEMP, 2 AUX. -/
def tripped (d : Dev) (k : Nat) : Bool := bit (d.rd Reg.aonStatusTripped) k
def setTripped (d : Dev) (k : Nat) (b : Bool) : Dev := d.put Reg.aonStatusTripped (setBits (d.rd Reg.aonStatusTripped) k 1 (boolNat b))

/-- A wake from SLEEP by the source of a WAKE bit, unless a comparator is still tripped: the rail sequence runs from its row of 1 ms (R436, R521, R526). -/
def wake (d : Dev) (source cause rtc : Nat) : Dev :=
  let d := d.tick rtc
  if d.inState stSleep && d.aon.up && d.aon.seq.isNone && bit (d.rd Reg.aonCtrlWake) source && d.rd Reg.aonStatusTripped = 0 then
    ({ d with aon := { d.aon with seq := some 1 } }).put Reg.aonStatusWakeCause cause
  else d

/-- INPUT_VALID (R520 to R522): the sequence starts when input power is applied, and again after a VIN stop. -/
def inputValid (d : Dev) : Dev :=
  if d.inState stSleep && d.aon.seq.isNone && (!d.aon.up || d.rd Reg.aonStatusSleepCause = 2) then
    ({ d with aon := { d.aon with seq := some (if d.aon.up then 1 else 0) } }).put Reg.aonStatusWakeCause 0
  else d

/-- RAIL_SEQUENCE_STEP (R521): the rails of the next row come up. -/
def railStep (d : Dev) : Dev :=
  match d.aon.seq with
  | some k =>
    if k = 7 ∨ (7 < k ∧ !d.inState stTraining) then d else
    ({ d with aon := { d.aon with up := true, seq := if k = 10 then none else some (k + 1) } }).railsOn (railRow k)
  | none => d

end Dev

namespace State

/-- AON_CMP_VIN_TRIP at `vin` mV (R435, R436, R522). -/
def vinTrip (s : State) (vin t : Nat) : State :=
  let s := s.onDev (·.setTripped 0 true)
  if s.dev.inState stSleep then
    if s.dev.aon.seq.isSome then s.powerOff 2 else s
  else if s.dev.aon.vinAt.isSome then s
  else s.onDev fun d =>
    let d := d.clock t
    let d := { d with aon := { d.aon with vinAt := some d.now }, power := { d.power with g := 63, below := 0 } }
    ((d.put Reg.pwrGateG 63).putFlag Reg.pwrStatusCapping true).raise .pwrVinLow Dev.srcPower [(2, vin), (4, 0)]

/-- A trip of comparator 1 or 2 (R436): SLEEP when its TRIP bit is set, else PWR_AUX_EVENT with the comparator and the level. -/
def auxTrip (s : State) (k level : Nat) : State :=
  let s := s.onDev (·.setTripped k true)
  let acts := s.dev.flag (if k = 1 then Reg.aonCtrlTripTemp else Reg.aonCtrlTripAux)
  if s.dev.inState stSleep && s.dev.aon.seq.isNone then s
  else if acts then s.powerOff (k + 2)
  else if s.dev.inState stSleep then s
  else s.onDev (·.raise .pwrAuxEvent Dev.srcPower [(1, k), (2, level)])

/-- VAON fails below 30 V (R520): the always-on domain, BOOTS and everything else but the NAND and the NOR are lost. -/
def vaonFail (s : State) : State :=
  (s.endMoves.loseMemory).onDev fun d =>
    let e : Dev := { out := d.out, freeCtr := d.freeCtr, fls := Dev.flashKept d.fls, aon := { up := false } }
    e.put Reg.glbState stSleep

end State

/-! ### The commands -/

/-- INPUT_VALID. -/
def execInputValid (s : State) : Host.Outcome State Fault Refusal := devOnly s (·.inputValid)

/-- RAIL_SEQUENCE_STEP. -/
def execRailSequenceStep (s : State) : Host.Outcome State Fault Refusal := devOnly s (·.railStep)

/-- RAIL_POWER_GOOD_MISS of a rail of the row that runs. -/
def execRailPowerGoodMiss (rail : Nat) (s : State) : Host.Outcome State Fault Refusal :=
  done (if s.dev.aon.seq.isSome then s.railFault rail else s)

/-- RAIL_POWER_GOOD_LOSS of a rail outside an operating-point step (R441). -/
def execRailPowerGoodLoss (rail : Nat) (s : State) : Host.Outcome State Fault Refusal :=
  done (if s.dev.inState stSleep || s.dev.flag Reg.pwrStatusStepping then s else s.railFault rail)

/-- REFCLK_LOSS: the rail item of the later record is 0xFF (R523). -/
def execRefclkLoss (s : State) : Host.Outcome State Fault Refusal :=
  done (if s.dev.inState stSleep then s else s.railFault 0xFF)

/-- VAON_FAIL. -/
def execVaonFail (s : State) : Host.Outcome State Fault Refusal := done s.vaonFail

/-- CRYSTAL_STABLE: AON_RTC counts from now on. -/
def execCrystalStable (s : State) : Host.Outcome State Fault Refusal :=
  devOnly s fun d => if d.aon.up then { d with aon := { d.aon with crystal := true, holdRtc := d.rd Reg.aonRtc } } else d

/-- WAKE_N_WAKE; `perst` says that PERST_N rose in the same sample, in which case WAKE_CAUSE records PCIe (R526). -/
def execWakeNWake (perst : Bool) (rtc : Nat) (s : State) : Host.Outcome State Fault Refusal :=
  devOnly s fun d => d.wake 4 (if perst && bit (d.rd Reg.aonCtrlWake) 3 then 4 else 5) rtc

/-- PERST_N_WAKE. -/
def execPerstNWake (rtc : Nat) (s : State) : Host.Outcome State Fault Refusal := devOnly s (·.wake 3 4 rtc)

/-- COMPARATOR_WAKE: comparator `k` releases in SLEEP. -/
def execComparatorWake (k rtc : Nat) (s : State) : Host.Outcome State Fault Refusal :=
  devOnly s fun d => if k < 3 ∧ d.inState stSleep then (d.setTripped k false).wake k (k + 1) rtc else d

/-- COMPARATOR_RELEASE: comparator `k` releases outside SLEEP; VIN within 50 µs lets the module carry on (R435, R436). -/
def execComparatorRelease (k t : Nat) (s : State) : Host.Outcome State Fault Refusal :=
  devOnly s fun d =>
    if d.inState stSleep ∨ 3 ≤ k then d else
    let d := (d.clock t).setTripped k false
    if k = 0 then { d with aon := { d.aon with vinAt := none } } else d

/-- AON_CMP_VIN_TRIP. -/
def execAonCmpVinTrip (vin t : Nat) (s : State) : Host.Outcome State Fault Refusal := done (s.vinTrip vin t)

/-- VIN_RECOVERY_TIMEOUT: the input has not recovered within 50 µs of the trip. -/
def execVinRecoveryTimeout (s : State) : Host.Outcome State Fault Refusal := done (if s.dev.aon.vinAt.isSome then s.powerOff 2 else s)

/-- AON_CMP_TEMP_TRIP at a temperature in °C. -/
def execAonCmpTempTrip (temp : Nat) (s : State) : Host.Outcome State Fault Refusal := done (s.auxTrip 1 temp)

/-- AON_CMP_AUX_TRIP at a level in mV. -/
def execAonCmpAuxTrip (level : Nat) (s : State) : Host.Outcome State Fault Refusal := done (s.auxTrip 2 level)

/-- DRAIN_COMPLETE: no cohort is left, so the generator stops at the next boundary and READY follows (R35, R480). -/
def execDrainComplete (s : State) : Host.Outcome State Fault Refusal :=
  devOnly s fun d =>
    if d.inState stDrain && d.ingress.cohorts = [] then
      (({ d with epc := { d.epc with stopPending := true } }).put Reg.epcCtrlEnable 0).putFlag Reg.glbStateChanging true
    else d

/-- DRAIN. -/
def execDrainCmd (s : State) : Host.Outcome State Fault Refusal := done (s.stateWrite 1 ⟨[], [], []⟩ [])

/-- RETAIN. -/
def execRetainCmd (s : State) : Host.Outcome State Fault Refusal := done (s.stateWrite 2 ⟨[], [], []⟩ [])

/-- RESUME, with what its training meets and the data whose ranges failed retention. -/
def execResumeCmd (t : Training) (lost : List Nat) (s : State) : Host.Outcome State Fault Refusal := done (s.stateWrite 3 t lost)

/-- SLEEP. -/
def execSleepCmd (s : State) : Host.Outcome State Fault Refusal := done (s.stateWrite 4 ⟨[], [], []⟩ [])

/-- RESET. -/
def execResetCmd (s : State) : Host.Outcome State Fault Refusal := done (s.stateWrite 5 ⟨[], [], []⟩ [])

end Sys2Proof.Machine
end

