-- ==== Sys2Proof/Machine/Power.lean ====
section
/-! DEFINITION. Power, droop and thermal control: the gate level, filler and ramps, operating points, clock stretch and the
thermal groups (17_power_droop_thermal.md R416 to R433). Powers are exact, in units of 10⁻⁵ W: mV times 0.01 A. -/

namespace Sys2Proof.Machine

def Filler.total (f : Filler) : Nat := f.scrub + f.flow + f.dummy

namespace Dev

/-- The states in which the cap applies (R424). -/
def capApplies (d : Dev) : Bool := d.inState stReady || d.inState stActive || d.inState stDrain

/-- CAP_W in units of 10⁻⁵ W. -/
def capPower (d : Dev) : Nat := 100000 * d.val Reg.pwrCapCapW

/-- `gate_update` of R424. -/
def gateUpdate (q : Power) (p cap : Nat) : Power :=
  if cap < p then { q with g := min 63 (q.g + max 1 (ceilDiv (64 * (p - cap)) cap)), below := 0 }
  else if 64 * p ≤ 63 * cap then
    if q.below + 1 = 8 then { q with g := q.g - 1, below := 0 } else { q with below := q.below + 1 }
  else { q with below := 0 }

/-- Filler is withdrawn from `n` chambers: dummy MACs first, scrub last (the reverse of R427's preference). -/
def lessFiller (f : Filler) (n : Nat) : Filler :=
  let a := min n f.dummy
  let b := min (n - a) f.flow
  { dummy := f.dummy - a, flow := f.flow - b, scrub := f.scrub - (n - a - b) }

/-- Filler is added in `n` chambers in the preference of R427, each kind only when allowed and where it can run. -/
def moreFiller (f : Filler) (n kinds : Nat) (i : PowerIn) (warm : Bool) : Filler :=
  let a := if bit kinds 0 then min n (i.scrub - f.scrub) else 0
  let b := if bit kinds 1 then min (n - a) (i.flow - f.flow) else 0
  let c := if bit kinds 2 && !warm then min (n - a - b) (i.dummy - f.dummy) else 0
  { scrub := f.scrub + a, flow := f.flow + b, dummy := f.dummy + c }

/-- The notes that cover the running slot (R58). -/
def notesNow (d : Dev) : List NoteInForce :=
  match d.epc.slot with
  | some m => d.seq.notes.filter fun n => decide (n.first ≤ m) && decide (m < n.first + n.span)
  | none => []

/-- While no epochs run, the samples of each epoch length in force count as those of an epoch do, so that the mean is that of the last 8 × L (R428). -/
def idleMean (d : Dev) (t : Nat) : Dev :=
  if d.running || decide (t < d.power.iFrom + 10000 * d.val Reg.epcLenLength) then d
  else { d with power := { d.power with iPast := ((d.power.iSum, d.power.iN) :: d.power.iPast).take 8, iSum := 0, iN := 0, iFrom := t } }

/-- Is plan work being done: has a step in flight issued in a slot of this epoch (R428)? -/
def planWork (d : Dev) : Bool := d.epc.slot.isSome && d.seq.inflight.any fun f => f.issued && !f.executed

/-- Mean input current of the last 8 complete epochs as (sum, samples) (R428). -/
def meanInput (d : Dev) : Nat × Nat :=
  d.power.iPast.foldl (fun (s, n) (x, k) => (s + x, n + k)) (0, 0)

/-- The current a ramp asks for at `t`, in 0.01 A (R430). -/
def rampAt (r : Ramp) (t : Nat) : Nat :=
  let dt := min r.len (t - r.start)
  if r.len = 0 then r.to' else (r.from' * (r.len - dt) + r.to' * dt) / r.len

/-- What filler is to reach at a sample: the current in 0.01 A and the kinds allowed; `none` where no filler may run (R427, R428, R430). The idle
gap of R60, after the last slot, is taken as the cairn window is where no note covers that slot (log entry 129). -/
def fillerAim (d : Dev) (t : Nat) : Option (Nat × Nat) :=
  let (sum, n) := d.meanInput
  let floor (f : Nat) : Nat := f * sum / (100 * max 1 n)
  match d.power.ramp with
  | some r => some (rampAt r t, d.val Reg.pwrFillerKinds)
  | none =>
    if !d.running then none
    else
      let off := t - d.rd Reg.epcBoundary
      let window := some (floor (d.val Reg.pwrFillerFloorPct), d.val Reg.pwrFillerKinds)
      if 2000 ≤ off ∧ off < 9500 then window
      else match d.notesNow with
        | [] => if 10000 * d.val Reg.epcLenLength ≤ off + 2000 * d.epc.removed then window else none
        | ns => some (floor (ns.foldl (fun m n => max m n.currentPct) 0), ns.foldl (fun k n => k ||| n.kinds) 0)

/-- FILLER_ADJUST (R427 to R429). -/
def fillerAdjust (d : Dev) (i : PowerIn) (p : Nat) : Dev :=
  let set (d : Dev) (f : Filler) : Dev := { d with power := { d.power with filler := f } }
  let f := d.power.filler
  let warm := d.power.warm != []
  let f := if warm then { f with dummy := f.dummy - min i.room f.dummy } else f
  match (if d.on Reg.pwrCtrlFillerEn then d.fillerAim i.t else none) with
  | none => set d (lessFiller f i.room)
  | some (want, kinds) =>
    let cap := d.capPower - d.capPower / 64
    let want := if d.capApplies then min want (cap / max 1 i.vin) else want
    if i.iin < want then
      if d.capApplies && decide (cap < p) then set d f
      else
        let g := moreFiller f i.room kinds i warm
        let d := set d g
        if g.total = f.total && decide (0 < i.room) then d.bump Ctr.pwrFloorMisses else d
    else if want < i.iin && (d.power.ramp.isSome || d.planWork) then set d (lessFiller f i.room)
    else set d f

/-- STEP_REQUEST (R426): a sustained gate level or a warning sets STEP_REQ, which the next heartbeat carries (R452). -/
def stepRequest (d : Dev) : Dev :=
  if !d.on Reg.pwrCtrlStepReqEn || d.flag Reg.pwrStatusStepReq then d else
  let n := d.val Reg.pwrStepreqReqEpochs
  let past := d.power.gPast.take n
  let sum := (past.map (·.1)).sum
  let k := (past.map (·.2)).sum
  let gate := decide (n ≤ past.length) && decide (1 ≤ k) && decide (d.val Reg.pwrStepreqReqG * k ≤ sum)
  let d := if gate || d.power.warm != [] then (d.putFlag Reg.pwrStatusStepReq true).bump Ctr.pwrStepRequests else d
  let d := if gate then d.raise .pwrCapSustained srcPower [(1, sum / max 1 k), (2, d.val Reg.pwrCapCapW), (8, d.epoch)] else d
  match d.power.warm with
  | [] => d
  | (group, sensor, t) :: _ => d.raise .pwrThermalWarn srcPower [(1, group), (1, sensor), (1, ofSigned 8 t)]

/-- The gate applied is the highest of the levels in force (R424). -/
def applyGate (d : Dev) : Dev :=
  let g := max d.power.g d.power.thermal
  let d := (d.put Reg.pwrGateG g).putFlag Reg.pwrStatusCapping (g != 0)
  if g = 0 then d else { d with power := { d.power with capped := true } }

/-- A ramp that the cap or a thermal rule interrupts continues from the current reached (R430). -/
def reramp (d : Dev) (i : PowerIn) : Dev :=
  match d.power.ramp with
  | some r =>
    let till' := r.start + r.len
    { d with power := { d.power with ramp := some { r with from' := i.iin, start := i.t, len := till' - i.t } } }
  | none => d

/-- A ramp down that is over leaves no filler; a ramp up holds its target until the first boundary. -/
def rampEnd (d : Dev) (t : Nat) : Dev :=
  match d.power.ramp with
  | some r => if r.down && decide (r.start + r.len ≤ t) then { d with power := { d.power with ramp := none } } else d
  | none => d

/-- The gate levels of a sample: overcurrent, a VIN trip, filler before bubbles, or R424 (R424, R425, R429). -/
def gateSample (d : Dev) (i : PowerIn) (p : Nat) : Dev :=
  let cap := d.capPower
  if 3900 < i.iin then
    let d := { d.reramp i with power := { (d.reramp i).power with g := 63, below := 0, filler := {} } }
    ((d.putFlag Reg.pwrStatusOvercurrent true).bump Ctr.pwrOvercurrentEvents).raise .pwrOvercurrent srcPower [(2, i.iin), (2, i.vin), (8, d.epoch)]
  else if d.aon.vinAt.isSome then { d with power := { d.power with g := 63, below := 0 } }
  else if d.capApplies && decide (cap < p) && decide (0 < d.power.filler.total) then
    let d := d.reramp i
    { d with power := { d.power with filler := lessFiller d.power.filler i.room, below := 0 } }
  else { d with power := gateUpdate d.power (if d.capApplies then p else 0) cap }

/-- Plan work that raises the current faster than SLOPE with no filler left costs one level (R428). -/
def slopeSample (d : Dev) (i : PowerIn) : Dev :=
  if d.running && d.power.iLast + 10 * d.val Reg.pwrFillerSlope < i.iin && d.power.filler.total = 0 && decide (i.iin ≤ 3900) then
    { (d.bump Ctr.pwrSlopeLimited) with power := { d.power with g := min 63 (d.power.g + 1), below := 0 } }
  else d

/-- The input registers, the energy and the sums of a sample (R417, R437). -/
def inputSample (d : Dev) (i : PowerIn) (p : Nat) : Dev :=
  let d := (((((d.clock i.t)).idleMean i.t).put Reg.pwrInputVinMv i.vin).put Reg.pwrInputIinCa i.iin).put Reg.pwrPowerPinDw (p / 10000)
  let e := d.power.energy + p
  let d := (d.bump Ctr.pwrEnergyMj (e / 100000000)).bump Ctr.pwrGatedCycles i.gated
  { d with power := { d.power with energy := e % 100000000, iSum := d.power.iSum + i.iin, iN := d.power.iN + 1 } }

/-- POWER_SAMPLE (R417). -/
def powerSample (d : Dev) (i : PowerIn) : Dev :=
  if d.inState stSleep then d else
  let p := i.vin * i.iin
  let d := ((d.inputSample i p).gateSample i p).slopeSample i
  let d := if 3900 < i.iin ∨ (d.capApplies && decide (d.capPower < p)) = true then d else (d.rampEnd i.t).fillerAdjust i p
  let d := d.applyGate
  let d := ((d.bump Ctr.pwrFillerScrubUs d.power.filler.scrub).bump Ctr.pwrFillerFlowUs d.power.filler.flow).bump Ctr.pwrFillerDummyUs d.power.filler.dummy
  { d with power := { d.power with gSum := d.power.gSum + d.rd Reg.pwrGateG, gN := d.power.gN + 1, iLast := i.iin } }.stepRequest

/-! ### Thermal control (R431, R432) -/

/-- The hottest sensor of a group that is not excluded, as (sensor, temperature). -/
def hottest (d : Dev) (group : Nat) (ts : List Int) : Option (Nat × Int) :=
  (ts.zipIdx.filter fun (_, i) => !d.power.excluded.contains (group, i)).foldl (fun (best : Option (Nat × Int)) (x : Int × Nat) =>
    match best with
    | some (_, t) => if t < x.1 then some (x.2, x.1) else best
    | none => some (x.2, x.1)) none

/-- The temperatures of the 192 stack dies (R276). -/
def dieTemps (d : Dev) : List Int := (List.range 192).map fun k => dieTemp d (k / 16) (k % 16)

/-- PWR_SENSOR_FAIL: a sensor out of range or stuck is excluded (R431). -/
def excludeSensors (d : Dev) (group : Nat) (ts : List Int) (stuck : List (Nat × Nat)) : Dev :=
  let bad := (ts.zipIdx.filter fun (t, i) => decide (t < -40) || decide (150 < t) || stuck.contains (group, i)).map (·.2)
  (bad.filter fun i => !d.power.excluded.contains (group, i)).foldl (fun d i =>
    { (d.raise .pwrSensorFail srcPower [(1, group), (1, i)]) with power := { d.power with excluded := d.power.excluded ++ [(group, i)] } }) d

/-- Four signed temperatures in a register. -/
def tempWord (ts : List Int) (i : Nat) : Nat := leNat ((List.range 4).map fun j => BitVec.ofNat 8 (ofSigned 8 (ts.getD (4 * i + j) 0)))

/-- The temperature registers (R437). -/
def showTemps (d : Dev) (j s r : List Int) : Dev :=
  let d := (List.range 8).foldl (fun d i => d.put (Reg.pwrTempJ i) (tempWord j i)) d
  let d := (List.range 4).foldl (fun d i => d.put (Reg.pwrTempS i) (tempWord s i)) d
  let top (g : Nat) (ts : List Int) : Int := ((d.hottest g ts).map (·.2)).getD 0
  let d := d.put Reg.pwrTempMax (tempWord [top 0 j, top 1 s, top 2 d.dieTemps, top 3 r] 0)
  { d with power := { d.power with regulators := r } }

/-- The warnings in force: a junction warning holds until every sensor reads below TJ_RESUME. -/
def warnings (d : Dev) (j s r : List Int) : List (Nat × Nat × Int) :=
  let one (g : Nat) (ts : List Int) (hot : Int → Bool) (limit : Int) : List (Nat × Nat × Int) :=
    match d.hottest g ts with
    | some (i, t) => if hot t then [(g, i, t)] else []
    | none => [(g, 0xFF, limit)]
  let held := d.power.warm.any (·.1 = 0)
  let tj := if held then d.val Reg.pwrThermalTjResume else d.val Reg.pwrThermalTjWarn
  let dies := (List.range 192).filter fun k =>
    !d.power.excluded.contains (2, k) && decide ((d.val (Reg.stkThermalHaltC (k / 16)) : Int) < dieTemp d (k / 16) (k % 16))
  one 0 j (fun t => decide ((tj : Int) ≤ t)) 105 ++ one 1 s (fun t => decide ((d.val Reg.pwrThermalStrataWarn : Int) ≤ t)) 95
    ++ (dies.take 1).map (fun k => (2, k, dieTemp d (k / 16) (k % 16))) ++ one 3 r (fun t => decide ((110 : Int) ≤ t)) 120

/-- The groups at their limit: 105, 95 and 120 °C. -/
def limits (d : Dev) (j s r : List Int) : List (Nat × Nat × Int) :=
  let one (g : Nat) (ts : List Int) (limit : Int) : List (Nat × Nat × Int) :=
    match d.hottest g ts with
    | some (i, t) => if limit ≤ t then [(g, i, t)] else []
    | none => [(g, 0xFF, limit)]
  one 0 j 105 ++ one 1 s 95 ++ one 3 r 120

/-- Is every group with a limit below it by more than 2 °C? -/
def coolEnough (d : Dev) (j s r : List Int) : Bool :=
  let one (g : Nat) (ts : List Int) (limit : Int) : Bool := match d.hottest g ts with | some (_, t) => decide (t < limit - 2) | none => false
  one 0 j 105 && one 1 s 95 && one 3 r 120

/-- The group that has reached its trip: 112, 102, 105 and 125 °C. -/
def tripGroup (d : Dev) (j s r : List Int) : Option (Nat × Nat) :=
  let one (g : Nat) (ts : List Int) (trip : Int) : List (Nat × Nat) :=
    match d.hottest g ts with | some (i, t) => if trip ≤ t then [(g, i)] else [] | none => []
  (one 0 j 112 ++ one 1 s 102 ++ one 2 d.dieTemps 105 ++ one 3 r 125).head?

/-- The thermal gate: to at least 32 at once, 1 more at each sample at the limit, 1 less after 8 cool samples. -/
def thermalGate (d : Dev) (j s r : List Int) : Dev :=
  match d.limits j s r with
  | (g, i, t) :: _ =>
    let q := d.power
    let d := { d with power := { q with thermal := if q.thermal < 32 then 32 else min 63 (q.thermal + 1), cool := 0, limited := true } }
    let d := d.applyGate
    if d.power.limitSaid then d else
      { (d.raise .pwrThermalLimit srcPower [(1, g), (1, i), (1, ofSigned 8 t), (1, d.rd Reg.pwrGateG)]) with power := { d.power with limitSaid := true } }
  | [] =>
    let q := d.power
    let q := if !d.coolEnough j s r then { q with cool := 0 }
      else if q.cool + 1 = 8 then { q with thermal := q.thermal - 1, cool := 0 } else { q with cool := q.cool + 1 }
    ({ d with power := q }).applyGate

/-- The actions of a thermal sample that trips nothing. -/
def thermalActs (d : Dev) (j s r : List Int) : Dev :=
  let warm := d.warnings j s r
  let d := { d with power := { d.power with warm, warned := d.power.warned || warm != [] } }
  ((d.putFlag Reg.pwrStatusThermalWarn (warm != [])).thermalGate j s r).stepRequest

/-! ### Operating points (R418 to R421) -/

/-- A step of one index begins towards TARGET, no slower than the active plan's MIN_OPP (R419, R420). -/
def oppStart (d : Dev) (minOpp : Option Nat) : Dev :=
  let opp := d.rd Reg.pwrStatusOpp
  let target := match minOpp with | some m => min m (d.val Reg.pwrOppCmdTarget) | none => d.val Reg.pwrOppCmdTarget
  if d.power.step.isSome || target = opp then d else
  let next := if opp < target then opp + 1 else opp - 1
  ({ d with power := { d.power with step := some (next, d.now) } }).putFlag Reg.pwrStatusStepping true

/-- A step is over; STEP_REQ clears when OPP changes (R426). -/
def oppEnd (d : Dev) (opp : Nat) : Dev :=
  let d := ({ d with power := { d.power with step := none } }).putFlag Reg.pwrStatusStepping false
  if opp = d.rd Reg.pwrStatusOpp then d else ((d.put Reg.pwrStatusOpp opp).putFlag Reg.pwrStatusStepReq false).bump Ctr.pwrOppSteps

/-- PWR_STEP_FAIL (R421). -/
def stepFail (d : Dev) (to' rail : Nat) : Dev :=
  (d.bump Ctr.pwrStepFails).raise .pwrStepFail srcPower [(1, d.rd Reg.pwrStatusOpp), (1, to'), (1, rail)]

/-! ### Ramps (R430) and cairns -/

/-- The ramp from the present current to PWR_RAMP_TARGET before the first boundary. -/
def rampUp (d : Dev) (t : Nat) : Dev :=
  let len := d.val Reg.pwrFillerRampEpochs * (10000 * d.val Reg.epcLenLength)
  { d with power := { d.power with idle := d.power.iLast, ramp := some ⟨d.power.iLast, d.rd Reg.pwrRampTargetTargetCa, t, len, false⟩ } }

/-- The ramp from the last mean down to the READY level when epochs stop. -/
def rampDown (d : Dev) (t : Nat) : Dev :=
  let len := d.val Reg.pwrFillerRampEpochs * (10000 * d.val Reg.epcLenLength)
  let (sum, n) := d.meanInput
  { d with power := { d.power with ramp := some ⟨sum / max 1 n, d.power.idle, t, len, true⟩ } }

/-- The epoch's sums and marks at a cairn: EPOCHS_CAPPED and the thermal counters, the means of R426 and R428, dies above HALT_C for 16 epochs (R432). -/
def powerCairn (d : Dev) : Dev :=
  let q := d.power
  let d := d.bump Ctr.pwrEpochsCapped (boolNat q.capped)
  let d := (d.bump Ctr.pwrThermalWarnEpochs (boolNat q.warned)).bump Ctr.pwrThermalLimitEpochs (boolNat q.limited)
  let hot := (List.range 192).filter fun k => decide ((d.val (Reg.stkThermalHaltC (k / 16)) : Int) < dieTemp d (k / 16) (k % 16))
  let counts := hot.map fun k => (k, assocD 0 k q.hot + 1)
  let d := { d with power := { q with
    hot := counts, gPast := ((q.gSum, q.gN) :: q.gPast).take 255, iPast := ((q.iSum, q.iN) :: q.iPast).take 8, gSum := 0, gN := 0, iSum := 0, iN := 0,
    capped := q.g != 0 || q.thermal != 0, warned := q.warm != [], limited := false, limitSaid := false,
    ramp := if (q.ramp.map Ramp.down).getD true then q.ramp else none } }
  let d := (counts.filter fun (c : Nat × Nat) => c.2 = 16).foldl (fun d (c : Nat × Nat) =>
    d.raise .pwrThermalLimit srcPower [(1, 2), (1, c.1), (1, ofSigned 8 (dieTemp d (c.1 / 16) (c.1 % 16))), (1, d.rd Reg.pwrGateG)]) d
  d.stepRequest

end Dev

namespace State

/-- MIN_OPP of the active plan, once its bank is VALID. -/
def minOpp (s : State) : Option Nat :=
  if s.dev.flag (Reg.plnStatusValid s.dev.activeBank) then some s.planMinOpp else none

/-- In READY and TRAINING a step takes place when it is commanded, and steps follow one another (R419). -/
def oppIdle (s : State) : State :=
  if !s.dev.running && (s.dev.inState stReady || s.dev.inState stTraining) then s.onDev (·.oppStart s.minOpp) else s

/-- THERMAL_SAMPLE (R431): the sensors of the junction, strata and regulator groups, and those that repeat one value. -/
def thermalSample (s : State) (j st r : List Int) (stuck : List (Nat × Nat)) : State :=
  if s.dev.inState stSleep then s else
  let s := s.onDev fun d =>
    ((((d.excludeSensors 0 j stuck).excludeSensors 1 st stuck).excludeSensors 2 d.dieTemps stuck).excludeSensors 3 r stuck).showTemps j st r
  match s.dev.tripGroup j st r with
  | some (g, i) => (s.powerOff 5).onDev fun d => { d with aon := { d.aon with trip := some (g, i) } }
  | none => s.onDev (·.thermalActs j st r)

end State

/-! ### The commands -/

/-- POWER_SAMPLE. -/
def execPowerSample (i : PowerIn) (s : State) : Host.Outcome State Fault Refusal := devOnly s (·.powerSample i)

/-- THERMAL_SAMPLE. -/
def execThermalSample (j st r : List Int) (stuck : List (Nat × Nat)) (s : State) : Host.Outcome State Fault Refusal := done (s.thermalSample j st r stuck)

/-- DROOP_TRIP (R422). -/
def execDroopTrip (s : State) : Host.Outcome State Fault Refusal :=
  devOnly s fun d => if d.power.stretched || d.inState stSleep then d else ({ d with power := { d.power with stretched := true } }).bump Ctr.pwrStretchEvents

/-- STRETCH_END, with the edges suppressed; a stretch lasts at least 32 cycles, of which every second is suppressed (R422). -/
def execStretchEnd (edges : Nat) (s : State) : Host.Outcome State Fault Refusal :=
  devOnly s fun d =>
    if d.power.stretched && decide (16 ≤ edges) then ({ d with power := { d.power with stretched := false } }).bump Ctr.pwrStretchCycles edges else d

/-- OPP_STEP_DOWN_COMPLETE; `stuck` names a rail that failed to fall, which is safe and reported (R419, R421). -/
def execOppStepDownComplete (stuck : Option Nat) (s : State) : Host.Outcome State Fault Refusal :=
  done (match s.dev.power.step with
  | some (n, _) =>
    if n ≤ s.dev.rd Reg.pwrStatusOpp then s else
      (s.onDev fun d =>
        let d := match stuck with | some r => d.stepFail n r | none => d
        d.oppEnd n).oppIdle
  | none => s)

/-- OPP_STEP_UP_POWER_GOOD. -/
def execOppStepUpPowerGood (s : State) : Host.Outcome State Fault Refusal :=
  done (match s.dev.power.step with
  | some (n, _) => if s.dev.rd Reg.pwrStatusOpp ≤ n then s else (s.onDev (·.oppEnd n)).oppIdle
  | none => s)

/-- OPP_STEP_UP_ABANDON: no power-good of `rail` by 7.000 µs (R421). -/
def execOppStepUpAbandon (rail : Nat) (s : State) : Host.Outcome State Fault Refusal :=
  devOnly s fun d =>
    match d.power.step with
    | some (n, _) => if d.rd Reg.pwrStatusOpp ≤ n then d else (d.stepFail n rail).oppEnd (d.rd Reg.pwrStatusOpp)
    | none => d

end Sys2Proof.Machine
end

