-- ==== Sys2Proof/Machine/Apply.lean ====
section
/-! DEFINITION. Apply points: fields that take effect at a cairn or a plan-bank switch, and the coupled pairs and sets, which are checked
there and adopted together (R9, 19_start_configuration_identity.md R483 to R485, 21_register_map.md R513). -/

namespace Sys2Proof.Machine

/-- The fields of a coupled pair or set (R513). -/
def Couple.fields : Couple → List Field
  | .none => []
  | .epcLen => [Reg.epcLenLength]
  | .itemMap => [Reg.itemMapBase, Reg.itemMapItems]
  | .seg => [Reg.segBase, Reg.segMax]
  | .home => [Reg.homeBase, Reg.homeCount]
  | .stkThermal s => [Reg.stkThermalThrottleC s, Reg.stkThermalHaltC s, Reg.stkThermalResumeC s]
  | .flsGc => [Reg.flsGcGcLow, Reg.flsGcGcCrit]
  | .cvuCfg => (List.range 16).map Reg.cvuCfgEnable ++ (List.range 16).map Reg.cvuCfgTap ++ (List.range 16).map Reg.cvuCfgPoly
  | .fabReliable => [Reg.fabReliableRetxUs, Reg.fabReliableAckUs]
  | .egsPort p => [Reg.egsPortCfgOverhead p] ++ (List.range 16).map (Reg.egsQlimitKib p) ++ (List.range 12).map (Reg.egsWCfgQuantum p)
  | .poolMap => [Reg.poolMapBase, Reg.poolMapLenBytes]
  | .pwrOpp => [Reg.pwrOppCmdTarget, Reg.pwrOppStart]
  | .pwrTj => [Reg.pwrThermalTjWarn, Reg.pwrThermalTjResume]
  | .fltLog => [Reg.fltLogBase, Reg.fltLogSize]

/-- Where a pair's COUPLE_PENDING stands (R513): the field and its bit. -/
def Couple.bit : Couple → Option (Field × Nat)
  | .none => Option.none
  | .epcLen => some (Reg.epcStatusCouplePending, 0)
  | .itemMap | .seg => some (Reg.idxStatusCouplePending, 0)
  | .home => some (Reg.tierStatusCouplePending, 0)
  | .stkThermal s => some (Reg.stkStatusCouplePending s, 0)
  | .flsGc => some (Reg.flsStatusCouplePending, 0)
  | .cvuCfg => some (Reg.cvuStatusCouplePending, 0)
  | .fabReliable => some (Reg.fabStatusCouplePending, 0)
  | .egsPort p => some (Reg.egsStatusCouplePending, p)
  | .poolMap => some (Reg.tntStatusCouplePending, 0)
  | .pwrOpp | .pwrTj => some (Reg.pwrStatusCouplePending, 0)
  | .fltLog => some (Reg.fltStatusCouplePending, 0)

/-- The pairs and sets checked at cairns. -/
def cairnCouples : List Couple :=
  [.itemMap, .seg, .home] ++ (List.range 12).map Couple.stkThermal ++ [.flsGc, .cvuCfg, .fabReliable] ++ (List.range 8).map Couple.egsPort
    ++ [.poolMap, .pwrOpp, .pwrTj, .fltLog]

namespace State

/-- The agreement rules on the values held, each of its chapter (R203, R255, R284, R314, R327, R356, R374, R394, R438, R460; R45 against the
SLOT_COUNT of the plan that is to run with the length). -/
def agrees (s : State) (slots : Nat) : Couple → Bool
  | .none => true
  | .epcLen => slots = 5 * s.dev.rd Reg.epcLenLength - 5
  | .itemMap => itemPairOk (s.dev.rd Reg.itemMapBase) (s.dev.rd Reg.itemMapItems)
  | .seg =>
    let base := s.dev.rd Reg.segBase
    let n := s.dev.rd Reg.segMax
    let tomb := s.dev.val Reg.tombBase
    base % 4096 = 0 && decide (1 ≤ n) && decide (0x1000000000 ≤ base) && decide (base + n * segStride s.codeBytes ≤ 0xA000000000)
      && decide (0x1000000000 ≤ tomb) && decide (tomb + 512 * n ≤ 0xA000000000)
  | .home => homePairOk (s.dev.rd Reg.homeBase) (s.dev.rd Reg.homeCount)
  | .stkThermal st =>
    let t := s.dev.rd (Reg.stkThermalThrottleC st)
    let h := s.dev.rd (Reg.stkThermalHaltC st)
    let r := s.dev.rd (Reg.stkThermalResumeC st)
    decide (85 ≤ r) && decide (r < t) && decide (t < h) && decide (h ≤ 100)
  | .flsGc =>
    let low := s.dev.rd Reg.flsGcGcLow
    let crit := s.dev.rd Reg.flsGcGcCrit
    decide (8 ≤ crit) && decide (crit < low) && decide (low ≤ 4096)
  | .cvuCfg =>
    let on (u tap : Nat) : Bool :=
      s.dev.flag (Reg.cvuCfgEnable u) && s.dev.rd (Reg.cvuCfgTap u) = tap && !bit (s.dev.rd Reg.cvuSelftestFail) u
    [0, 1, 6, 7].all fun tap =>
      let us := (List.range 16).filter (on · tap)
      us != [] && us.all fun u => s.dev.rd (Reg.cvuCfgPoly u) = 2
  | .fabReliable => decide (s.dev.rd Reg.fabReliableAckUs < s.dev.rd Reg.fabReliableRetxUs)
  | .egsPort p =>
    let extra := toSigned 9 (s.dev.rd (Reg.egsPortCfgOverhead p))
    let limit (q : Nat) : Nat := s.dev.rd (Reg.egsQlimitKib p q)
    (List.range 12).all (fun w => decide ((8266 : Int) + extra ≤ s.dev.rd (Reg.egsWCfgQuantum p w))) && decide (256 ≤ limit 0)
      && (List.range 16).all (fun q => decide (16 ≤ limit q)) && decide (((List.range 16).map limit).sum ≤ 4096)
  | .poolMap => poolPairOk (s.dev.rd Reg.poolMapBase) (s.dev.rd Reg.poolMapLenBytes)
  | .pwrOpp => s.dev.rd Reg.pwrOppCmdTarget = s.dev.rd Reg.pwrStatusOpp || decide (s.dev.epoch < s.dev.rd Reg.pwrOppStart)
  | .pwrTj =>
    let w := s.dev.rd Reg.pwrThermalTjWarn
    let r := s.dev.rd Reg.pwrThermalTjResume
    decide (80 ≤ r) && decide (r < w) && decide (w ≤ 104)
  | .fltLog =>
    let base := s.dev.rd Reg.fltLogBase
    base % 32 = 0 && inOneColumn base (32 * 2 ^ s.dev.rd Reg.fltLogSize)

end State

namespace Dev

/-- COUPLE_PENDING of a pair's block is set while any pair of it is pending. -/
def showPending (d : Dev) (c : Couple) : Dev :=
  match c.bit with
  | some (f, k) => d.put f (setBits (d.rd f) k 1 (boolNat (d.regs.pendingCouples.any fun (x : Couple) => x.bit = some (f, k))))
  | none => d

/-- The values of a pair are adopted together, and it is pending no longer. -/
def adoptCouple (d : Dev) (c : Couple) : Dev :=
  let d := c.fields.foldl adopt d
  ({ d with regs := { d.regs with
    waiting := d.regs.waiting.filter fun (f : Field) => f.couple != c, touched := d.regs.touched.filter (· != c),
    pendingCouples := d.regs.pendingCouples.filter (· != c) } }).showPending c

/-- A pair that disagrees keeps what it last adopted. -/
def holdCouple (d : Dev) (c : Couple) : Dev :=
  ({ d with regs := { d.regs with
    touched := d.regs.touched.filter (· != c),
    pendingCouples := if d.regs.pendingCouples.contains c then d.regs.pendingCouples else d.regs.pendingCouples ++ [c] } }).showPending c

/-- Is a pair to be checked at this apply point: one of its fields was written since its last check, or it is pending (R484)? -/
def coupleDue (d : Dev) (c : Couple) : Bool := d.regs.touched.contains c || d.regs.pendingCouples.contains c

/-- The fields of no pair that wait for an apply point take effect there (R9). -/
def applyAlone (d : Dev) (a : Apply) : Dev :=
  let due := d.regs.waiting.filter fun (f : Field) => f.app = a && f.couple = Couple.none
  due.foldl adopt { d with regs := { d.regs with waiting := d.regs.waiting.filter fun (f : Field) => !(f.app = a && f.couple = Couple.none) } }

/-- The peer-table entries written since the last cairn (R338). -/
def peersWritten (d : Dev) : List Nat :=
  ((d.regs.waiting.filter fun (f : Field) => decide (0xE0000 ≤ f.off) && decide (f.off < 0xF0000)).map fun (f : Field) => (f.off - 0xE0000) / 16).eraseDups

end Dev

namespace State

/-- COUPLED_SET_CHECK of one pair (R484). A new place of the fault log restarts its ring empty, with FLT_LOG_READ at FLT_SEQ (R460); a
home table that appears in READY takes the flash homes (R253), and one that moves or grows is laid out by Lantern (R255; log entry 20). -/
def checkCouple (s : State) (c : Couple) (slots : Nat) : State :=
  if !s.dev.coupleDue c then s
  else if !s.agrees slots c then s.onDev (·.holdCouple c)
  else
    let old := if s.dev.fls.homesDue then [] else s.homes
    let s := s.onDev (·.adoptCouple c)
    match c with
    | .fltLog => s.onDev fun d => d.put Reg.fltLogRead (d.rd Reg.fltSeq)
    | .home => if s.dev.rd Reg.glbState < stReady then s else if s.dev.fls.homesDue then s.restoreHomes else s.layTable old
    | _ => s

/-- The pools there are, as (account, tier, bytes): the segment numbers, and the hot slots of each DRIP table, are the system's; the spill rows of a
MUTABLE table are its tenant's (R246). -/
def poolsNow (s : State) : List (Nat × Nat × Nat) :=
  let segs := s.dev.val Reg.segMax
  let tables := if s.dev.on Reg.rowCtrlRowsEn then ((List.range 64).map s.rowTable).filter (·.valid) else []
  (if segs = 0 then [] else [(64, 1, segs * s.segCharge)]) ++ tables.flatMap fun r =>
    (if r.mutable' then [(r.tenant, 1, r.spillRows * r.rowBytes)] else []) ++
    (if r.drip then [(64, 0, 2 * (s.dev.val (Reg.hotStrataRows r.t) * r.rowBytes)), (64, 1, 2 * (s.dev.val (Reg.hotStackRows r.t) * r.rowBytes))] else [])

/-- The charges of the pools follow the pools there are: those charged before are credited, those of now are charged. A pool that exists is charged
without a refusal (R246; log entry 141). -/
def chargePools (s : State) : State :=
  let now := s.poolsNow
  if now = s.dev.tier.pools then s else
  s.onDev fun d =>
    let d := now.foldl (fun d (o, t, n) => d.setUsed o t (d.usedOf o t + n)) d
    let d := d.tier.pools.foldl (fun d (o, t, n) => d.credit o t n) d
    { d with tier := { d.tier with pools := now } }

/-- The pairs of a cairn, then the fields that take effect there (R36); entries written in the peer table reset their peers (R338). -/
def applyCairn (s : State) : State :=
  let place (s : State) : List Nat := [s.dev.val Reg.itemMapBase, s.dev.val Reg.itemMapItems, s.dev.val Reg.idxDirBase, s.dev.val Reg.headBaseOffset]
  let before := place s
  let s := cairnCouples.foldl (fun s c => s.checkCouple c 0) s
  let peers := s.dev.peersWritten
  let s := s.onDev fun d => (d.applyAlone .cairn).resetPeers peers
  (if place s = before then s else s.recountItems).chargePools

/-- APPLY_POINT (R483, R505): with no epochs running, the fields of the next cairn take effect. Those of the next plan-bank switch wait for the first
epoch boundary (`State.firstFields`; log entry 118). -/
def applyPoint (s : State) : State := if s.dev.running || s.dev.inState stSleep then s else s.applyCairn.oppIdle

end State

/-! ### The command -/

/-- APPLY_POINT at a 1 µs boundary of TIME. -/
def execApplyPoint (t : Nat) (s : State) : Host.Outcome State Fault Refusal := done (s.onDev (·.clock t)).applyPoint

end Sys2Proof.Machine
end

