-- ==== Sys2Proof/Machine/Scan.lean ====
section
/-! DEFINITION. SCAN: probe lists, batches, parts, records and runs (05_lookup_distance_engine.md R139 to R146), over the
structures of the index (07_lists_updates_visibility.md R171 to R179, R188). -/

namespace Sys2Proof.Machine

/-- A probe entry (R139) with its poison, its table and, once its batch begins, its filter. -/
structure Probe where
  i : Nat
  list : Nat
  qord : Nat
  tid : Nat
  widened : Bool
  filtered : Bool
  filterAt : Nat
  tenant : Nat
  poison : Bool
  table : Option LutEntry
  filter : Option Filter
  /-- Not NOT_SCANNED for a bad filter (R177). -/
  ok : Bool
  deriving DecidableEq, Repr

/-- How a SCAN ends before its entries do: out of budget at a part (R143), or out of output space (R144). -/
inductive ScanEnd where | more (entry part : Nat) | full
  deriving DecidableEq, Repr

/-- A SCAN under way: records and runs written, cycles used, whether no part has run yet, how it ended. -/
structure ScanSt where
  s : State
  recs : Nat
  runs : Nat
  used : Nat
  fresh : Bool
  stop : Option ScanEnd
  deriving DecidableEq, Repr

def sidePart : Nat := 0xFFFF
def wholePart : Nat := 0xFFFE
def stScanned : Nat := 0
def stSkipped : Nat := 1
def stNotScanned : Nat := 2

/-! ### The probe list (R139, R145) -/

def probeAt (x : Ctx) (p : ScanP) (i : Nat) : Nat := columnBase x.c + p.probeAddr + 16 + 16 * i

/-- One entry's bytes as a probe; `none` where a reserved bit is set or FILTER stands without FILTERED. -/
def probeParse (i : Nat) (b : List Byte) (bad : Bool) : Option Probe :=
  let fl := fieldAt b 7 1
  if decide (fieldAt b 0 4 < 2 ^ 20) && decide (fieldAt b 6 1 < 64) && decide (fl < 4) && decide (fieldAt b 12 1 < 64)
      && fieldAt b 13 3 = 0 && (bit fl 1 || fieldAt b 8 4 = 0) then
    some { i, list := fieldAt b 0 4, qord := fieldAt b 4 2, tid := fieldAt b 6 1, widened := bit fl 0, filtered := bit fl 1,
           filterAt := fieldAt b 8 4, tenant := fieldAt b 12 1, poison := bad, table := none, filter := none, ok := true }
  else none

/-- (LIST, QORD) in strictly ascending order (R139). -/
def probeAfter (a b : Nat × Nat) : Bool := decide (a.1 < b.1) || (a.1 = b.1 && decide (a.2 < b.2))

/-- The entries `i` to `i + n - 1`, or the first bad one (R145); `prev` is the (LIST, QORD) before. -/
def readProbes (s : State) (x : Ctx) (p : ScanP) (hdrBad : Bool) : Nat → Nat → Option (Nat × Nat) → Except Nat (List Probe)
  | _, 0, _ => .ok []
  | i, n + 1, prev =>
    let (b, bad) := s.devRead (probeAt x p i) 16
    match probeParse i b (bad || hdrBad) with
    | none => .error i
    | some e =>
      if e.list < s.dev.val Reg.idxLists ∧ e.qord < s.ingressCap ∧ (prev.all fun q => probeAfter q (e.list, e.qord)) = true then
        match readProbes s x p hdrBad (i + 1) n (some (e.list, e.qord)) with
        | .ok rest => .ok (e :: rest)
        | .error k => .error k
      else .error i

/-! ### Runs and records -/

/-- A run (R142), written while run space allows (R144). -/
def ScanSt.addRun (t : ScanSt) (x : Ctx) (p : ScanP) (m : Probe) (part first count status : Nat) (poison : Bool) : ScanSt :=
  if t.runs < p.runCap then
    let bs := leBytes 2 m.i ++ leBytes 2 part ++ leBytes 4 first ++ leBytes 4 count ++ leBytes 1 status ++ leBytes 1 (boolNat m.widened) ++ leBytes 2 0
    { t with s := t.s.locWrite x.c (.store (p.runAddr + 16 * t.runs)) bs (poison || m.poison), runs := t.runs + 1 }
  else t

/-- The step's cohort is missing on this module (R144, R172). -/
def ScanSt.miss (t : ScanSt) (x : Ctx) : ScanSt := { t with s := t.s.onDev (·.missCohort x.cohort) }

/-- LOOKUP_OUT_FULL (R144): the step ends, its cohort is missing and its dependants are abandoned. -/
def ScanSt.outFull (t : ScanSt) (x : Ctx) (entry part : Nat) : ScanSt :=
  { t with stop := some .full, s := t.s.onDev fun d =>
      ((d.raise .lookupOutFull x.src [(1, x.c), (2, x.hdr.index), (2, entry), (2, part)] true).putFlag (Reg.ldeStatusOutFull x.c) true).abandon x }

/-- Members of a batch that get one NOT_SCANNED run for the whole list (R172). -/
def ScanSt.whole (t : ScanSt) (x : Ctx) (p : ScanP) (ms : List Probe) (list field : Nat) : ScanSt :=
  let t := ({ t with s := t.s.onDev (·.raise .indexHeadBad x.src [(1, x.c), (3, list), (1, field)] true) }).miss x
  let room := decide (t.runs + ms.length ≤ p.runCap)
  let t := ms.foldl (fun t m => t.addRun x p m wholePart 0 0 stNotScanned false) t
  if room then t else t.outFull x ((ms.map (·.i)).headD 0) wholePart

/-! ### Parts -/

/-- A position of a part that a member may see: its id, its code, and whether reading them met poison. -/
structure Position where
  id : Nat
  code : List Byte
  poison : Bool
  visible : Bool
  mask : List Byte
  slot : Nat
  deriving DecidableEq, Repr

/-- A part before it is read: positions, bytes read for it, the segment it is (R143). -/
structure Part where
  num : Nat
  count : Nat
  bytes : Nat
  seg : Option (Nat × Nat)
  deriving DecidableEq, Repr

/-- A part of a list at a snapshot; `none` where no version exists (R178, R188). -/
def partOf (s : State) (h : ListHead) (part snap : Nat) : Option Part :=
  if part = sidePart then some { num := part, count := sideCount h, bytes := sideCount h * sideSize s.codeBytes, seg := none }
  else (chooseVersion (s.segDesc h part) snap).map fun (g, n, ver) =>
    { num := part, count := n, bytes := n * (s.codeBytes + 8) + 512, seg := some (g, ver) }

/-- The positions of a segment version (R174, R188). -/
def segPositions (s : State) (x : Ctx) (h : ListHead) (ord g n ver snap : Nat) : State × List Position :=
  let c := s.codeBytes
  let (s, codes, pc) := s.useIf x s.segsReady (s.segAddr g) (n * c)
  let (s, ids, pi) := s.useIf x s.segsReady (s.segIds g) (8 * n)
  let (s, tomb, pt) := s.useIf x s.segsReady (s.tombAddr g) 512
  let (s, ovl, po) := s.devUse x (s.ovlAddr h) (8 * h.ovlCount)
  let os := (chunks 8 ovl).map ovlParse
  let all' := pt || po || !s.segsReady
  (s, (List.range n).map fun i =>
    { id := fieldAt ids (8 * i) 8, code := (codes.drop (i * c)).take c,
      poison := all' || (pc && (s.devRead (s.segAddr g + i * c) c).2) || (pi && (s.devRead (s.segIds g + 8 * i) 8).2),
      visible := !mapBit tomb i && !hiddenBy os ord i ver snap, mask := [], slot := i })

/-- The retained side entries, oldest first (R184, R188). -/
def sidePositions (s : State) (h : ListHead) (snap : Nat) : List Position :=
  (List.range (sideCount h)).map fun k =>
    let q := (h.sideStart + k) % 2 ^ 32
    let (b, bad) := s.devRead (s.sideAddr h q) (64 + s.codeBytes)
    let e := sideParse b
    { id := e.id, code := b.drop 64, poison := bad, visible := visibleSide h e q snap, mask := e.mask, slot := k }

/-- The summary test (R178): a poisoned summary byte counts as 1. -/
def summaryPasses (s : State) (x : Ctx) (f : Filter) (g : Nat) : State × Bool :=
  let r := f.sets.foldl (fun (r : State × List Bool) st =>
    let (s, b, bad) := r.1.devUse x (st.2.2 + g / 8) 1
    (s, r.2 ++ [bad || mapBit b (g % 8)])) (s, [])
  (r.1, filterFold true f.ops r.2)

/-- The membership bitmaps of a segment for a filter, with their poison (R176, R179). -/
def filterMaps (s : State) (x : Ctx) (f : Filter) (g : Nat) : State × List (List Byte) × Bool :=
  f.sets.foldl (fun (r : State × List (List Byte) × Bool) st =>
    let (s, b, bad) := r.1.devUse x (st.2.1 + 512 * g) 512
    (s, r.2.1 ++ [b], r.2.2 || bad)) (s, [], false)

/-- Is a position allowed for a member (R177)? -/
def allowed (f : Option Filter) (maps : List (List Byte)) (seg : Bool) (q : Position) : Bool :=
  match f with
  | none => true
  | some f => filterFold false f.ops (if seg then maps.map fun b => mapBit b q.slot else f.sets.map fun st => mapBit q.mask st.1)

/-- scan_part of R141 for one member: its records, then its run. -/
def scanMember (x : Ctx) (p : ScanP) (bad : List Nat) (part : Part) (dirty : Bool) (qs : List Position) (t : ScanSt) (m : Probe) : ScanSt :=
  match m.table with
  | none => t
  | some e =>
    let first := t.recs
    let (s, maps, mapBad) := match m.filter, part.seg with
      | some f, some (g, _) => filterMaps t.s x f g
      | _, _ => (t.s, [], false)
    let base := dirty || m.poison || mapBad || (m.filter.elim false (·.poison))
    let t := qs.foldl (fun (t : ScanSt) q =>
      if q.visible && allowed m.filter maps part.seg.isSome q then
        let r := lookCode t.s x.c e bad (padTo (codeLen e.fmt e.t) q.code)
        let s := if r.badWords = [] then t.s else t.s.onDev (·.lutParities x.c m.tid r.badWords)
        let bs := recordOf q.id (scoreOf e r.sum) 0 m.qord
        { t with s := s.locWrite x.c (.store (p.recAddr + 16 * t.recs)) bs (base || q.poison || r.poison || r.badWords != []), recs := t.recs + 1 }
      else t) { t with s }
    let t := { t with s := t.s.onDev fun d =>
      let d := (d.bump (Ctr.chLookups x.c) (part.count * e.t)).bump (Ctr.chCodesScanned x.c) part.count
      let d := d.bump (Ctr.chRecordsOut x.c) (t.recs - first)
      if x.hdr.metered then d.meterTenant m.tenant 1 (part.count * e.t) else d }
    t.addRun x p m part.num first (t.recs - first) stScanned dirty

/-- The bytes read for a part: its own, and the bitmap of each distinct filter set that its members use (R143). -/
def partBytes (part : Part) (live : List Probe) : Nat :=
  let maps := ((live.filterMap (·.filter)).flatMap fun f => f.sets.map (·.2.1)).eraseDups.length
  if part.seg.isSome then part.bytes + 512 * maps else part.bytes

/-- Nominal cost of a part for the members that are not skipped (R143). -/
def partCost (p : ScanP) (part : Part) (live : List Probe) : Nat :=
  if live = [] then 4 else
  let look := part.count * (live.map fun m => (m.table.map (·.t)).getD 0).sum
  let bytes := partBytes part live
  max (ceilDiv look 2048) (ceilDiv bytes (if part.seg.isSome then p.nomBpc else 512)) + 16

/-- One part for a batch (R141 to R144, R178) whose first entry is `first`. -/
def scanPart (x : Ctx) (p : ScanP) (bad : List Nat) (snap : Nat) (h : ListHead) (headBad : Bool) (first : Nat) (ms : List Probe) (t : ScanSt)
    (num : Nat) : ScanSt :=
  if t.stop.isSome then t else
  let part := (partOf t.s h num snap).getD { num, count := 0, bytes := 0, seg := none }
  let (s, live) := ms.foldl (fun (r : State × List Probe) m =>
    if !m.ok || part.count = 0 then r else
    match m.filter, part.seg with
    | some f, some (g, _) => let q := summaryPasses r.1 x f g; (q.1, if q.2 then r.2 ++ [m] else r.2)
    | _, _ => (r.1, r.2 ++ [m])) (t.s, [])
  let cost := partCost p part live
  if !t.fresh && decide (x.hdr.budget < t.used + cost) then { t with stop := some (.more first num) } else
  let t := { t with s }
  if p.recCap < t.recs + ms.length * part.count ∨ p.runCap < t.runs + ms.length then
    (ms.foldl (fun t m => t.addRun x p m num 0 0 stNotScanned false) t).outFull x first num
  else
    let segBad := num != sidePart && (t.s.devRead (t.s.segDescAddr h num) 32).2
    let (s, qs) := if live = [] then (t.s, []) else match part.seg with
      | some (g, ver) => segPositions t.s x h num g part.count ver snap
      | none => (t.s, sidePositions t.s h snap)
    let shared := live.length
    let s := s.onDev fun d =>
      if shared = 0 then d else
      let d := if part.seg.isSome then d.bump (Ctr.chSegmentsRead x.c) else d.bump (Ctr.chSideEntries x.c) part.count
      let d := if 2 ≤ shared then d.bump (Ctr.chSharedReads x.c) else d
      if x.hdr.metered && part.seg.isSome then d.meterTenant ((live.map (·.tenant)).headD 0) 3 (partBytes part live) else d
    let dirty := headBad || segBad
    ms.foldl (fun t m =>
      if !m.ok then (t.addRun x p m num 0 0 stNotScanned dirty)
      else if live.any (·.i = m.i) then scanMember x p bad part dirty qs t m
      else
        let t := t.addRun x p m num t.recs 0 stSkipped dirty
        if num = sidePart then t else { t with s := t.s.onDev (·.bump (Ctr.chSegmentsSkipped x.c)) })
      { t with s, used := t.used + cost, fresh := false }

/-- A member's filter descriptor is read; a bad one makes the member NOT_SCANNED (R177). -/
def readFilter (x : Ctx) (resumed : Bool) (r : ScanSt × List Probe) (m : Probe) : ScanSt × List Probe :=
  if !m.filtered then (r.1, r.2 ++ [m]) else
  let (s, b, bad) := r.1.s.devUse x (columnBase x.c + m.filterAt) 80
  match if m.filterAt % 16 = 0 then filterParse b bad else none with
  | some f => ({ r.1 with s }, r.2 ++ [{ m with filter := some f }])
  | none =>
    let t := { r.1 with s }
    let t := if resumed then t else
      ({ t with s := t.s.onDev (·.raise .indexFilterBad x.src [(1, x.c), (2, x.hdr.index), (2, m.i)] true) }).miss x
    (t, r.2 ++ [{ m with ok := false }])

/-- One batch (R141, R171, R172); `start` is the part a continuation resumes at. -/
def scanBatch (x : Ctx) (p : ScanP) (bad : List Nat) (snap : Nat) (start : Option Nat) (t : ScanSt) (ms : List Probe) : ScanSt :=
  if t.stop.isSome then t else
  let list := (ms.map (·.list)).headD 0
  match t.s.readHead list with
  | .error f => t.whole x p ms list f
  | .ok (h, headBad) =>
    let same := ms.filter (·.tenant = h.tenant)
    let other := ms.filter (·.tenant != h.tenant)
    let t := if other = [] || start.isSome then t else t.whole x p other list 0x04
    if t.stop.isSome || same = [] then t else
    let (t, same) := same.foldl (readFilter x start.isSome) (t, [])
    let parts := (if bit p.parts 0 then List.range h.ords else []) ++ (if bit p.parts 1 then [sidePart] else [])
    let parts := match start with | some k => parts.filter fun n => decide (k ≤ n) | none => parts
    parts.foldl (scanPart x p bad snap h headBad ((ms.map (·.i)).headD 0) same) t

/-- Consecutive entries of one list, at most `most` in a batch (R141). -/
def batches (most : Nat) (ms : List Probe) : List (List Probe) :=
  ms.foldr (fun m acc => match acc with
    | [] => [[m]]
    | b :: rest => if (b.map (·.list)).headD 0 = m.list then (m :: b) :: rest else [m] :: acc) [] |>.flatMap (chunks most)

/-- The first entry whose table is missing or differs (R145). -/
def badTable (d : Dev) (c : Nat) (p : ScanP) (ms : List Probe) : Option (Probe × Option LutEntry) :=
  ((ms.map fun m => (m, d.table c m.tid)).find? fun (_, e) => match e with
    | none => true
    | some e => e.fmt != p.fmt || e.metric != p.metric)

/-- LOOKUP_PROBE_BAD (R145). -/
def probeBad (x : Ctx) (entry : Nat) (s : State) : State × Option (List Nat) :=
  (s.onDev fun d => (d.raise .lookupProbeBad x.src [(1, x.c), (2, x.hdr.index), (2, entry)] true).abandon x, none)

/-- The entries from the resumed one on, with their tables. A continuation resumes at the first entry of a batch, so its batches are those of the
step it continues (R143). -/
def scanRest (x : Ctx) (p : ScanP) (us : List Upset) (snap : Nat) (es : List Probe) (s : State) : State × Option (List Nat) :=
  let es := match x.resume with | e :: _ => es.filter fun m => decide (e ≤ m.i) | [] => es
  match badTable s.dev x.c p es with
  | some (m, none) => (s.onDev (·.noTable x m.i m.tid), none)
  | some (m, some e) =>
    (s.onDev fun d => ((d.raise .lookupTableMismatch x.src [(1, x.c), (2, x.hdr.index), (2, m.tid), (1, e.fmt), (1, e.metric)] true).putFlag
      (Reg.ldeStatusNoTable x.c) true).abandon x, none)
  | none =>
    let es := es.map fun m => { m with table := s.dev.table x.c m.tid }
    let t : ScanSt := { s, recs := x.resume.getD 2 0, runs := x.resume.getD 3 0, used := 0, fresh := true, stop := none }
    let bs := batches p.batchMax es
    let start := if x.resume = [] then none else some (x.resume.getD 1 0)
    let t := match bs with
      | [] => t
      | b :: rest => rest.foldl (scanBatch x p (badWords us) snap none) (scanBatch x p (badWords us) snap start t b)
    match t.stop with
    | some (.more e k) => (t.s.onDev (·.bump (Ctr.chScanContinuations x.c)), some [e, k, t.recs, t.runs])
    | _ => (t.s, none)

/-- SCAN (R139 to R145). -/
def scanRun (us : List Upset) (p : ScanP) (x : Ctx) (s : State) : State × Option (List Nat) :=
  let (s, hb, hbad) := s.devUse x (columnBase x.c + p.probeAddr) 16
  let count := fieldAt hb 0 4
  if fieldAt hb 4 4 != 0 || decide (65535 < count) || decide (columnEnd < p.probeAddr + 16 + 16 * count) then probeBad x 0xFFFF s else
  let n := min p.probeLimit (count - p.probeFirst)
  let prev := if p.probeFirst = 0 then none else
    let b := (s.devRead (probeAt x p (p.probeFirst - 1)) 16).1
    some (fieldAt b 0 4, fieldAt b 4 2)
  match readProbes s x p hbad p.probeFirst n prev with
  | .error i => probeBad x i s
  | .ok es => scanRest x p us (fieldAt hb 8 8) es s

def execScan (c : Nat) (h : Hdr) (p : ScanP) (us : List Upset) (s : State) : Host.Outcome State Fault Refusal :=
  stepCmd c h (.scan p) us (scanRun us p) s

end Sys2Proof.Machine
end

