-- ==== Sys2Proof/Machine/Select.lean ====
section
/-! DEFINITION. The selection unit: keys, the total order, SELECT and MERGE (06_selection.md R150 to R167). -/

namespace Sys2Proof.Machine

open Sys2Proof.Fp

/-- A candidate: its key, id, source position, score bits as written, flags and auxiliary field. -/
structure Cand where
  key : Nat
  id : Nat
  pos : Nat
  score : Nat
  flags : Nat
  aux : Nat
  deriving DecidableEq, Repr

/-- score_key of R150; `none` for NaN. -/
def scoreKey (b : Nat) : Option Nat :=
  if isNan32 b then none
  else if b = 2 ^ 31 then some (2 ^ 31)
  else some (if bit b 31 then 2 ^ 32 - 1 - b else b + 2 ^ 31)

/-- What a record is to a selection: a candidate, excluded for NaN, or padding (R151). -/
inductive Rec where | cand (c : Cand) | nan | pad
  deriving DecidableEq, Repr

def recParse (pos : Nat) (widened : Bool) (b : List Byte) : Rec :=
  let fl := fieldAt b 12 2 % 8
  if bit fl 2 then .pad else
  match scoreKey (fieldAt b 8 4) with
  | none => .nan
  | some key =>
    .cand { key, id := fieldAt b 0 8, pos, score := if fieldAt b 8 4 = 2 ^ 31 then 0 else fieldAt b 8 4,
            flags := if widened && !bit fl 1 then fl + 2 else fl, aux := fieldAt b 14 2 }

def Rec.toCand : Rec → Option Cand | .cand c => some c | _ => none

/-- The total order of R152. -/
def candBefore (a b : Cand) : Bool :=
  decide (b.key < a.key) || (a.key = b.key && (decide (a.id < b.id) || (a.id = b.id && decide (a.pos < b.pos))))

/-- What a selection counts (R169). -/
structure Passes where
  keyPasses : Nat := 0
  idPasses : Nat := 0
  dups : Nat := 0
  rounds : Nat := 0
  tieCycles : Nat := 0
  deriving DecidableEq, Repr

/-- The first of `order` whose bin, added to those before it, reaches `need`; with the sum before it. -/
def binFor (count : Nat → Nat) (need : Nat) : List Nat → Nat → Nat × Nat
  | [], acc => (0, acc)
  | b :: rest, acc => if acc + count b < need then binFor count need rest (acc + count b) else (b, acc)

/-- Histogram passes over byte digits, most significant first (R156): passes made, the values still tied, the places left. -/
def radix (high : Bool) : List Nat → Nat → List Nat → Nat → Nat × List Nat × Nat
  | [], _, vals, left => (0, vals, left)
  | d :: rest, passes, vals, left =>
    let count (b : Nat) : Nat := vals.countP fun v => bits v (8 * d) 8 = b
    let order := if high then (List.range 256).reverse else List.range 256
    let (b, acc) := binFor count left order 0
    let vals := vals.filter fun v => bits v (8 * d) 8 = b
    if acc + vals.length = left then (passes + 1, [], 0)
    else
      let r := radix high rest passes vals (left - acc)
      (r.1 + 1, r.2)

/-- The digits from the first on which the least and greatest value differ, most significant first. -/
def digitsFrom (n : Nat) (vals : List Nat) : List Nat :=
  let lo := vals.foldl min (vals.headD 0)
  let hi := vals.foldl max 0
  ((List.range n).reverse).dropWhile fun d => lo / 256 ^ d = hi / 256 ^ d

/-- One round's passes (R156, R162). -/
def roundPasses (live : List Cand) (need : Nat) (p : Passes) : Passes :=
  let p := { p with rounds := p.rounds + 1 }
  if live.length ≤ need then p else
  let keys := live.map (·.key)
  let (n, tied, left) := radix true (digitsFrom 4 keys) 0 keys need
  let p := { p with keyPasses := p.keyPasses + n }
  match tied with
  | [] => p
  | k :: _ =>
    let ids := (live.filter (·.key = k)).map (·.id)
    { p with idPasses := p.idPasses + (radix false (digitsFrom 8 ids) 0 ids left).1, tieCycles := p.tieCycles + 8 * ceilDiv ids.length 128 }

/-- select of R156 on candidates in the total order: the entries chosen and what the rounds counted. -/
def selectRounds (k : Nat) : Nat → List Cand → List Cand → Passes → List Cand × Passes
  | 0, chosen, _, p => (chosen, p)
  | fuel + 1, chosen, live, p =>
    if live = [] ∨ k ≤ chosen.length then (chosen, p) else
    let need := min (k - chosen.length) 1024
    let p := roundPasses live need p
    let (chosen, dups) := (live.take need).foldl (fun (acc : List Cand × Nat) c =>
      if acc.1.any (·.id = c.id) then (acc.1, acc.2 + 1) else (acc.1 ++ [c], acc.2)) (chosen, 0)
    selectRounds k fuel chosen (live.drop need) { p with dups := p.dups + dups }

/-- The first K candidates with distinct ids (R155). -/
def selectTop (k : Nat) (cs : List Cand) : List Cand × Passes := selectRounds k cs.length [] (sortBy candBefore cs) {}

def distinctIds (cs : List Cand) : Nat := (cs.map (·.id)).eraseDups.length

/-- Distinct ids among the candidates with the key of the last entry (R158). -/
def tieCount (k : Nat) (chosen cs : List Cand) : Nat :=
  if chosen.length = k then match chosen.getLast? with
    | some t => distinctIds (cs.filter (·.key = t.key))
    | none => 0
  else 0

/-- A candidate list (R154, R157, R158): the bytes, and whether TIES_AT_K is set. -/
def listBytes (k : Nat) (chosen : List Cand) (rest tie qord missing nans : Nat) : List Byte × Bool :=
  let n := chosen.length
  let atT := match chosen.getLast? with | some t => chosen.countP (·.key = t.key) | none => 0
  let ties := n = k && decide (atT < tie)
  let fl := boolNat ties + 2 * boolNat (decide (n < k)) + 4 * boolNat (chosen.any fun c => bit c.flags 0) + 8 * boolNat (chosen.any fun c => bit c.flags 1)
  let head := leBytes 4 n ++ leBytes 4 k ++ leBytes 4 (treeSum (chosen.map (·.score))) ++ leBytes 4 rest
    ++ leBytes 4 (if n = k then tie else 0) ++ leBytes 2 qord ++ leBytes 2 fl ++ leBytes 2 (min missing 65535) ++ leBytes 2 0
    ++ leBytes 4 (min nans (2 ^ 32 - 1))
  (head ++ chosen.flatMap (fun c => recordOf c.id c.score c.flags c.aux)
    ++ (List.replicate (k - n) (recordOf (2 ^ 64 - 1) 0xFF800000 4 0)).flatMap id, ties)

def sortCycles (m : Nat) : Nat := let s := ceilLog2 (max m 2); ceilDiv m 128 * s * (s + 1) / 2

/-- Cycles of one list (R162, R166). -/
def listCycles (n k : Nat) (p : Passes) : Nat :=
  ceilDiv n 64 + max (ceilDiv k 1024) p.rounds * (5 * ceilDiv n 128 + sortCycles (min k 1024)) + 16 + p.tieCycles

/-- The counters of one list (R169). -/
def Dev.countList (d : Dev) (c : Nat) (p : Passes) (cands nans pads : Nat) (ties : Bool) : Dev :=
  let d := ((d.bump (Ctr.chListsOut c)).bump (Ctr.chCandidatesIn c) cands).bump (Ctr.chKeyPasses c) p.keyPasses
  let d := ((d.bump (Ctr.chIdPasses c) p.idPasses).bump (Ctr.chNanExcluded c) nans).bump (Ctr.chDuplicatesRemoved c) p.dups
  let d := d.bump (Ctr.chPaddedEntries c) pads
  if ties then d.bump (Ctr.chTieLists c) else d

/-- Excluded NaN scores: the status bit and, with NAN_FAULT, one SELECT_NAN a chamber and epoch (R168, R170). -/
def Dev.selectNan (d : Dev) (x : Ctx) (n : Nat) : Dev :=
  if n = 0 then d else
  let d := d.putFlag (Reg.selStatusNanSeen x.c) true
  if d.on (Reg.selCtrlNanFault x.c) && !d.seq.nanSaid.contains (x.c, 0x0404) then
    { (d.raise .selectNan x.src [(1, x.c), (2, x.hdr.index), (8, d.epoch)]) with
      seq := { d.seq with nanSaid := d.seq.nanSaid ++ [(x.c, 0x0404)] } }
  else d

/-- The scratch area after a selection holds values no rule states. -/
def State.useScratch (s : State) (c addr n : Nat) (poison : Bool) : State :=
  let draw := s.dev.freeCtr
  (s.locWrite c (.store addr) ((List.range n).map (Config.scratchByte draw)) poison).onDev fun d => { d with freeCtr := draw + 1 }

/-- Work units of one list each from `first` on: the first always runs, a later one while the budget holds it
(R50, R162; log entry 8). Answers the state and the next list. -/
def listUnits (h : Hdr) (one : State → Nat → State × Nat) : Nat → Nat → Nat → State → State × Nat
  | 0, q, _, s => (s, q)
  | left + 1, q, used, s =>
    let r := one s q
    if decide (h.budget < used + r.2) && used != 0 then (s, q)
    else listUnits h one left (q + 1) (used + r.2) r.1

/-- The end of a step whose unit is a list: a continuation where lists are left. -/
def listEnd (x : Ctx) (total : Nat) (r : State × Nat) : State × Option (List Nat) :=
  if r.2 < total then (r.1.onDev (·.bump (Ctr.chSelectContinuations x.c)), some [r.2]) else (r.1, none)

/-! ### SELECT -/

/-- A list to form: its QORD and the record indices it reads, ascending, each with WIDENED. -/
structure Group where
  qord : Nat
  reads : List (Nat × Bool)
  deriving DecidableEq, Repr

/-- Adds a run's records to its query's group; groups stay in ascending QORD, positions ascending and distinct. -/
def addToGroup (q first n : Nat) (w : Bool) (gs : List Group) : List Group :=
  let add (g : Group) : Group :=
    { g with reads := (List.range n).foldl (fun rs i =>
        if rs.any (·.1 = first + i) then rs.map fun r => if r.1 = first + i then (r.1, r.2 || w) else r
        else insertBy (fun a b => decide (a.1 < b.1)) (first + i, w) rs) g.reads }
  if gs.any (·.qord = q) then gs.map fun g => if g.qord = q then add g else g
  else insertBy (fun a b : Group => decide (a.qord < b.qord)) (add ⟨q, []⟩) gs

/-- One run of R142 taken into the groups (R161); `none` where it is bad (R170). The Bool is NOT_SCANNED. -/
def takeRun (p : SelectP) (count : Nat) (qordOf : Nat → Nat) (b : List Byte) (acc : List Group × Bool) : Option (List Group × Bool) :=
  let probe := fieldAt b 0 2
  let first := fieldAt b 4 4
  let n := fieldAt b 8 4
  let st := fieldAt b 12 1
  if 2 < st ∨ count ≤ probe ∨ (n ≠ 0 ∧ p.inCount < first + n) then none
  else if st = 1 then some acc
  else if st = 2 then some (acc.1, true)
  else
    let gs := addToGroup (qordOf probe) first n (bit (fieldAt b 13 1) 0) acc.1
    if p.qcap < gs.length then none else some (gs, acc.2)

/-- All runs, or the index of the first bad one. -/
def takeRuns (p : SelectP) (count : Nat) (qordOf : Nat → Nat) : List (List Byte) → Nat → List Group × Bool → Except Nat (List Group × Bool)
  | [], _, acc => .ok acc
  | b :: rest, i, acc => match takeRun p count qordOf b acc with
    | none => .error i
    | some acc => takeRuns p count qordOf rest (i + 1) acc

/-- The candidates a list takes: K, or what a widened look still wants when the list reads its records (R198). -/
def selectK (d : Dev) (p : SelectP) (x : Ctx) (g : Group) : Nat :=
  if g.reads.any (·.2) then min p.k ((d.wanted x.cohort g.qord).getD p.k) else p.k

/-- One list of a SELECT (R155 to R159); stage 2 ranks the centroids with it (R197). The positions REST_SUM runs over are those of the records that the list reads (log entry 132). -/
def selectOne (p : SelectP) (x : Ctx) (raw : List Byte) (poison : Bool) (g : Group) (q : Nat) (s : State) : State × Nat :=
  let recs := g.reads.map fun (i, w) => recParse i w ((raw.drop (16 * i)).take 16)
  let cs := recs.filterMap Rec.toCand
  let nans := recs.countP (· = .nan)
  let (chosen, passes) := selectTop (selectK s.dev p x g) cs
  let kept := chosen.map (·.pos)
  let rest := treeSum (recs.map fun r => match r with | .cand c => if kept.contains c.pos then 0 else c.score | _ => 0)
  let (bs, ties) := listBytes p.k chosen rest (tieCount p.k chosen cs) g.qord 0 nans
  let s := s.useScratch x.c p.scratch (8 * p.inCount) poison
  let s := s.locWrite x.c ((locOf x.c p.outAddr).plus (q * (32 + 16 * p.k))) bs poison
  (s.onDev fun d => ((d.countList x.c passes cs.length nans (p.k - chosen.length) ties).selectNan x nans).noteRanks x g.qord (chosen.map (·.id)),
   listCycles g.reads.length p.k passes)

/-- The lists of a SELECT from the resumed one on. A poisoned record that one of the lists written reads poisons every one of them (R94, R166). -/
def selectLists (p : SelectP) (x : Ctx) (raw : List Byte) (poison : Bool) (gs : List Group) (s : State) : State × Option (List Nat) :=
  let first := x.resume.headD 0
  let run (bad : Bool) : State × Nat :=
    listUnits x.hdr (fun s q => selectOne p x raw bad (gs.getD q ⟨0, []⟩) q s) (gs.length - first) first 0 s
  let named := ((gs.drop first).take ((run poison).2 - first)).flatMap (·.reads)
  let read := named.any fun r => (s.locRead x.c ((locOf x.c p.inAddr).plus (16 * r.1)) 16).2
  listEnd x gs.length (run (poison || read))

/-- SELECT over one list of records (R160). -/
def selectRecordsRun (p : SelectP) (x : Ctx) (s : State) : State × Option (List Nat) :=
  let raw := (s.locRead x.c (locOf x.c p.inAddr) (16 * p.inCount)).1
  selectLists p x raw false [⟨fieldAt raw 14 2, (List.range p.inCount).map fun i => (i, false)⟩] s

/-- SELECT over runs (R161, R170). -/
def selectRunsRun (p : SelectP) (x : Ctx) (s : State) : State × Option (List Nat) :=
  let raw := (s.locRead x.c (locOf x.c p.inAddr) (16 * p.inCount)).1
  let (runs, bad1) := s.locRead x.c (.store p.runAddr) (16 * p.runCount)
  let probe := columnBase x.c + p.probeAddr
  let (s, hb, bad2) := s.devUse x probe 16
  let count := fieldAt hb 0 4
  let bad3 := (chunks 16 runs).any fun r => decide (fieldAt r 0 2 < count) && (s.devRead (probe + 16 + 16 * fieldAt r 0 2) 16).2
  match takeRuns p count (fun i => s.devNat (probe + 20 + 16 * i) 2) (chunks 16 runs) 0 ([], false) with
  | .error i =>
    (s.onDev fun d => ((d.raise .selectBadRun x.src [(1, x.c), (2, x.hdr.index), (4, i)] true).putFlag (Reg.selStatusBadInput x.c) true).abandon x, none)
  | .ok (gs, missed) =>
    let s := if missed then s.onDev (·.missCohort x.cohort) else s
    selectLists p x raw (bad1 || bad2 || bad3) gs s

/-! ### MERGE -/

/-- A present input of a MERGE: its index, header fields and records. -/
structure Input where
  i : Nat
  n : Nat
  k : Nat
  rest : Nat
  tie : Nat
  qord : Nat
  flags : Nat
  missing : Nat
  nans : Nat
  recs : List Rec
  poison : Bool
  deriving DecidableEq, Repr

/-- What one table entry is: absent, absent because bad (and whether its header carried poison), or present (R163, R164). -/
inductive Entry where | absent (shards : Nat) | bad (shards : Nat) (poison : Bool) | present (x : Input)
  deriving DecidableEq, Repr

/-- Was poison read with the entry's list (R166)? -/
def Entry.poisoned : Entry → Bool
  | .absent _ => false
  | .bad _ p => p
  | .present x => x.poison

/-- One table entry and its list. A candidate's source position is its input and, within it, its place (R152). Byte 6 is read as it stands: a RECV
writes it, and a SELECT or MERGE, whose parameters name no entry, does not (log entry 133). -/
def readEntry (p : MergeP) (x : Ctx) (b : List Byte) (i : Nat) (s : State) : State × Entry :=
  let shards := fieldAt b 4 2
  let st := fieldAt b 6 1
  if st = 0 then (s, .absent shards) else if st != 1 then (s, .bad shards false) else
  let l := locOf x.c (fieldAt b 0 4)
  let (s, h, bad) := s.locUse x l 32
  let n := fieldAt h 0 4
  let k := fieldAt h 4 4
  if k < n ∨ 16 ≤ fieldAt h 22 2 ∨ fieldAt h 26 2 ≠ 0 ∨ k < p.k then (s, .bad shards bad) else
  let (s, body, bad') := s.locUse x (l.plus 32) (16 * n)
  let recs := (chunks 16 body).mapIdx fun j r => recParse (i * 2 ^ 32 + j) false r
  (s, .present { i, n, k, rest := fieldAt h 12 4, tie := fieldAt h 16 4, qord := fieldAt h 20 2, flags := fieldAt h 22 2,
                 missing := fieldAt h 24 2, nans := fieldAt h 28 4, recs, poison := bad || bad' })

/-- TIE_COUNT of a merge (R165). -/
def mergeTie (k : Nat) (chosen : List Cand) (ins : List Input) : Nat :=
  match chosen.getLast? with
  | none => 0
  | some t =>
    if chosen.length != k then 0 else
    let cs := ins.flatMap fun i => i.recs.filterMap Rec.toCand
    let extra := ins.map fun i =>
      let own := (i.recs.filterMap Rec.toCand).countP (·.key = t.key)
      let last := (i.recs.getD (i.k - 1) .pad).toCand
      if bit i.flags 0 && last.any (·.key = t.key) then i.tie - own else 0
    distinctIds (cs.filter (·.key = t.key)) + extra.sum

/-- One output list of a MERGE (R164, R165), and what it starts: the ranking of stage 2 and a widened look (R197, R198). -/
def mergeOne (p : MergeP) (x : Ctx) (tab : List Byte) (tabBad : Bool) (s : State) (q : Nat) : State × Nat :=
  let (s, es) := (List.range p.nin).foldl (fun (acc : State × List Entry) i =>
    let r := readEntry p x ((tab.drop (8 * (q * p.nin + i))).take 8) i acc.1
    (r.1, acc.2 ++ [r.2])) (s, [])
  let s := (es.zip (List.range es.length)).foldl (fun s (e, i) => match e with
    | .bad _ _ => s.onDev fun d => ((d.raise .mergeBadInput x.src [(1, x.c), (2, x.hdr.index), (2, q), (2, i)]).putFlag (Reg.selStatusBadInput x.c) true).bump (Ctr.chInputsAbsent x.c)
    | .absent _ => s.onDev (·.bump (Ctr.chInputsAbsent x.c))
    | .present _ => s) s
  let ins := es.filterMap fun e => match e with | .present i => some i | _ => none
  let u := (ins.map (·.n)).sum
  if p.scratchCap < u then
    (s.onDev fun d => ((d.raise .mergeOversize x.src [(1, x.c), (2, x.hdr.index), (2, q), (4, u)] true).putFlag (Reg.selStatusOversize x.c) true).missCohort x.cohort,
      listCycles u p.k {} + 4 * p.nin)
  else
    let cs := ins.flatMap fun i => i.recs.filterMap Rec.toCand
    let nans := (ins.map fun i => i.recs.countP (· = .nan)).sum
    let (chosen, passes) := selectTop p.k cs
    let kept := chosen.map (·.pos)
    let rests := es.map (fun e => match e with | .present i => i.rest | _ => 0)
      ++ ins.flatMap fun i => i.recs.map fun r => match r with | .cand c => if kept.contains c.pos then 0 else c.score | _ => 0
    let missing := (es.map fun e => match e with | .present i => i.missing | .absent n => n | .bad n _ => n).sum
    let qord := match ins with | i :: _ => i.qord | [] => (Config.mergeQord (x.hdr.index * 4096 + q)).toNat
    let poison := tabBad || es.any Entry.poisoned
    let (bs, ties) := listBytes p.k chosen (treeSum rests) (mergeTie p.k chosen ins) qord missing ((ins.map (·.nans)).sum + nans)
    let s := s.useScratch x.c p.scratch (8 * p.scratchCap) poison
    let s := s.locWrite x.c ((locOf x.c p.outAddr).plus (q * (32 + 16 * p.k))) bs poison
    let s := s.onDev fun d => ((d.countList x.c passes cs.length nans (p.k - chosen.length) ties).selectNan x nans).noteRanks x qord (chosen.map (·.id))
    let (d, widened) := s.dev.widenLook x qord chosen.length
    let s := { s with dev := d }
    (if widened then s.wideLook x.cohort else s, listCycles u p.k passes + 4 * p.nin)

/-- MERGE (R163 to R167): poison read from any input of the lists written poisons every one of them (R94). -/
def mergeRun (p : MergeP) (x : Ctx) (s : State) : State × Option (List Nat) :=
  let (tab, bad) := s.locRead x.c (.store p.tableAddr) (8 * p.nin * p.qcount)
  let first := x.resume.headD 0
  let run (poison : Bool) : State × Nat := listUnits x.hdr (mergeOne p x tab poison) (p.qcount - first) first 0 s
  let read := ((List.range (run bad).2).drop first).any fun q => (List.range p.nin).any fun i =>
    (readEntry p x ((tab.drop (8 * (q * p.nin + i))).take 8) i s).2.poisoned
  listEnd x p.qcount (run (bad || read))

/-! ### The commands -/

def execSelectRecords (c : Nat) (h : Hdr) (p : SelectP) (us : List Upset) (s : State) : Host.Outcome State Fault Refusal :=
  stepCmd c h (.selectRecords p) us (selectRecordsRun p) s

def execSelectRuns (c : Nat) (h : Hdr) (p : SelectP) (us : List Upset) (s : State) : Host.Outcome State Fault Refusal :=
  stepCmd c h (.selectRuns p) us (selectRunsRun p) s

def execMerge (c : Nat) (h : Hdr) (p : MergeP) (us : List Upset) (s : State) : Host.Outcome State Fault Refusal :=
  stepCmd c h (.merge p) us (mergeRun p) s

end Sys2Proof.Machine
end

