-- ==== Sys2Proof/Machine/Verify.lean ====
section
/-! DEFINITION. Loading and verifying plans: the header, the descriptors and slot indices, the digest and the signature
(02_epochs_and_plans.md R40 to R48, R70; 10_in_stack_processing.md R269; 13_fabric_links_and_transport.md R340). -/

namespace Sys2Proof.Machine

open Sys2Proof.Crypto

/-! ### Check 1: the header (R41) -/

/-- The byte offset of the first field of a header that is not as R41 says. -/
def headerBad (b : List Byte) : Option Nat :=
  let f (off n : Nat) : Nat := fieldAt b off n
  let slots := f 8 2
  let form := between 45 slots 495 && (slots + 5) % 5 = 0
  let zeros (lo n : Nat) : Option Nat := ((List.range n).find? fun i => f (lo + i) 1 != 0).map (lo + ·)
  if f 0 4 != 0x5A504C31 then some 0
  else if f 4 2 != 1 then some 4
  else if 2 < f 6 1 then some 6
  else if !between 1 (f 7 1) 16 then some 7
  else if !form then some 8
  else if slots < f 10 2 then some 10
  else if slots < f 10 2 + f 12 2 then some 12
  else if slots ≤ f 14 2 then some 14
  else if !between 1 (f 16 4) 65536 then some 16
  else if 7 < f 20 1 then some 20
  else (zeros 21 3).or (if 1 < f 160 1 then some 160 else zeros 161 351)

/-! ### Check 2: sections and descriptors (R40, R47, R48) -/

/-- The stack rows of a PIM step: stack, die mask, pair mask, the rows it names and the rows it writes, as (first, end). -/
structure PimTouch where
  stack : Nat
  dies : Nat
  pairs : Nat
  names : List (Nat × Nat)
  writes : List (Nat × Nat)
  deriving DecidableEq, Repr

def rangesMeet (xs ys : List (Nat × Nat)) : Bool := xs.any fun a => ys.any fun b => decide (a.1 < b.2) && decide (b.1 < a.2)

/-- Does one PIM step write rows that the other names (R269)? -/
def PimTouch.clash (a b : PimTouch) : Bool :=
  a.stack = b.stack && a.dies &&& b.dies != 0 && a.pairs &&& b.pairs != 0 && (rangesMeet a.writes b.names || rangesMeet b.writes a.names)

namespace State

/-- What a PIM step touches; a RUN's program is read where its step names it. -/
def pimTouch (s : State) (c : Nat) (st : Step) : Option PimTouch :=
  match st.params with
  | .pimRun p =>
    let prog := (s.devRead (columnBase c + p.progAddr) 1024).1
    let rows := [p.row0, p.row1, p.row2, p.row3]
    let of (ks : List Nat) : List (Nat × Nat) := (ks.map (pimRows prog rows p.count)).map fun (a, n) => (a, a + n)
    some ⟨p.stack, p.dieMask, p.pairMask, of (pimOperands prog), of ((List.range 4).filter (pimWrites prog))⟩
  | .pimSeal p => some ⟨p.stack, 0xFFFF, 0xFFFFFFFF, [(p.rowFirst, p.rowFirst + p.rowCount)], [(p.rowFirst, p.rowFirst + p.rowCount)]⟩
  | _ => none

/-- ROWk of an operand that a RUN's program leaves unused is 0, where a program stands at PROG_ADDR (R269; log entry 145). -/
def unusedRowsZero (s : State) (c : Nat) (st : Step) : Bool :=
  match st.params with
  | .pimRun p =>
    let (prog, poison) := s.devRead (columnBase c + p.progAddr) 1024
    (programBad (columnBase c + p.progAddr) prog poison).isSome
      || (List.range 4).all fun k => pimUsed prog k || [p.row0, p.row1, p.row2, p.row3].getD k 0 = 0
  | _ => true

/-- The PIM steps of the chambers below `c` in a bank. -/
def pimBelow (s : State) (bank c : Nat) : List PimTouch :=
  ((List.range c).filter (s.masked bank)).flatMap fun k =>
    ((List.range (s.slotEntry bank k 495)).filterMap fun i => (parseStep (s.descrBytes bank k i).1).bind (s.pimTouch k))

/-- What is wrong with a section's slot index (R40, R47): the first descriptor concerned, 0xFFFF for none. Which that is the model chooses: 8,176
for a total that exceeds it; the value of an entry at or beyond SLOT_COUNT before any other; the second of a pair that does not ascend
(log entry 128). -/
def indexBad (s : State) (bank c slots : Nat) : Option Nat :=
  let (area, bad) := s.devRead (bankBase bank c) 0x400
  let e (m : Nat) : Nat := fieldAt area (2 * m) 2
  let total := e 495
  let named := ((List.range 495).map e).filter (· != 0xFFFF)
  let late := ((List.range 495).filter (decide <| slots ≤ ·)).find? fun m => e m != 0xFFFF
  let fall := (named.zip (named.drop 1)).find? fun (a, b) => decide (b ≤ a)
  if bad then some 0xFFFF
  else if (area.drop 0x3E0).any (· != 0) then some 0xFFFF
  else if 8176 < total then some 8176
  else match late, fall, named.find? (decide <| total ≤ ·) with
    | some m, _, _ => some (e m)
    | none, some (_, b), _ => some b
    | none, none, some x => some x
    | none, none, none => if (total = 0 && named = []) || named.head? = some 0 then none else some 0

/-- Is descriptor `i` of a chamber's section as R46 and R47 say? Its bytes are those its fields spell, so every reserved byte and every field
that its case leaves unused is 0. -/
def descrOk (s : State) (bank c slots : Nat) (others : List PimTouch) (recvs : List (Nat × Nat × Nat)) (i : Nat) : Bool :=
  let (b, bad) := s.descrBytes bank c i
  match parseStep b with
  | none => false
  | some st =>
    let h := st.hdr
    let (first, till') := s.slotGroup bank c h.slot
    let rsv := s.hdrField bank 10 2
    let rsvEnd := rsv + s.hdrField bank 12 2
    !bad && encodeStep st = b && stepOk st && decide (h.stage < s.hdrField bank 7 1) && h.index = i && decide (h.deadline < slots)
      && decide (first ≤ i) && decide (i < till') && h.last = decide (i + 1 = till')
      && (match st.params with
        | .sump p => decide (rsv ≤ h.slot) && decide (h.slot + p.maxSlots ≤ rsvEnd)
        | .note p => decide (h.slot + p.span ≤ slots)
        | .recv p => decide (recvs.count (p.peer, p.srcChamber, p.tag) ≤ 1)
        | _ => true)
      && s.unusedRowsZero c st
      && (match s.pimTouch c st with
        | some t => !others.any t.clash
        | none => true)

/-- Check 2 on one chamber's section: the first descriptor that fails. -/
def sectionBad (s : State) (bank c : Nat) : Option Nat :=
  let slots := s.hdrField bank 8 2
  match s.indexBad bank c slots with
  | some i => some i
  | none =>
    let n := s.slotEntry bank c 495
    let recvs := (List.range n).filterMap fun i => match (parseStep (s.descrBytes bank c i).1).map Step.params with
      | some (Params.recv p) => some (p.peer, p.srcChamber, p.tag)
      | _ => none
    let others := s.pimBelow bank c
    (List.range n).find? fun i => !s.descrOk bank c slots others recvs i

/-- Check 2: the first chamber and descriptor that fail. -/
def stepsBad (s : State) (bank : Nat) : Option (Nat × Nat) :=
  (List.range 256).findSome? fun c => if s.masked bank c then (s.sectionBad bank c).map fun i => (c, i) else none

/-! ### Checks 3 and 4: digest and signature (R41, R42, R475) -/

/-- The 512 KiB areas of the masked chambers, in ascending chamber order, and whether any byte of them carries poison. -/
def bankAreas (s : State) (bank : Nat) : List Byte × Bool :=
  (List.range 256).foldl (fun (acc : List Byte × Bool) c =>
    if s.masked bank c then
      let (b, bad) := s.devRead (bankBase bank c) 0x80000
      (acc.1 ++ b, acc.2 || bad)
    else acc) ([], false)

def digestOk (s : State) (bank : Nat) : Bool :=
  let (b, bad) := s.bankAreas bank
  !bad && sha256 b = ((s.hdrBytes bank).drop 64).take 32

/-- The key SIGNER names: the vendor key of the running image, or the operator key, if one is loaded for plans. -/
def signerKey (s : State) (signer : Nat) : List Byte := if signer = 0 then s.dev.boot.vendorKey else s.dev.boot.operKey

/-- A signature of a 64-byte key over a message (R472). -/
def sigOk (key msg sig : List Byte) : Bool := key.length = 64 && ecdsaVerify (beNat (key.take 32)) (beNat (key.drop 32)) msg sig

def bankSigOk (s : State) (bank : Nat) : Bool :=
  let h := s.hdrBytes bank
  sigOk (s.signerKey (fieldAt h 160 1)) (h.take 96) ((h.drop 96).take 64)

/-! ### VERIFY and its end -/

/-- VERIFY of the inactive bank starts; of the active bank it has no effect (R42). -/
def startVerify (s : State) (bank : Nat) : State :=
  if bank = s.dev.activeBank ∨ 1 < bank then s else
  s.onDev fun d =>
    ((((d.putFlag (Reg.plnStatusVerifying bank) true).putFlag (Reg.plnStatusHdrFail bank) false).putFlag (Reg.plnStatusStepFail bank) false).putFlag
      (Reg.plnStatusDigestFail bank) false).putFlag (Reg.plnStatusSigFail bank) false

/-- The four checks, in order: the first that fails sets its status bit and raises its fault; a bank that passes them all is VALID (R42). -/
def runChecks (s : State) (bank : Nat) : State :=
  let id := s.hdrField bank 24 8
  let fail (f : Field) (code : FaultCode) (items : List (Nat × Nat)) (s : State) : State :=
    s.onDev fun d => (((d.putFlag f true).putFlag (Reg.plnStatusValid bank) false).raise code Dev.srcLantern ((1, bank) :: items))
  let s := s.onDev fun d => (d.putFlag (Reg.plnStatusVerifying bank) false).put (Reg.plnStatusSlotCount bank) (s.hdrField bank 8 2)
  match headerBad (s.hdrBytes bank) with
  | some off => fail (Reg.plnStatusHdrFail bank) .planHdrFail [(2, off)] s
  | none =>
    match s.stepsBad bank with
    | some (c, i) =>
      fail (Reg.plnStatusStepFail bank) .planBadStep [(1, c), (2, i)] (s.onDev (·.put Reg.plnFailIndex (c * 65536 + i)))
    | none =>
      if !s.digestOk bank then fail (Reg.plnStatusDigestFail bank) .planDigestFail [(8, id)] s
      else if !s.bankSigOk bank then fail (Reg.plnStatusSigFail bank) .planSigFail [(8, id), (1, s.hdrField bank 160 1)] s
      else s.onDev (·.putFlag (Reg.plnStatusValid bank) true)

/-- PLN_STATUS bits [5:0] of a bank (R406). -/
def planStatus (s : State) (bank : Nat) : Nat :=
  s.dev.rd (Reg.plnStatusValid bank) + 2 * s.dev.rd (Reg.plnStatusVerifying bank) + 4 * s.dev.rd (Reg.plnStatusHdrFail bank)
    + 8 * s.dev.rd (Reg.plnStatusStepFail bank) + 16 * s.dev.rd (Reg.plnStatusDigestFail bank) + 32 * s.dev.rd (Reg.plnStatusSigFail bank)

/-- ARM is written: 1 begins an arming, 0 ends one (R43, R45). -/
def arm (s : State) (v : Bool) : State :=
  s.onDev fun d => { (d.putFlag Reg.plnCtrlArm v) with epc := { d.epc with
    saidNotReady := false, saidMismatch := false, armedIn := if v && d.running then some d.epoch else none } }

/-- The checks of a bank end: they judge the bank and its header as they stand now, and a write to the bank while they ran did not stop them
(log entry 128). A PLAN_SUPPLY entry then completes with the bank's status, and the switch is armed when the bank is VALID (R404, R406). -/
def verifyEnd (s : State) (bank : Nat) : State :=
  if !s.dev.flag (Reg.plnStatusVerifying bank) || decide (1 < bank) then s else
  let s := s.runChecks bank
  match s.dev.host.plan with
  | none => s
  | some e =>
    let st := s.planStatus bank
    let s := if s.dev.flag (Reg.plnStatusValid bank) then
        (s.onDev fun d => d.put Reg.plnSwitchEpoch d.host.planEpoch).arm true else s
    s.onDev fun d => { d with host := { d.host with plan := none, ended := d.host.ended ++ [Dev.endEntry e 0 st 0] } }

/-- Bytes written to a bank's header window or, for a chamber, its area; any write clears VALID. -/
def putBank (s : State) (bank : Nat) (chamber : Option Nat) (off : Nat) (bs : List Byte) (poison : Bool) : State :=
  let s := match chamber with
    | some c => s.devWrite (bankBase bank c + off) bs poison
    | none => s.onMem (·.store .hdr (bank * 512 + off) bs false)
  s.onDev fun d => (d.putFlag (Reg.plnStatusValid bank) false).put (Reg.plnStatusSlotCount bank) (s.hdrField bank 8 2)

/-- A write to a bank by Lantern or a host: to the active bank it is discarded, with PLAN_WRITE_ACTIVE (R42). For a header window the record's
address is the BAR0 offset of the byte, in the five bytes of a device address (log entry 128). -/
def writeBank (s : State) (bank : Nat) (chamber : Option Nat) (off : Nat) (bs : List Byte) (poison : Bool) : State :=
  let fits := match chamber with
    | some c => decide (c < 256) && decide (off + bs.length ≤ 0x80000)
    | none => decide (off + bs.length ≤ 512)
  if 1 < bank ∨ !fits then s
  else if bank = s.dev.activeBank then
    let a := match chamber with | some c => bankBase bank c + off | none => 0x21000 + 512 * bank + off
    s.onDev (·.raise .planWriteActive Dev.srcLantern [(1, bank), (5, a)])
  else s.putBank bank chamber off bs poison

/-- A plan, header first, then the area of each chamber its mask names (R404, R470). -/
def putPlan (s : State) (bank : Nat) (bs : List Byte) : State :=
  let s := s.putBank bank none 0 (padTo 512 bs) false
  ((List.range 256).filter (s.masked bank)).zipIdx.foldl (fun s (c, i) => s.putBank bank (some c) 0 ((bs.drop (512 + 0x80000 * i)).take 0x80000) false) s

end State

/-! ### The commands -/

/-- PLAN_ARM: a write of PLN_CTRL.ARM. -/
def execPlanArm (v : Bool) (s : State) : Host.Outcome State Fault Refusal := done (s.arm v)

/-- VERIFY of a bank. -/
def execVerify (bank : Nat) (s : State) : Host.Outcome State Fault Refusal := done (s.startVerify bank)

/-- PLAN_VERIFY_COMPLETE of a bank. -/
def execPlanVerifyComplete (bank : Nat) (s : State) : Host.Outcome State Fault Refusal := done (s.verifyEnd bank)

/-- INVALIDATE: VALID of an inactive bank clears (R70). -/
def execInvalidate (bank : Nat) (s : State) : Host.Outcome State Fault Refusal :=
  devOnly s fun d => if bank = d.activeBank ∨ 1 < bank then d else d.putFlag (Reg.plnStatusValid bank) false

/-- PLAN_BANK_WRITE: bytes for a bank's header window, or for the area of a chamber. -/
def execPlanBankWrite (bank : Nat) (chamber : Option Nat) (off : Nat) (bs : List Byte) (poison : Bool) (s : State) :
    Host.Outcome State Fault Refusal := done (s.writeBank bank chamber off bs poison)

end Sys2Proof.Machine
end

