-- ==== Sys2Proof/Machine/Hold.lean ====
section
/-! DEFINITION. The hold of R96: which store ranges, own-column ranges, registers, LUT pages and TIDs a step reads and writes, the matrix unit
of R132 and the stack ranges of R269, and whether a step waits for another. -/

namespace Sys2Proof.Machine

/-- What a hold is over: a place of the chamber, by kind. The matrix unit is one place, 0 (R132). -/
inductive Ground where | store | column | vreg | tid | page | matrix
  deriving DecidableEq, Repr

/-- The places `lo` to `lo + len - 1` of one kind. -/
structure Span where
  place : Ground
  lo : Nat
  len : Nat
  deriving DecidableEq, Repr

def Span.meets (a b : Span) : Bool := a.place = b.place && decide (a.lo < b.lo + b.len) && decide (b.lo < a.lo + a.len)

def Area.span (a : Area) : Span := ⟨if a.column then .column else .store, a.off, a.len⟩

/-- What a step reads and writes. -/
structure Touch where
  reads : List Span := []
  writes : List Span := []
  stack : Option PimTouch := none
  deriving DecidableEq, Repr

def meet (xs ys : List Span) : Bool := xs.any fun a => ys.any a.meets

/-- Does `new` wait for `old` (R96, R132, R269): the older step writes what the newer reads or writes, or reads what it writes? -/
def Touch.blocks (old new : Touch) : Bool :=
  meet old.writes (new.reads ++ new.writes) || meet old.reads new.writes
    || (match old.stack, new.stack with | some a, some b => a.clash b | _, _ => false)

def reg (r : Nat) : Span := ⟨.vreg, r, 1⟩
def tids (t n : Nat) : Span := ⟨.tid, t, n⟩
def pages (first n : Nat) : Span := ⟨.page, first, n⟩
def matrixUnit : Span := ⟨.matrix, 0, 1⟩

/-- The part of a device range that lies in a chamber's own column, as a column offset. -/
def ownRange (c a n : Nat) : List Span := if a / 0x4000000 = c then [⟨.column, a % 0x4000000, n⟩] else []

/-- The directory's pages of a TID. -/
def tablePlaces (d : Dev) (c tid : Nat) : List Span :=
  tids tid 1 :: match d.table c tid with | some e => [pages e.first e.pages] | none => []

namespace State

/-- Ranges of a list's structures in the chamber's own column: its head, segment descriptor table, overlay and side list. -/
def listSpans (s : State) (c list : Nat) : List Span :=
  match s.readHead list with
  | .error _ => ownRange c (s.headAddr list) 64
  | .ok (h, _) =>
    ownRange c (s.headAddr list) 64 ++ ownRange c (s.segDescAddr h 0) (32 * h.ords) ++ ownRange c (s.ovlAddr h) (8 * h.ovlCount)
      ++ ownRange c (columnBase h.home + h.side) (2 ^ h.sideLog * sideSize s.codeBytes)

/-- SCAN: its probe list, the tables and lists of the entries it takes, and its outputs. -/
def scanTouch (s : State) (c : Nat) (p : ScanP) (resume : List Nat) : Touch :=
  let a := columnBase c + p.probeAddr
  let count := s.devNat a 4
  let first := max p.probeFirst (resume.headD 0)
  let entries := (List.range (min (p.probeFirst + p.probeLimit) count - first)).map fun i => (s.devRead (a + 16 + 16 * (first + i)) 16).1
  { reads := ⟨.column, p.probeAddr, 16 + 16 * count⟩ :: entries.flatMap (fun b => tablePlaces s.dev c (bits (fieldAt b 6 1) 0 6))
      ++ (entries.map fun b => bits (fieldAt b 0 4) 0 20).eraseDups.flatMap (s.listSpans c),
    writes := [(storeArea p.recAddr (16 * p.recCap)).span, (storeArea p.runAddr (16 * p.runCap)).span] }

/-- BUILD: its quantiser with what that names in the column, its vectors, and the tables it writes. -/
def buildTouch (s : State) (c : Nat) (p : BuildP) : Touch :=
  let q := quantParse (s.devRead (columnBase c + p.quantAddr) 64).1
  let named := if isPq q.fmt then [⟨.column, q.codebook, q.v * q.d * 2⟩, ⟨.column, q.normAddr, if q.norms then 4 * q.m * q.v else 0⟩] else []
  { reads := [⟨.column, p.quantAddr, 64⟩, ⟨.column, q.scaleAddr, 4 * q.d⟩, ⟨.store, p.vecAddr, 4 * q.d * p.ntables⟩] ++ named,
    writes := [tids p.tidFirst p.ntables, pages p.pageFirst (p.ntables * tablePages q.t q.v p.width)] ++ if isPq q.fmt then [matrixUnit] else [] }

/-- MERGE: its input table and every list that it names. -/
def mergeTouch (s : State) (c : Nat) (p : MergeP) : Touch :=
  let n := p.nin * p.qcount
  let tab := (s.locRead c (.store p.tableAddr) (8 * n)).1
  let input (i : Nat) : Span :=
    let addr := fieldAt tab (8 * i) 4
    (areaOf addr (32 + 16 * s.locNat c (locOf c addr) 4)).span
  { reads := ⟨.store, p.tableAddr, 8 * n⟩ :: ((List.range n).filter fun i => fieldAt tab (8 * i + 6) 1 = 1).map input,
    writes := [(areaOf p.outAddr (p.qcount * (32 + 16 * p.k))).span, ⟨.store, p.scratch, 8 * p.scratchCap⟩] }

/-- SELECT: its records, runs and probe list. -/
def selectTouch (s : State) (c : Nat) (runs : Bool) (p : SelectP) : Touch :=
  { reads := (areaOf p.inAddr (16 * p.inCount)).span :: (if runs then
      [⟨.store, p.runAddr, 16 * p.runCount⟩, ⟨.column, p.probeAddr, 16 + 16 * s.devNat (columnBase c + p.probeAddr) 4⟩] else []),
    writes := [(areaOf p.outAddr (p.qcap * (32 + 16 * p.k))).span, ⟨.store, p.scratch, 8 * p.inCount⟩] }

/-- GATHER: indices, snapshot word and boxes. -/
def gatherTouch (s : State) (c : Nat) (op : GatherOp) (p : GatherP) (cohort : Nat) : Touch :=
  let row := 64 * p.rowUnits
  let ref : List Span := if bit p.mode 0 then [(areaOf p.refAddr (4 * p.count)).span] else []
  let n := s.locNat c ((locOf c p.idxAddr).plus 4) 2
  let boxN := s.devNat (columnBase c + p.boxAddr + 4) 2
  let out := [(areaOf p.outAddr (row * p.outCap)).span, (areaOf p.statusAddr p.count).span]
  match op with
  | .fetch => { reads := [(areaOf p.idxAddr (8 * p.count)).span, ⟨.column, p.snapAddr, 8⟩], writes := out ++ ref }
  | .split =>
    { reads := [(areaOf p.idxAddr (8 * p.count)).span, ⟨.column, p.snapAddr, 8⟩],
      writes := out ++ ref ++ [⟨.column, p.boxAddr, boxStride p.pairCap * 2 * ((s.routingMap cohort).map mapMembers).getD 0⟩] }
  | .serve => { reads := [(areaOf p.idxAddr (32 + 8 * n)).span], writes := [(areaOf p.outAddr (32 + roundUp n 64 + row * n)).span] }
  | .fill => { reads := [(areaOf p.idxAddr (8 * p.count)).span, ⟨.column, p.boxAddr, 32 + roundUp boxN 64 + row * boxN⟩] ++ ref, writes := out }

/-- Registers and ranges of a VECOP. -/
def vecTouch (op : VecOp) (p : VecopP) : Touch :=
  let mem := (areaOf p.addr (4 * p.count)).span
  match op with
  | .vLoad => { reads := [mem], writes := [reg p.dst] }
  | .vStore => { reads := [reg p.srcA], writes := [mem] }
  | .vBroadcast => { writes := [reg p.dst] }
  | .vAbs | .vNeg | .vSumr | .vMaxr | .vMinr => { reads := [reg p.srcA], writes := [reg p.dst] }
  | .vFma | .vSelect => { reads := [reg p.srcA, reg p.srcB, reg p.srcC], writes := [reg p.dst] }
  | .vAdd | .vSub | .vMul | .vFmas | .vMax | .vMin | .vAnd | .vOr | .vXor | .vShl | .vShra | .vCmpgt =>
    { reads := [reg p.srcA, reg p.srcB], writes := [reg p.dst] }

/-- A memory image a LOAD reads, and the table it makes. -/
def loadTouch (s : State) (c : Nat) (p : LoadP) : Touch :=
  let head := (s.devRead (columnBase c + p.imgAddr) 64).1
  match imageEntry head p.pageFirst with
  | some e => { reads := [⟨.column, p.imgAddr, 64 + e.bytes⟩], writes := [tids p.tid 1, pages e.first e.pages] }
  | none => { reads := [⟨.column, p.imgAddr, 64⟩], writes := [tids p.tid 1] }

/-- What a step touches as it stands at its issue: the ranges its descriptor names, and those that stored data name (R96, R132, R269). -/
def touch (s : State) (c : Nat) (st : Step) (origin : Nat) (resume : List Nat) : Touch :=
  let op (addr n : Nat) : Span := (areaOf addr n).span
  match st.params with
  | .scan p => s.scanTouch c p resume
  | .build p => s.buildTouch c p
  | .score p =>
    let len := match s.dev.table c p.tid with | some e => codeLen e.fmt e.t | none => 1
    { reads := op p.codeAddr (p.count * len) :: op p.idAddr (8 * p.count) :: tablePlaces s.dev c p.tid, writes := [⟨.store, p.outAddr, 16 * p.count⟩] }
  | .save p =>
    let len := match s.dev.table c p.tid with | some e => e.bytes | none => 0
    { reads := tablePlaces s.dev c p.tid, writes := [⟨.column, p.imgAddr, 64 + len⟩] }
  | .load p => s.loadTouch c p
  | .matmul p =>
    { reads := [matAreaA p, matAreaB p, matScaleA p, matScaleB p].map Area.span ++ if bit p.flags 0 then [(matAreaC p).span] else [],
      writes := [(matAreaC p).span, (matScaleC p).span, matrixUnit] }
  | .vecop o p => vecTouch o p
  | .activate _ p => { reads := [reg p.src], writes := [reg p.dst] }
  | .convert p =>
    { reads := if bit p.flags 0 then [reg p.reg] else [op p.srcAddr (flatBytes p.fmtSrc p.count), (scaleArea p.srcScale p.fmtSrc p.count).span],
      writes := if bit p.flags 1 then [reg p.reg] else [op p.dstAddr (flatBytes p.fmtDst p.count), (scaleArea p.dstScale p.fmtDst p.count).span] }
  | .selectRecords p => s.selectTouch c false p
  | .selectRuns p => s.selectTouch c true p
  | .merge p => s.mergeTouch c p
  | .gather o p => s.gatherTouch c o p (cohortOf origin st.hdr.stage)
  | .scatter p => { reads := [op p.idxAddr (8 * p.count), op p.srcAddr (64 * p.rowUnits * p.count), op p.ordAddr (2 * p.count)] }
  | .send p => { reads := [op p.srcAddr p.length] }
  | .recv p => { writes := [op p.dstAddr p.cap, ⟨.store, p.resultAddr, 16⟩] ++ if p.entryAddr = 0 then [] else [⟨.store, p.entryAddr, 8⟩] }
  | .pimRun p => { reads := [⟨.column, p.progAddr, 1024⟩], stack := s.pimTouch c st }
  | .pimSeal _ => { stack := s.pimTouch c st }
  | .flashRead p => { reads := [op p.listAddr (16 * p.count)], writes := [op p.dstAddr p.dstCap, op p.statusAddr p.count] }
  | .flashWrite p => { reads := [op p.srcAddr (p.pages * 16384)] }
  | .checkRange p =>
    { reads := ownRange c p.addr p.length ++ if p.fromTap = 1 then [] else [op p.expectAddr 8], writes := [op p.resultAddr 16] }
  | .checkTapval p => { reads := [op p.expectAddr 8], writes := [op p.resultAddr 16] }
  | .checkWeight p => { writes := [op p.resultAddr 16] }
  | .note _ | .sump _ => {}

/-- The place of a step in the order of the hold: steps of the present epoch by INDEX, then sump entries by INDEX. -/
def holdRank (s : State) (st : Step) (origin : Nat) (entry : Bool) : Nat :=
  (if entry || origin != s.dev.epoch then 65536 else 0) + st.hdr.index

/-- Does a step that comes to issue wait under R96 for one that came to issue before it in its chamber and is not complete (log entry 39)? -/
def holdsBack (s : State) (c : Nat) (st : Step) (origin : Nat) (entry : Bool) (resume : List Nat) : Bool :=
  s.dev.seq.inflight.any fun g => g.chamber = c
    && decide (s.holdRank g.step g.origin g.sumpLast.isSome < s.holdRank st origin entry)
    && (s.touch c g.step g.origin g.resume).blocks (s.touch c st origin resume)

end State

end Sys2Proof.Machine
end

