-- ==== Sys2Proof/Machine/Sample.lean ====
section
/-! DEFINITION. The sample scan: exact answers from the exact sample (07_lists_updates_visibility.md R200, R201; log entry 142). -/

namespace Sys2Proof.Machine

open Sys2Proof.Fp

/-- The re-rank score of a stored INT8 vector for a query's FP32 vector, as INT8 under R82, with INT32 accumulation: larger is better. -/
def rerankScore (metric : Nat) (query : List Nat) (item : List Byte) : Nat :=
  let q := query.map fun b => ofInt (toSigned 8 (toIntFmt 8 (f32 b)).1)
  let v := item.map fun b => ofInt (toSigned 8 b.toNat)
  let dot (a b : List Value) : Int := (intDot 0 a b).1
  let i : Int :=
    if metric = 1 then let d := (q.zip v).map fun (x, y) => ofInt (intOf x - intOf y); -(dot d d)
    else if metric = 3 then -((query.zip item).map fun (x, b) => (popcount 8 (Nat.xor ((toIntFmt 8 (f32 x)).1) b.toNat) : Int)).sum
    else dot q v
  to32 (ofInt i)

/-- A copy of the exact sample (R200). -/
structure SampleCopy where
  entry : SideEntry
  valid : Bool
  vector : List Byte
  poison : Bool
  deriving DecidableEq, Repr

namespace State

/-- Copy `k` of sample slot `i` for vectors of `d` dimensions. -/
def sampleCopy (s : State) (d i k : Nat) : SampleCopy :=
  let (b, bad) := s.devRead (s.dev.val Reg.sampleBase + i * (2 * sampleSize d) + k * sampleSize d) (64 + d)
  let fl := fieldAt b 16 1
  { entry := { id := fieldAt b 0 8, commit := fieldAt b 8 4, del := fieldAt b 12 4, deleted := bit fl 1, mask := [] },
    valid := bit fl 0, vector := b.drop 64, poison := bad }

/-- Is a copy VALID, and visible at a snapshot under the side-entry rules of R188? -/
def sampleVisible (c : SampleCopy) (snap : Nat) : Bool :=
  c.valid && wrapLe c.entry.commit snap && !(c.entry.deleted && wrapLe c.entry.del snap)

/-- The owner of a sampled item: the tenant of the list that its map entry names. -/
def itemTenant (s : State) (id : Nat) : Nat := (s.headOf (s.itemLoc id).list).tenant

/-- The candidates of one EXACT query: the copies of its tenant's items that are visible at its snapshot, scored; and whether poison was read. -/
def sampleCands (s : State) (r : Request) (snap : Nat) : List Cand × Bool :=
  let d := fieldAt r.body 18 2
  let query := words32 ((r.body.drop 24).take (4 * d))
  let slots := ceilDiv (s.dev.val Reg.itemMapItems) (2 ^ s.dev.val Reg.idxSampleSampleLog2)
  let copies := ((List.range slots).flatMap fun i => [(2 * i, s.sampleCopy d i 0), (2 * i + 1, s.sampleCopy d i 1)]).filter fun x =>
    sampleVisible x.2 snap && s.itemTenant x.2.entry.id = r.tenant
  (copies.filterMap fun (pos, c) =>
    let score := rerankScore (fieldAt r.body 10 1) query c.vector
    (scoreKey score).map fun key => { key, id := c.entry.id, pos, score, flags := 0, aux := 0 },
   copies.any (·.2.poison))

/-- The sample scan of a cohort: a list of K for each of its EXACT queries in ascending QORD, one behind another (R201). -/
def sampleScan (s : State) (cohort : Nat) (p : ExactPlace) : State :=
  let qs : List (Request × Nat) := match s.dev.ingress.cohorts.find? (·.epoch = cohort) with
    | some c => (c.queries.zipIdx).filter fun x => bit (fieldAt x.1.body 11 1) 0
    | none => []
  if !(s.dev.on Reg.idxCtrlSampleEn && chamberOk p.chamber) then s else
  qs.zipIdx.foldl (fun s ((r, qord), i) =>
    let (cs, bad) := s.sampleCands r ((cohort + 2) % 2 ^ 32)
    let chosen := (selectTop p.k cs).1
    let kept := chosen.map (·.pos)
    let rest := treeSum (cs.map fun c => if kept.contains c.pos then 0 else c.score)
    let bs := (listBytes p.k chosen rest (tieCount p.k chosen cs) qord 0 0).1
    s.locWrite p.chamber (.store (p.off + i * (32 + 16 * p.k))) bs bad) s

end State

end Sys2Proof.Machine
end

