-- ==== Sys2Proof/Machine/Issue.lean ====
section
/-! DEFINITION. The chamber sequencers: slots and their times, issue, completion, SUMP steps and notes
(02_epochs_and_plans.md R32, R46 to R58, R60). -/

namespace Sys2Proof.Machine

/-- The last slot an in-flight step may use: its DEADLINE, or the last slot of the SUMP step that runs it (R57). -/
def InFlight.lastSlot (f : InFlight) : Nat := f.sumpLast.getD f.step.hdr.deadline

/-- Can the step be a slot miss: not a RECV, whose late data are lost (R342), nor a read in deadline mode (R250, R309)? -/
def InFlight.timed (f : InFlight) : Bool :=
  match f.step.params with
  | .recv _ => false
  | .flashRead p => !bit p.mode 0
  | _ => true

/-- What has become of the step that DEPENDS names (R49, R50, R52). -/
inductive DepState where | complete | inFlight | inSump | gone
  deriving DecidableEq, Repr

namespace Dev

def depState (d : Dev) (c origin dep : Nat) : DepState :=
  if dep = 0xFFFF then .complete
  else if d.seq.abandoned.contains (c, dep, origin) then .gone
  else if (d.ofChamber c origin).any fun f => f.step.hdr.index = dep then .inFlight
  else if (d.sumpOf c).any fun e => e.origin = origin && e.step.hdr.index = dep then .inSump
  else .complete

/-- CORE cycles from `t` to `till'` (in ns) at the present operating point (R50). -/
def cyclesTo (d : Dev) (t till' : Nat) : Nat := (till' - t) * d.coreMhz / 1000

/-- The steps of a chamber not yet issued, in INDEX order. -/
def unissued (d : Dev) (c : Nat) : List InFlight :=
  sortBy (fun a b : InFlight => decide (a.step.hdr.index < b.step.hdr.index)) (d.seq.inflight.filter fun f => f.chamber = c && !f.issued)

/-- A step leaves the sequencer for the sump (R50, R53). -/
def toSump (d : Dev) (f : InFlight) (reason : Nat) : Dev :=
  { d with seq := { d.seq with inflight := d.seq.inflight.erase f } }.sumpAppend
    { chamber := f.chamber, step := f.step, origin := f.origin, reason, resume := f.resume }

/-- A chamber is late, and LATE is set for the rest of the epoch (R51), which counts once in LATE_EPOCHS (R73). -/
def markLate (d : Dev) (c : Nat) : Dev :=
  let d := if d.flag Reg.epcStatusLate || d.epc.slotLate.isSome then d else d.bump Ctr.epcLateEpochs
  { (d.putFlag Reg.epcStatusLate true) with seq := { d.seq with late := if d.seq.late.contains c then d.seq.late else d.seq.late ++ [c] } }

/-- Has everything that a step handed to another controller come to an end? A read in deadline mode waits for nothing once it is late. -/
def settled (d : Dev) (c idx origin : Nat) : Bool :=
  !(d.fls.reads.any fun r => r.chamber = c && r.idx = idx && r.origin = origin && !r.late)
    && !(d.fls.progs.any fun r => r.chamber = c && r.idx = idx && r.origin = origin)
    && !(d.pim.queue.any fun r => r.chamber = c && r.idx = idx && r.origin = origin)
    && !(d.pim.held.any fun r => r.chamber = c && r.idx = idx && r.origin = origin)
    && !(d.fab.recvs.any fun r => r.chamber = c && r.idx = idx && r.origin = origin && !r.completed)

end Dev

namespace State

/-! ### Slots (R32, R60) -/

/-- The slot after the reserve run. -/
def rsvEnd (s : State) : Nat := s.rsvFirst + s.rsvCount

/-- The place of slot `m` in its epoch once the removed slots, the last of the reserve run, are left out. -/
def slotPlace (s : State) (m : Nat) : Nat :=
  let k := s.dev.epc.removed
  if s.rsvEnd ≤ m then m - k else min m (s.rsvEnd - k)

def slotRemoved (s : State) (m : Nat) : Bool := decide (s.rsvEnd - s.dev.epc.removed ≤ m) && decide (m < s.rsvEnd)

/-- TIME at the start and at the end of a slot of the present epoch; slot 0 alone starts late after an overrun (R37). -/
def slotStart (s : State) (m : Nat) : Nat :=
  s.dev.rd Reg.epcBoundary + 10000 + 2000 * s.slotPlace m + if m = 0 then s.dev.epc.slotLate.getD 0 else 0
def slotEnd (s : State) (m : Nat) : Nat := s.slotStart (m + 1)

/-- The slot that starts next. -/
def nextSlot (s : State) : Option Nat :=
  let m := match s.dev.epc.slot with | some m => m + 1 | none => 0
  let m := if s.slotRemoved m then s.rsvEnd else m
  if m < s.slotCount then some m else none

/-! ### Issue (R49, R50) -/

/-- Is a step of the chamber incomplete after the end of its last slot? -/
def overdue (s : State) (c t : Nat) : Bool :=
  s.dev.seq.inflight.any fun f => f.chamber = c && f.timed && decide (s.slotEnd f.lastSlot ≤ t)

/-- Does a step wait for a member to go down: does it stand for one that is not in the down set (R455)? -/
def standsBy (s : State) (f : InFlight) : Bool :=
  match f.stands with
  | none => false
  | some m => !(s.storedMap.any fun b => decide (m < mapMembers b) && s.dev.job.down.contains (memberNode b m))

/-- The member for which the plan has a step of a chamber stand. -/
def standsFor (ws : List Standby) (c idx : Nat) : Option Nat :=
  (ws.find? fun w => w.chamber = c && decide (w.first ≤ idx) && decide (idx ≤ w.last)).map (·.member)

/-- One step comes to issue; a standby step is skipped while its member is up, and counts as complete (R455). `held` names the slots whose group is held, by a DEPENDS (R49) or by the hold of R96; a late chamber keeps plan order
over all its groups (R51). -/
def issueOne (t : Nat) (acc : State × List Nat) (f : InFlight) : State × List Nat :=
  let (s, held) := acc
  let h := f.step.hdr
  if !s.dev.seq.inflight.contains f || held.contains h.slot || (s.dev.seq.late.contains f.chamber && held != []) then (s, held)
  else if s.standsBy f then (s.onDev fun d => { d with seq := { d.seq with inflight := d.seq.inflight.erase f } }, held)
  else match s.dev.depState f.chamber f.origin h.depends with
    | .inFlight => (s, held ++ [h.slot])
    | .gone => (s.onDev fun d => (d.abandonSteps f.chamber f.origin [h.index]).1, held)
    | .inSump => (s.onDev (·.toSump f 4), held)
    | .complete =>
      if s.holdsBack f.chamber f.step f.origin false f.resume then (s, held ++ [h.slot])
      else if h.sumpable && decide (s.dev.cyclesTo t (s.slotEnd h.deadline) < h.budget) then (s.onDev (·.toSump f 1), held)
      else (s.onDev fun d => { d with seq := { d.seq with inflight := d.seq.inflight.map fun g => if g = f then { f with issued := true } else g } }, held)

/-- A chamber issues what it can at `t`; it is late no longer once nothing waits and nothing is overdue. -/
def issueAll (s : State) (c t : Nat) : State :=
  let s := ((s.dev.unissued c).foldl (issueOne t) (s, [])).1
  let caught := s.dev.unissued c = [] && !s.overdue c t
  s.onDev fun d => { d with seq := { d.seq with late := if caught then d.seq.late.filter (· != c) else d.seq.late } }.showBusy c

/-- The steps of a slot's group in a chamber of the active plan. -/
def slotSteps (s : State) (c m : Nat) : List InFlight :=
  let (a, b) := s.slotGroup s.dev.activeBank c m
  (List.range (b - a)).filterMap fun i =>
    let (bs, bad) := s.descrBytes s.dev.activeBank c (a + i)
    if bad then none else (parseStep bs).map fun st =>
      { chamber := c, step := st, origin := s.dev.epoch, issued := false, executed := false, sumpLast := none, resume := [] }

/-- The looks of the slot: the probe lists of the first look of the cohort whose stage 2 this epoch is, the places of the widened ones, and the
sample scan of the cohort whose stage 3 this epoch is. -/
def lookWork (s : State) (w : IndexWork) : State :=
  let s := if w.wide = [] ∧ w.tids = [] then s else s.onDev fun d => { d with ingress := { d.ingress with wide := w.wide, tids := w.tids } }
  let s := if w.first = [] then s else s.firstLook (s.dev.epoch - 2) w.first
  match w.exact with
  | some p => s.sampleScan (s.dev.epoch - 3) p
  | none => s

/-- SLOT_START of slot `m` at `t`: the group of every chamber of the plan comes to issue; `work` is what the plan's steps of the slot do for the index
(R182, R197, R198, R201). -/
def slotBegin (s : State) (m t : Nat) (work : IndexWork) : State :=
  if !s.dev.running || s.nextSlot != some m || decide (t < s.slotStart m) then s else
  let s := s.onDev fun d => { (d.clock t) with epc := { d.epc with slot := some m, inCairn := false } }
  let s := if m = 0 then s.onDev Dev.mendMaps else s
  let cs := (List.range 256).filter (s.masked s.dev.activeBank)
  let s := cs.foldl (fun s c => if s.overdue c t then s.onDev (·.markLate c) else s) s
  let s := cs.foldl (fun s c =>
    let new := (s.slotSteps c m).map fun f => { f with stands := standsFor work.standby c f.step.hdr.index }
    s.onDev fun d => { d with seq := { d.seq with inflight := d.seq.inflight ++ new } }) s
  cs.foldl (fun s c => s.issueAll c t) ((s.stageOps work).lookWork work)

/-! ### SUMP steps (R56, R57) -/

/-- The SUMP step of a chamber that runs. -/
def sumpStep (s : State) (c : Nat) : Option (InFlight × SumpP) :=
  s.dev.seq.inflight.findSome? fun f =>
    match f.step.params with
    | .sump p => if f.chamber = c && f.issued && !f.executed && f.sumpLast.isNone && f.resume != [] then some (f, p) else none
    | _ => none

/-- The SUMP step starts its next entry, one after another, or stops. SUMP_OUT counts an entry as it starts, and again should it come back
unfinished and start anew (log entry 127). -/
def sumpNext (s : State) (c t : Nat) : State :=
  match s.sumpStep c with
  | none => s
  | some (f, p) =>
    if s.dev.seq.inflight.any fun g => g.chamber = c && g.sumpLast.isSome then s else
    let put (g : InFlight) (d : Dev) : Dev := { d with seq := { d.seq with inflight := d.seq.inflight.map fun x => if x = f then g else x } }
    let stop := s.onDev (put { f with executed := true })
    let last := f.step.hdr.slot + p.maxSlots - 1
    match s.dev.sumpOf c with
    | [] => stop
    | e :: _ =>
      if s.dev.depState c e.origin e.step.hdr.depends = .inFlight ∨ s.holdsBack c e.step e.origin true e.resume then s
      else if f.resume.headD 0 < p.maxEntries ∧ e.step.hdr.budget ≤ s.dev.cyclesTo t (s.slotEnd last) then
        s.onDev fun d =>
          let d := put { f with resume := [f.resume.headD 0 + 1] } d
          let g : InFlight :=
            { chamber := c, step := e.step, origin := e.origin, issued := true, executed := false, sumpLast := some last, resume := e.resume }
          let d := { d with seq := { d.seq with sump := d.seq.sump.erase e, inflight := d.seq.inflight ++ [g] } }
          ((d.bump (Ctr.chSumpOut c)).sumpDepths c).showBusy c
      else stop

/-- A SUMP step begins; one in the sump does nothing when it is run as an entry. -/
def sumpBegin (s : State) (c : Nat) (h : Hdr) (p : SumpP) : State :=
  let s := match s.dev.inFlight c h.index with
    | some _ => s
    | none =>
      let g : InFlight :=
        { chamber := c, step := ⟨h, .sump p⟩, origin := s.dev.epoch, issued := true, executed := false, sumpLast := none, resume := [] }
      s.onDev fun d => { d with seq := { d.seq with inflight := d.seq.inflight ++ [g] } }
  match s.dev.inFlight c h.index with
  | some f =>
    let g := if f.sumpLast.isSome then { f with executed := true } else { f with resume := [0] }
    (s.onDev fun d => { d with seq := { d.seq with inflight := d.seq.inflight.map fun x => if x = f then g else x } }).sumpNext c s.dev.now
  | none => s

/-! ### Completion (R49, R51, R57) -/

/-- A step whose work is done leaves its chamber, and its continuation joins the sump; after the end of its last slot, which `till'` gives, it is a slot miss. -/
def stepOver (s : State) (till' : Nat → Nat) (c idx origin : Nat) (e : StepEnd) : State :=
  let s := s.onDev (·.clock e.t)
  match s.dev.seq.inflight.find? fun f => f.chamber = c && f.step.hdr.index = idx && f.origin = origin && f.issued && f.executed with
    | none => s
    | some f =>
      if !s.dev.settled c idx origin then s else
      let missed := f.timed && decide (till' f.lastSlot < e.t)
      let s := s.onDev fun d =>
        let d := { d with seq := { d.seq with inflight := d.seq.inflight.erase f } }
        let d := ((d.meter f.step.hdr 0 e.cycles).bump (Ctr.chBankWait c) e.wait).bump Ctr.tierEstimatedSq8 e.sq8
        let d := (d.bump Ctr.tierEstimatedPq e.pq).bump Ctr.poolFallbackCandidates e.fallback
        let d := match f.rest with
          | some u => d.sumpAppend { chamber := c, step := f.step, origin, reason := 2, resume := u }
          | none => d
        if missed then (d.bump (Ctr.chSlotMiss c)).markLate c else d
      match f.step.params with
      | .merge p => if e.final then s.answers c (cohortOf origin f.step.hdr.stage) p else s
      | _ => s

/-- STEP_COMPLETE. What waited for the step comes to issue. -/
def stepEnd (s : State) (c idx origin : Nat) (e : StepEnd) : State :=
  let s := s.stepOver s.slotEnd c idx origin e
  if c < 256 then (s.sumpNext c e.t).issueAll c e.t else s

end State

/-! ### The commands -/

/-- SLOT_START. -/
def execSlotStart (m t : Nat) (work : IndexWork) (s : State) : Host.Outcome State Fault Refusal := done (s.slotBegin m t work)

/-- STEP_COMPLETE. -/
def execStepComplete (c idx origin : Nat) (e : StepEnd) (s : State) : Host.Outcome State Fault Refusal := done (s.stepEnd c idx origin e)

/-- SUMP. -/
def execSump (c : Nat) (h : Hdr) (p : SumpP) (us : List Upset) (s : State) : Host.Outcome State Fault Refusal :=
  if chamberOk c && stepOk ⟨h, .sump p⟩ then if s.dev.heldBack c h.index then done s else done ((s.upsets c h.index us).sumpBegin c h p)
  else devOnly s (·.raise .planBadStep Dev.srcLantern [(1, s.dev.rd Reg.plnCtrlActiveBank), (1, c), (2, h.index)])

/-- BARRIER_FREE_NOTE: the note is in force and complete (R58). One that issues after the end of its DEADLINE slot is a slot miss (R51). -/
def execBarrierFreeNote (c : Nat) (h : Hdr) (p : NoteP) (us : List Upset) (s : State) : Host.Outcome State Fault Refusal :=
  if chamberOk c && stepOk ⟨h, .note p⟩ then
    if s.dev.heldBack c h.index then done s else
    let late := match s.dev.inFlight c h.index with | some f => decide (s.slotEnd f.lastSlot < s.dev.now) | none => false
    let s := if late then s.onDev fun d => (d.bump (Ctr.chSlotMiss c)).markLate c else s
    let s := (s.upsets c h.index us).onDev fun d => { d with seq := { d.seq with
      notes := d.seq.notes ++ [⟨c, h.slot, p.span, p.kinds, p.currentPct⟩],
      inflight := match d.inFlight c h.index with | some f => d.seq.inflight.erase f | none => d.seq.inflight } }
    done (s.issueAll c s.dev.now)
  else devOnly s (·.raise .planBadStep Dev.srcLantern [(1, s.dev.rd Reg.plnCtrlActiveBank), (1, c), (2, h.index)])

/-- SEQ_TIMEOUT of a chamber's unit (R101, R447). -/
def execSeqTimeout (c unit' idx : Nat) (s : State) : Host.Outcome State Fault Refusal :=
  devOnly s fun d =>
    if 256 ≤ c then d else
    let d := d.raise .seqTimeout (Dev.srcGallery c) [(1, c), (1, unit'), (2, idx)]
    { d with seq := { d.seq with resetDue := if d.seq.resetDue.contains c then d.seq.resetDue else d.seq.resetDue ++ [c] } }

end Sys2Proof.Machine
end

