-- ==== Sys2Proof/Machine/Text.lean ====
section
/-! DEFINITION. Numbers as the Padon monitor prints them (20_padon_monitor.md R493). -/

namespace Sys2Proof.Machine

def hexDigit (n : Nat) : Char := Char.ofNat (if n < 10 then 48 + n else 55 + n)

/-- The low `k` hexadecimal digits of `n`, with an underscore before every four digits that follow others. -/
def hexDigits : Nat → Nat → List Char
  | 0, _ => []
  | k + 1, n => hexDigit (n / 16 ^ k % 16) :: (if k % 4 = 0 ∧ k ≠ 0 then '_' :: hexDigits k n else hexDigits k n)

/-- `n` with 0x, in `k` digits. -/
def hexText (k n : Nat) : String := String.ofList ('0' :: 'x' :: hexDigits k n)

/-- Bytes in hexadecimal, first byte first. -/
def hexBytes (bs : List Byte) : String := String.ofList (bs.flatMap fun b => [hexDigit (b.toNat / 16), hexDigit (b.toNat % 16)])

end Sys2Proof.Machine
end

