-- ==== Sys2Proof/Machine/Epoch.lean ====
section
/-! DEFINITION. The epoch generator: starting and stopping it, the boundary with its cairn actions, plan-bank switches, the sync input, and
snapshot points (02_epochs_and_plans.md R32 to R45, R52 to R60, R534; 19_start_configuration_identity.md R480, R483, R487; 20_padon_monitor.md R500, R501). -/

namespace Sys2Proof.Machine

namespace State

/-! ### Starting and stopping (R34, R35, R534) -/

/-- Does R480 permit READY to ACTIVE? -/
def mayStart (s : State) : Bool :=
  s.dev.inState stReady && !s.dev.flag Reg.btStatusIneligible && s.dev.flag (Reg.plnStatusValid s.dev.activeBank)

/-- ENABLE is written 1 at `t`. A START_TIME that has passed stands for the next whole µs. -/
def startGenerator (s : State) (t : Nat) : State :=
  let s := s.onDev (·.clock t)
  if s.dev.epc.monStep != 0 then s.onDev fun d => { d with epc := { d.epc with heldWrites := d.epc.heldWrites ++ [(0, 1)] } }
  else if !s.mayStart || s.dev.epc.startPending then s
  else s.onDev fun d =>
    let at' := d.rd Reg.epcStartTime
    let first := if d.flag Reg.epcCtrlStartOnSync then none else some (if at' < d.now then (d.now / 1000 + 1) * 1000 else at')
    let d := { d with epc := { d.epc with startPending := true, firstAt := first } }
    ((d.put Reg.epcCtrlEnable 1).putFlag Reg.glbStateChanging true).rampUp d.now

/-- The state commands that a transition in progress held back are considered, in the order of their writes (R480). -/
def runHeld (s : State) : State :=
  let held := s.dev.epc.heldWrites
  held.foldl (fun s x => s.stateCommand x.2 ⟨[], [], []⟩ []) (s.onDev fun d => { d with epc := { d.epc with heldWrites := [] } })

/-- ENABLE is written 0: a start is called off, or the stop is committed. -/
def stopGenerator (s : State) : State :=
  if s.dev.epc.monStep != 0 then s.onDev fun d => { d with epc := { d.epc with heldWrites := d.epc.heldWrites ++ [(0, 0)] } }
  else if s.dev.epc.startPending then (s.onDev fun d =>
    let d := { d with epc := { d.epc with startPending := false, firstAt := none }, power := { d.power with ramp := none } }
    (d.put Reg.epcCtrlEnable 0).putFlag Reg.glbStateChanging false).runHeld
  else if s.dev.running then s.onDev fun d =>
    ({ d with epc := { d.epc with stopPending := true } }.put Reg.epcCtrlEnable 0).putFlag Reg.glbStateChanging true
  else s

/-! ### Snapshot points (R38, R465, R483, R487) -/

/-- The measurements that change at snapshot points: 7, 8 and 9 of R487. -/
def measure (s : State) : State :=
  let digest (b : Nat) : List Byte := if s.dev.flag (Reg.plnStatusValid b) then ((s.hdrBytes b).drop 64).take 32 else List.replicate 32 0
  let nine := leBytes 1 s.dev.activeBank ++ ((s.hdrBytes s.dev.activeBank).drop 24).take 8
  s.onDev fun d => { d with spdm := { d.spdm with banks := [digest 0, digest 1, nine] } }

/-- The records held in BOOT and RECOVERY are written, oldest first, once the ring exists. -/
def flushHeld (s : State) : State :=
  if s.dev.booting || !s.dev.ringReady then s else
  s.onDev fun d => d.flt.boot.foldl (fun d r => (d.writeRecord r).1) { d with flt := { d.flt with boot := [] } }

/-- What happens at every snapshot point: the counters and the USED registers take their values (R38, R256). -/
def snapshotPoint (s : State) : State := ((s.onDev fun d => d.snapshot.showUsed).measure).flushHeld

/-- SNAPSHOT_POINT: every 1 ms while no epochs run. -/
def idleSnapshot (s : State) (t : Nat) : State :=
  if s.dev.running || s.dev.inState stSleep then s else (s.onDev (·.clock t)).snapshotPoint

/-! ### Plan-bank switches (R43 to R45) -/

/-- The length of an epoch with no sync offset, in ns. -/
def fullNs (s : State) : Nat := 10000 * s.dev.val Reg.epcLenLength

/-- Is a switch armed and due? A SWITCH_EPOCH before the epoch in which ARM was written stands for the next cairn (R43). -/
def switchDue (d : Dev) : Bool :=
  let e := d.rd Reg.plnSwitchEpoch
  let from' := match d.epc.armedIn with | some a => if e < a then a + 1 else e | none => e
  d.flag Reg.plnCtrlArm && decide (from' ≤ d.epoch)

/-- A switch, if one is armed for this epoch or an earlier one: made, or put off with its reason said once in an arming. -/
def bankSwitch (s : State) : State :=
  let d := s.dev
  let b := d.idleBank
  if !switchDue d || d.epc.switchedAt = some d.epoch then s
  else if !d.flag (Reg.plnStatusValid b) then
    if d.epc.saidNotReady then s else s.onDev fun d =>
      { (d.raise .planNotReady Dev.srcLantern [(8, d.rd Reg.plnSwitchEpoch)]) with epc := { d.epc with saidNotReady := true } }
  else
    let slots := s.hdrField b 8 2
    if !s.agrees slots .epcLen then
      s.onDev fun d =>
        let d := d.holdCouple .epcLen
        if d.epc.saidMismatch then d else
        { (d.raise .planLenMismatch Dev.srcLantern [(1, d.rd Reg.epcLenLength), (2, slots)]) with epc := { d.epc with saidMismatch := true } }
    else s.onDev fun d =>
      let d := ((d.adoptCouple .epcLen).applyAlone .bank).put Reg.plnCtrlActiveBank b
      let d := { d with epc := { d.epc with switchedAt := some d.epoch, saidNotReady := false, saidMismatch := false } }
      (d.putFlag Reg.plnCtrlArm false).bump Ctr.epcPlanSwitches

/-- The length of the epoch that has begun, with the offset and the removed slots of an edge accepted before its boundary (R60). -/
def setLength (s : State) : State :=
  let full := s.fullNs
  match s.dev.epc.syncNext with
  | none => s.onDev fun d => { d with epc := { d.epc with lenNs := full, removed := 0 } }.putFlag Reg.epcStatusSyncSeen false
  | some x =>
    let k := min s.rsvCount (ceilDiv x.natAbs 2000)
    s.onDev fun d => { d with epc := { d.epc with lenNs := ((full : Int) + x).toNat, removed := k, syncNext := none } }.putFlag Reg.epcStatusSyncSeen true

/-! ### The boundary (R36) -/

/-- TIME of the next boundary. -/
def nextBoundary (s : State) : Option Nat :=
  if s.dev.running then some (s.dev.rd Reg.epcBoundary + s.dev.epc.lenNs)
  else if s.dev.epc.startPending || s.dev.epc.monStep = 2 then s.dev.epc.firstAt
  else none

/-- The first boundary of a run: the generator runs, in ACTIVE, or in READY for a monitor step. -/
def firstEpoch (s : State) : State :=
  s.onDev fun d =>
    let d := { d with epc := { d.epc with switchedAt := none } }.putFlag Reg.epcStatusRunning true
    if d.epc.monStep = 2 then
      { (d.put Reg.epcNumber (d.epoch + 1)) with epc := { d.epc with monStep := 1, firstAt := none } }
    else
      let d := { d with epc := { d.epc with startPending := false, firstAt := none } }
      ((d.put Reg.epcNumber (d.rd Reg.epcStartNum)).enterState stActive).reissueSeals

/-- 0.000 µs: the number, the count, the snapshot, the copy of TIME; and what began anew with the epoch. -/
def openEpoch (s : State) (b rtc : Nat) : State :=
  let first := !s.dev.running
  let s := s.onDev fun d => ((d.clock b).tick rtc).put Reg.epcBoundary b
  let s := if first then s.firstEpoch else s.onDev fun d => d.put Reg.epcNumber (d.epoch + 1)
  let s := (s.onDev (·.bump Ctr.epcEpochs)).snapshotPoint
  let s := s.onDev fun d => if first then d.holdNow else d.holdNow.straggle
  s.onDev fun d =>
    let d := { d with epc := { d.epc with slot := none, slotLate := none, inCairn := true } }
    let d := d.putFlag Reg.epcStatusLate false
    { d with seq := { d.seq with late := [], notes := [], nanSaid := [] },
             tier := { d.tier with quotaSaid := [], copied := [] }, idx := { d.idx with sideSaid := [], ovlSaid := [] },
             host := { d.host with overflowSaid := [] } }

/-- A unit whose value disagreed repeatedly gives way to the lowest-numbered idle unit, which takes its tap with POLY 2 (R447). -/
def replaceUnits (s : State) : State :=
  s.onDev fun d =>
    let due := d.cvu.swapDue
    let d := { d with cvu := { d.cvu with swapDue := [] } }
    due.foldl (fun d (a, b, tap) =>
      let idle := (List.range 16).find? fun u => !d.flag (Reg.cvuCfgEnable u) && !bit (d.rd Reg.cvuSelftestFail) u
      let d := (d.put (Reg.cvuCfgEnable a) 0).put (Reg.cvuCfgEnable b) 0
      let d := match idle with
        | some u => ((d.put (Reg.cvuCfgEnable u) 1).put (Reg.cvuCfgTap u) tap).put (Reg.cvuCfgPoly u) 2
        | none => d
      { d with regs := { d.regs with touched := d.regs.touched ++ [.cvuCfg] } }) d

/-- 0.500 µs to 1.000 µs: operations become visible, with the rows they staged, and those that ended are reported. -/
def publishAll (s : State) : State :=
  let before := s.dev.idx.ended.length
  let s := s.publish
  let ok := (s.dev.idx.ended.drop before).map fun e => decide (e.2.1 < 0x10)
  (s.publishRows ok).onDev Dev.sendEnded

/-- What a step that ends unfinished had handed to other controllers is dropped. Answers where its work resumes. -/
def dropHanded (s : State) (f : InFlight) : State × List Nat :=
  let idx := f.step.hdr.index
  let (d, at') := s.dev.pimPause f.chamber f.origin idx
  let other (c i o : Nat) : Bool := !(c = f.chamber && i = idx && o = f.origin)
  ({ s with dev := { d with fls := { d.fls with reads := d.fls.reads.filter (fun r => other r.chamber r.idx r.origin),
                                                progs := d.fls.progs.filter fun r => other r.chamber r.idx r.origin } } },
    match at' with | some g => [g] | none => f.resume)

/-- 1.000 µs: the unfinished steps of a chamber go to the sump in INDEX order, or are abandoned with their dependants (R52, R57). -/
def resolve (s : State) (c : Nat) : State :=
  let before (a b : InFlight) : Bool :=
    decide (boolNat a.sumpLast.isSome < boolNat b.sumpLast.isSome)
      || (a.sumpLast.isSome = b.sumpLast.isSome && decide (a.step.hdr.index < b.step.hdr.index))
  let mine := sortBy before (s.dev.seq.inflight.filter fun f => f.chamber = c)
  if mine = [] then s else
  let (s, n, first) := mine.foldl (fun (acc : State × Nat × Option Nat) f =>
    let (s, n, first) := acc
    if !s.dev.seq.inflight.contains f then acc else
    let h := f.step.hdr
    let (s, resume) := s.dropHanded f
    let sumped (reason : Nat) : State := s.onDev fun d =>
      { d with seq := { d.seq with inflight := d.seq.inflight.erase f } }.sumpAppend { chamber := c, step := f.step, origin := f.origin, reason, resume }
    if s.dev.depState c f.origin h.depends = .inSump then (sumped 4, n, first)
    else if h.sumpable then (sumped 3, n, first)
    else
      let size (d : Dev) : Nat := d.seq.inflight.length + d.seq.sump.length
      let s' := s.onDev fun d => (d.abandonSteps c f.origin [h.index]).1
      (s', n + (size s.dev - size s'.dev), first.or (some h.index))) (s, 0, none)
  (match first with
    | some i => s.onDev (·.raise .slotOverrun (Dev.srcGallery c) [(1, c), (4, n), (2, i)] true)
    | none => s).onDev (·.showBusy c)

/-- The chambers to which the active plan gives a step. -/
def chambersWithSteps (s : State) : List Nat :=
  let mask := s.hdrField s.dev.activeBank 32 32
  (List.range 256).filter fun c => bit mask c && s.slotEntry s.dev.activeBank c 495 != 0

/-- The power domains of the chambers at a cairn (R23, R24): down where the plan that now runs gives the chamber no steps, its sump is empty and
nothing of it still executes; up where it has steps. What a chamber holds stays as it stands. -/
def powerChambers (s : State) : State :=
  let busy := s.chambersWithSteps
  let held := s.dev.seq.sump.map (·.chamber) ++ s.dev.seq.inflight.map (·.chamber)
  s.onDev fun d => { d with seq := { d.seq with
    off := (List.range 256).filter fun c => !busy.contains c && (d.seq.off.contains c || !held.contains c) } }

/-- A chamber is reset after SEQ_TIMEOUT (R447). -/
def resetChamber (s : State) (c : Nat) : State :=
  let s := s.onMem fun m => (m.clearRange .store (c * 0x200000) ((c + 1) * 0x200000)).clearRange .vreg (c * 65536) ((c + 1) * 65536)
  s.onDev fun d => ({ d with lutDir := d.lutDir.filter (·.1 / 64 != c), seq := { d.seq with sump := d.seq.sump.filter (·.chamber != c) } }.sumpDepths c).showTables c

/-- A table whose lookup met a parity error is loaded again from its saved image (R447). -/
def reloadTable (s : State) (c tid off : Nat) : State :=
  match s.dev.seq.lutDue.contains (c, tid), (s.dev.lutDir.find? (·.1 = c * 64 + tid)) with
  | true, some (_, e) => (loadRun { tid, pageFirst := e.first, imgAddr := off } ⟨c, Hdr.zero, s.dev.epoch, []⟩ s).1
  | _, _ => s

/-- 1.000 µs to 2.000 µs, and what else a cairn brings about in Lantern's tables (R120, R195, R213, R244, R253, R447). -/
def cairnRepairs (s : State) (i : CairnIn) : State :=
  let s := s.dropAllFolded.dropFoldedRows.freeAbandoned
  let s := if s.dev.tier.lostDue = [] then s else i.refs.foldl (fun s (a, bs) => s.devWrite a bs) s
  let s := i.images.foldl (fun s (c, tid, off) => s.reloadTable c tid off) s
  let s := s.dev.seq.resetDue.foldl resetChamber s
  s.onDev fun d =>
    { d.clearReloaded with tier := { d.clearReloaded.tier with lostDue := [] }, seq := { d.clearReloaded.seq with resetDue := [], lutDue := [], abandoned := [] } }

/-- The fields of the next plan-bank switch at the first boundary of a run without a switch (R483). -/
def firstFields (s : State) (first : Bool) : State :=
  if !first || s.dev.epc.switchedAt.isSome then s else (s.onDev (·.applyAlone .bank)).checkCouple .epcLen s.slotCount

/-- The cohorts whose last stage has run leave the pipeline, unless the sump still holds work of theirs (R39, R68). -/
def leaveCohorts (s : State) : State :=
  let n := s.planStages
  let stays (d : Dev) (c : Cohort) : Bool := decide (d.epoch < c.epoch + n) || d.seq.sump.any fun e => cohortOf e.origin e.step.hdr.stage = c.epoch
  s.onDev fun d => { d with ingress := { d.ingress with cohorts := d.ingress.cohorts.filter (stays d) } }

/-- What the controllers do at every cairn. -/
def controllersCairn (s : State) : State :=
  s.onDev fun d =>
    let d := (((d.fabricCairn.timeCairn).peerDups).dropShadows).stackCairn
    let d := (d.meterCairn).showSamples
    d.powerCairn

/-- 1.000 µs: an operating-point step begins once its START is reached (R419). -/
def cairnOpp (s : State) : State :=
  if s.dev.val Reg.pwrOppStart ≤ s.dev.epoch then s.onDev (·.oppStart s.minOpp) else s

/-- The end of a monitor step: its reply, and the writes it held back (R500, R501). -/
def endMonStep (s : State) : State :=
  let misses := ((List.range 256).map fun c => s.dev.count (Ctr.chSlotMiss c)).sum
  let held := s.dev.epc.heldWrites
  let s := s.onDev fun d =>
    let text := "OK " ++ hexText 16 (d.epoch - 1) ++ " " ++ hexText 1 (d.rd Reg.epcStatusLate) ++ " " ++ hexText 16 (misses - d.epc.missBase)
    { ((d.emit (.line text)).emit (.line "> ")) with epc := { d.epc with monStep := 0, heldWrites := [] } }
  held.foldl (fun s (k, v) =>
    if k = 1 then s.stateCommand v ⟨[], [], []⟩ [] else if v = 1 then s.startGenerator s.dev.now else s.stopGenerator) s

/-- The generator stops after its closing cairn: READY, with the cohorts in the pipeline missing (R35, R480, R534). -/
def closeEpochs (s : State) (late : Nat) : State :=
  let stop (d : Dev) : Dev :=
    { (((d.putFlag Reg.epcStatusRunning false).put Reg.epcStatusLate late)) with epc := { d.epc with stopPending := false, slot := none, syncNext := none } }
  if s.dev.epc.monStep = 1 then (s.onDev stop).endMonStep
  else if s.dev.epc.stopPending then (s.onDev fun d =>
    let left := d.ingress.cohorts.map (·.epoch)
    let d := left.foldl (fun d e => d.missCohort e) (stop d)
    (({ d with ingress := { d.ingress with cohorts := [] } }.enterState stReady).resetFabric).rampDown d.now).runHeld
  else s

/-- EPOCH_BOUNDARY: TIME has reached the next boundary, and the cairn actions run in their order. -/
def boundary (s : State) (i : CairnIn) : State :=
  match s.nextBoundary with
  | none => s
  | some b =>
    let late := s.dev.rd Reg.epcStatusLate
    let first := !s.dev.running
    let closing := s.dev.running && (s.dev.epc.stopPending || s.dev.epc.monStep = 1)
    let ends := s.slotEnd
    let s := s.openEpoch b i.rtc
    let s := s.onDev fun d => i.commits.foldl (fun d (p, x, y) => if x = y then d else d.commitMismatch p x y) d
    let s := (s.bankSwitch.firstFields first).setLength
    let s := s.replaceUnits.applyCairn.publishAll
    let s := i.ends.foldl (fun s (c, idx, origin, e) => s.stepOver ends c idx origin e) s
    let s := (((List.range 256).foldl resolve s).powerChambers).cairnRepairs i
    let s := s.leaveCohorts.cairnOpp.controllersCairn
    if closing then s.closeEpochs late else if first && s.dev.epc.monStep = 0 then s.runHeld else s

/-! ### Within an epoch -/

/-- CAIRN_OVERRUN: slot 0 starts late by `excess` ns, and the epoch is counted once (R37, R73). -/
def overrun (s : State) (excess : Nat) : State :=
  if !s.dev.running || s.dev.epc.slot.isSome || s.dev.epc.slotLate.isSome then s else
  s.onDev fun d =>
    let d := if d.flag Reg.epcStatusLate then d else d.bump Ctr.epcLateEpochs
    { (d.raise .cairnOverrun Dev.srcLantern [(8, d.epoch), (4, excess)]) with epc := { d.epc with slotLate := some excess } }

/-- A switch that becomes possible within the first 0.500 µs of a cairn (R36, R43). -/
def lateSwitch (s : State) : State :=
  if !s.dev.epc.inCairn || decide (s.dev.rd Reg.epcBoundary + 500 < s.dev.now) || s.dev.epc.switchedAt = some s.dev.epoch then s
  else
    let s := s.bankSwitch
    if s.dev.epc.switchedAt = some s.dev.epoch then
      let x : Int := if s.dev.flag Reg.epcStatusSyncSeen then toSigned 32 (s.dev.rd Reg.epcSyncOffset) else 0
      s.onDev fun d => { d with epc := { d.epc with lenNs := ((s.fullNs : Int) + x).toNat } }
    else s

/-- SUMP_ENTRY_EXPIRE: at a cairn the expired entries leave each sump with all that depend on them (R54). `background` names the entries that
are background work, as (chamber, INDEX, origin epoch). -/
def expire (s : State) (background : List (Nat × Nat × Nat)) : State :=
  if !s.dev.epc.inCairn then s else
  (List.range 256).foldl (fun s c => s.onDev fun d =>
    let es := d.sumpOf c
    let roots := es.filter fun e => decide (e.origin + e.step.hdr.expiry < d.epoch)
    let dead (e : SumpEntry) : Bool := roots.any fun r => r.origin = e.origin
      && (closure [r.step.hdr.index] ((es.filter fun f => f.origin = r.origin).map fun f => (f.step.hdr.index, f.step.hdr.depends))).contains e.step.hdr.index
    let gone := es.filter dead
    if gone = [] then d else
    let query := gone.filter fun e => !background.contains (c, e.step.hdr.index, e.origin)
    let d := { d with seq := { d.seq with sump := d.seq.sump.filter fun e => !(e.chamber = c && dead e) } }.sumpDepths c
    let d := query.foldl (fun d e => d.missCohort (cohortOf e.origin e.step.hdr.stage)) d
    let d := gone.foldl (fun d e => d.pimAbandon c e.origin [e.step.hdr.index]) d
    (d.raise .sumpExpired (Dev.srcGallery c) [(1, c), (4, gone.length)] (query != [])).bump Ctr.epcSumpExpired gone.length) s

/-! ### The sync input (R59, R60) -/

/-- An edge that is ignored: counted, and reported if it is the first since one was accepted (R59). -/
def ignoreEdge (s : State) (counter : Nat) (x : Int) (n : Nat) : State :=
  s.onDev fun d =>
    let d := d.bump counter
    if d.epc.syncReported then d else
    { (d.raise .syncOutOfWindow Dev.srcLantern [(4, ofSigned 32 x), (8, n)]) with epc := { d.epc with syncReported := true } }

/-- An accepted offset. -/
def acceptEdge (s : State) (x : Int) : State :=
  s.onDev fun d =>
    let d := (d.put Reg.epcSyncOffset (ofSigned 32 x)).bump Ctr.epcSyncAccepted
    let d := { d with epc := { d.epc with syncReported := false } }
    if x < 0 then { d with epc := { d.epc with syncNext := some x } }
    else { d with epc := { d.epc with lenNs := d.epc.lenNs + x.toNat } }.putFlag Reg.epcStatusSyncSeen true

/-- EPOCH_SYNC_EDGE at `t`: the first boundary where a start awaits it; else, with SYNC_EN, an offset for the nearest boundary. An edge that fails
the second condition of R59 beside another is counted as one that fails the other (log entry 127). -/
def syncEdge (s : State) (t : Nat) (rising : Bool) : State :=
  let s := s.onDev (·.clock t)
  if rising = s.dev.on Reg.epcCtrlSyncEdge then s
  else if s.dev.epc.startPending && s.dev.epc.firstAt.isNone then s.onDev fun d => { d with epc := { d.epc with firstAt := some t } }
  else if !s.dev.on Reg.epcCtrlSyncEn || !s.dev.running then s
  else
    let b := s.dev.rd Reg.epcBoundary
    let next := b + s.dev.epc.lenNs
    let here := decide (2 * t ≤ b + next)
    let x : Int := if here then (t : Int) - b else (t : Int) - next
    let n := if here then s.dev.epoch else s.dev.epoch + 1
    let taken := if here then s.dev.flag Reg.epcStatusSyncSeen else s.dev.epc.syncNext.isSome
    let fits := decide (x.natAbs ≤ 12500) && (decide (0 ≤ x) || decide (ceilDiv x.natAbs 2000 ≤ s.rsvCount))
    if !fits then s.ignoreEdge Ctr.epcSyncOutOfWindow x n
    else if taken then s.ignoreEdge Ctr.epcSyncExtra x n
    else s.acceptEdge x

end State

/-! ### The commands -/

/-- START_GENERATOR: EPC_CTRL.ENABLE written 1. -/
def execStartGenerator (t : Nat) (s : State) : Host.Outcome State Fault Refusal := done (s.startGenerator t)

/-- STOP_GENERATOR: EPC_CTRL.ENABLE written 0. -/
def execStopGenerator (s : State) : Host.Outcome State Fault Refusal := done s.stopGenerator

/-- EPOCH_BOUNDARY. -/
def execEpochBoundary (i : CairnIn) (s : State) : Host.Outcome State Fault Refusal := done (s.boundary i)

/-- CAIRN_OVERRUN. -/
def execCairnOverrun (excess : Nat) (s : State) : Host.Outcome State Fault Refusal := done (s.overrun excess)

/-- PLAN_BANK_SWITCH. -/
def execPlanBankSwitch (s : State) : Host.Outcome State Fault Refusal := done s.lateSwitch

/-- SUMP_ENTRY_EXPIRE. -/
def execSumpEntryExpire (background : List (Nat × Nat × Nat)) (s : State) : Host.Outcome State Fault Refusal := done (s.expire background)

/-- EPOCH_SYNC_EDGE. -/
def execEpochSyncEdge (t : Nat) (rising : Bool) (s : State) : Host.Outcome State Fault Refusal := done (s.syncEdge t rising)

/-- SNAPSHOT_POINT. -/
def execSnapshotPoint (t : Nat) (s : State) : Host.Outcome State Fault Refusal := done (s.idleSnapshot t)

end Sys2Proof.Machine
end

