-- ==== Sys2Proof/Machine/Host.lean ====
section
/-! DEFINITION. The host controller: rings, doorbells, fetches, completions, resets and the link
(16_host_attachment.md R397 to R415). -/

namespace Sys2Proof.Machine

open Sys2Proof.Crypto

/-- Completion statuses (R407). -/
def csDone : Nat := 0
def csDmaError : Nat := 1
def csBadEntry : Nat := 2
def csTenantRefused : Nat := 3
def csCheckFailed : Nat := 4
def csWeightLimit : Nat := 5
def csQuota : Nat := 6
def csBusy : Nat := 7
def csWrongState : Nat := 8
def csAborted : Nat := 9
def csNoCheckValue : Nat := 10

/-- The opcodes of R403. -/
def opQuery : Nat := 0x01
def opOperation : Nat := 0x02
def opBulk : Nat := 0x10
def opPlan : Nat := 0x20
def opImage : Nat := 0x21

def opReserved (op : Nat) : Bool := !List.contains [opQuery, opOperation, opBulk, opPlan, opImage] op

/-- The ring class that takes an opcode (R402). -/
def opClass (op : Nat) : Nat := if op = opBulk then 1 else if op = opPlan ∨ op = opImage then 2 else 0

/-- Which entries a state accepts, by ring class (R411; IMAGE_SUPPLY under R476). -/
def hostAccepts (st cls op fn : Nat) : Bool :=
  if op = opImage then (st = stReady || st = stRecovery) && cls = 2 && fn = 0
  else st = stActive || ((st = stReady || st = stDrain) && cls != 0)

/-- The key of a ring. -/
def ringKey (fn ring : Nat) : Nat := fn * 16 + ring

namespace Dev

def ringOn (d : Dev) (fn ring : Nat) : Bool := decide (fn < 32) && decide (ring < 16) && d.flag (Reg.ringCtrlEnable fn ring)

/-- A ring that fetches and posts: enabled, without ERROR (R409). -/
def ringLive (d : Dev) (fn ring : Nat) : Bool := d.ringOn fn ring && !d.flag (Reg.ringStatusError fn ring)

def sqSize (d : Dev) (fn ring : Nat) : Nat := 2 ^ d.rd (Reg.ringCtrlSqSize fn ring)
def cqSize (d : Dev) (fn ring : Nat) : Nat := 2 ^ d.rd (Reg.ringCtrlCqSize fn ring)
def sqTail (d : Dev) (fn ring : Nat) : Nat := assocD 0 (ringKey fn ring) d.host.tails
def cqHead (d : Dev) (fn ring : Nat) : Nat := assocD 0 (ringKey fn ring) d.host.heads

/-- Entries from `a` to `b` round a ring of `n`. -/
def ringDist (n a b : Nat) : Nat := (b + n - a % n) % n

/-- The rest of a ring pair goes with its ENABLE (R412): ERROR, the pointers, entries not fetched and completions held. -/
def stopRing (d : Dev) (fn ring : Nat) : Dev :=
  let k := ringKey fn ring
  let lost := (d.host.hold.filter fun c => c.fn = fn && c.ring = ring).length
  let d := ((((d.put (Reg.ringCtrlEnable fn ring) 0).put (Reg.ringStatusError fn ring) 0).put (Reg.ringPtrsSqHead fn ring) 0).put
    (Reg.ringPtrsCqTail fn ring) 0).bump (Ctr.fnDiscarded fn) lost
  { d with host := { d.host with
      arrived := d.host.arrived.filter fun a => !(a.fn = fn && a.ring = ring),
      hold := d.host.hold.filter fun c => !(c.fn = fn && c.ring = ring),
      tails := d.host.tails.filter (·.1 != k), heads := d.host.heads.filter (·.1 != k), wraps := d.host.wraps.filter (· != k),
      unsignalled := d.host.unsignalled.filter (·.1 != k) } }

/-- ENABLE of a ring pair is written (R412). -/
def ringWrite (d : Dev) (fn ring : Nat) (v : Bool) : Dev :=
  if 32 ≤ fn ∨ 16 ≤ ring then d else if v then d.put (Reg.ringCtrlEnable fn ring) 1 else d.stopRing fn ring

/-- HOST_DMA_ERROR; repeated on one ring, Lantern disables the pair (R405, R446, R447). -/
def dmaError (d : Dev) (fn ring addr status : Nat) : Dev :=
  let k := ringKey fn ring
  let recent := d.host.dmaErrors.filter fun e => decide (d.epoch < e.2 + d.val Reg.fltRepeatRepeatEpochs)
  let n := (recent.filter (·.1 = k)).length + 1
  let again := decide (d.val Reg.fltRepeatRepeatN ≤ n)
  let d := if status = 8 then d.bump Ctr.hstPoisonedTlps else d
  let d := d.raise .hostDmaError srcHost [(1, fn), (1, ring), (8, addr), (1, status)] false (if again then some .degraded else none)
  let d := { d with host := { d.host with dmaErrors := recent ++ [(k, d.epoch)] } }
  if again then d.stopRing fn ring else d

/-- A DMA's failure: its own, or that of a stream that is Insecure (R410; TLP status 16, log entry 19). -/
def dmaFails (d : Dev) (x : Dma) (addr : Nat) : Option DmaFail :=
  if d.host.insecure.contains x.stream then some ⟨true, addr, 16⟩ else x.fail

/-! ### Doorbells (R409) -/

/-- HOST_DOORBELL_BAD: the ring stops. -/
def badDoorbell (d : Dev) (fn ring v : Nat) : Dev :=
  ((d.put (Reg.ringStatusError fn ring) 1).bump Ctr.hstDoorbellsBad).raise .hostDoorbellBad srcHost [(1, fn), (1, ring), (4, v)]

/-- An SQ tail: the new entries arrive (R405). -/
def sqDoorbell (d : Dev) (fn ring v : Nat) : Dev :=
  if !d.ringLive fn ring then d else
  let n := d.sqSize fn ring
  let tail := v % 65536
  let old := d.sqTail fn ring
  let head := d.rd (Reg.ringPtrsSqHead fn ring)
  if n ≤ tail ∨ ringDist n head tail < ringDist n head old then d.badDoorbell fn ring v else
  let new := ringDist n old tail
  let more : List Arrived := List.replicate new { fn, ring, late := false }
  ({ d with host := { d.host with tails := assocPut (ringKey fn ring) tail d.host.tails,
                                  arrived := d.host.arrived ++ more } }).bump (Ctr.fnSubmitted fn) new

/-! ### Completions (R406 to R409) -/

/-- Is the CQ full: would its tail meet the host's head? -/
def cqFull (d : Dev) (fn ring : Nat) : Bool :=
  (d.rd (Reg.ringPtrsCqTail fn ring) + 1) % d.cqSize fn ring = d.cqHead fn ring

/-- The 32 bytes of a completion entry. -/
def completionBytes (c : Completion) (head phase : Nat) : List Byte :=
  leBytes 8 c.seq ++ leBytes 8 c.epoch ++ leBytes 8 c.check ++ leBytes 3 c.bytes ++ leBytes 1 c.result ++ leBytes 2 head
    ++ leBytes 1 (c.ring + 128 * phase) ++ leBytes 1 c.status

/-- DMA bytes: counted for the function, and charged to the tenant of a query, operation or bulk load (R391, R414). -/
def dmaBytes (d : Dev) (fn tenant : Nat) (inward : Bool) (n : Nat) : Dev :=
  if tenant < 64 then d.hostBytes fn tenant inward n else d.bump (if inward then Ctr.fnBytesIn fn else Ctr.fnBytesOut fn) n

/-- A completion is written to its CQ. -/
def writeCompletion (d : Dev) (c : Completion) : Dev :=
  let k := ringKey c.fn c.ring
  let tail := d.rd (Reg.ringPtrsCqTail c.fn c.ring)
  let next := (tail + 1) % d.cqSize c.fn c.ring
  let phase := boolNat (!d.host.wraps.contains k)
  let bs := completionBytes c (d.rd (Reg.ringPtrsSqHead c.fn c.ring)) phase
  let d := (((d.emit (.hostWrite c.fn (d.rd (Reg.cqBase c.fn c.ring) + 32 * tail) bs false)).put (Reg.ringPtrsCqTail c.fn c.ring) next).dmaBytes
    c.fn c.tenant false 32).bump (Ctr.fnCompleted c.fn)
  let wraps := if next != 0 then d.host.wraps else if d.host.wraps.contains k then d.host.wraps.filter (· != k) else d.host.wraps ++ [k]
  let waiting := match d.host.unsignalled.find? (·.1 = k) with
    | some (_, n, since) => d.host.unsignalled.filter (·.1 != k) ++ [(k, n + 1, since)]
    | none => d.host.unsignalled ++ [(k, 1, d.now)]
  { d with host := { d.host with wraps, unsignalled := waiting } }

/-- A completion is posted, held while its CQ is full, or discarded when the hold is full too, or when its ring is no longer there. -/
def postCompletion (d : Dev) (c : Completion) : Dev :=
  if c.gone || !d.ringOn c.fn c.ring then d.bump (Ctr.fnDiscarded c.fn)
  else if !d.cqFull c.fn c.ring then d.writeCompletion c
  else if d.host.hold.length < 4096 then { d with host := { d.host with hold := d.host.hold ++ [c] } }
  else
    let k := ringKey c.fn c.ring
    let d := d.bump (Ctr.fnDiscarded c.fn)
    if d.host.overflowSaid.contains k then d
    else ({ d with host := { d.host with overflowSaid := d.host.overflowSaid ++ [k] } }).raise .hostCqOverflow srcHost [(1, c.fn), (1, c.ring), (8, d.epoch)]

/-- Held completions of a ring go out while its CQ has room, in the order produced. -/
def releaseCq (d : Dev) (fn ring : Nat) : Dev :=
  let mine := d.host.hold.filter fun c => c.fn = fn && c.ring = ring
  mine.foldl (fun d c =>
    if d.cqFull fn ring then d
    else ({ d with host := { d.host with hold := d.host.hold.erase c } }).writeCompletion c) d

/-- A CQ head: space is freed and held completions are released. -/
def cqDoorbell (d : Dev) (fn ring v : Nat) : Dev :=
  if !d.ringLive fn ring then d else
  let n := d.cqSize fn ring
  let head := v % 65536
  let tail := d.rd (Reg.ringPtrsCqTail fn ring)
  if n ≤ head ∨ ringDist n (d.cqHead fn ring) tail < ringDist n (d.cqHead fn ring) head then d.badDoorbell fn ring v
  else ({ d with host := { d.host with heads := assocPut (ringKey fn ring) head d.host.heads } }).releaseCq fn ring

/-- The completion of the `k`-th piece of ended work. A reply write that fails makes it DMA_ERROR; a completion write that fails is reported and the
entry is lost to the host. A ring in ERROR posts nothing (R407 to R409). -/
def post (d : Dev) (k : Nat) (x : Dma) : Dev :=
  match d.host.ended[k]? with
  | none => d
  | some c =>
    if d.ringOn c.fn c.ring && d.flag (Reg.ringStatusError c.fn c.ring) && !c.gone then d else
    let d := { d with host := { d.host with ended := d.host.ended.eraseIdx k } }
    match (if c.gone then none else d.dmaFails x (if c.addr != 0 then c.addr else d.rd (Reg.cqBase c.fn c.ring))) with
    | some f =>
      let c := if f.entry && c.addr != 0 then { c with status := csDmaError } else c
      (d.dmaError c.fn c.ring f.addr f.status).postCompletion c
    | none => d.postCompletion c

/-- The CQ's vector is raised: INT_COUNT entries pending, or INT_US past the oldest (R409). -/
def cqInterrupt (d : Dev) (fn ring : Nat) : Dev :=
  if !d.ringOn fn ring then d else
  match d.host.unsignalled.find? (·.1 = ringKey fn ring) with
  | some (k, n, since) =>
    if d.rd (Reg.ringIntIntCount fn ring) ≤ n ∨ since + 1000 * d.rd (Reg.ringIntIntUs fn ring) ≤ d.now then
      ({ d with host := { d.host with unsignalled := d.host.unsignalled.filter (·.1 != k) } }).emit (.msix fn (d.rd (Reg.ringCtrlVector fn ring)))
    else d
  | none => d

/-! ### Fetching an entry (R400 to R405, R411) -/

/-- The head of a ring is fetched: what its entry says, and whether the fetch was late. -/
def takeEntry (d : Dev) (fn ring : Nat) : Option (Dev × Bool) :=
  if !d.ringLive fn ring then none else
  (d.host.arrived.find? fun a => a.fn = fn && a.ring = ring).map fun (a : Arrived) =>
    let d := d.put (Reg.ringPtrsSqHead fn ring) ((d.rd (Reg.ringPtrsSqHead fn ring) + 1) % d.sqSize fn ring)
    ({ d with host := { d.host with arrived := d.host.arrived.erase a } }, a.late)

/-- The ring entry of R403: management entries have no tenant. -/
def entryRef (fn ring : Nat) (entry : List Byte) : HostRef :=
  { fn, ring, seq := fieldAt entry 8 8, tenant := if opClass (fieldAt entry 0 1) = 2 then 64 else fieldAt entry 1 1 % 64 }

/-- An entry's work has ended with a status. -/
def endRef (d : Dev) (e : HostRef) (status : Nat) : Dev :=
  { d with host := { d.host with ended := d.host.ended ++ rung [endEntry e 0 0 status] } }

/-- Buffer list and content as an entry declares them (R403). -/
def listOk (entry list content : List Byte) : Bool :=
  let n := fieldAt entry 4 4
  let parts := chunks 16 list
  between 1 n 65536 && list.length = 16 * n && content.length = fieldAt entry 40 8
    && (parts.dropLast).all (fun b => decide (64 ≤ fieldAt b 8 4) && fieldAt b 8 4 % 64 = 0)
    && parts.all (fun b => fieldAt b 12 4 = 0) && (parts.map fun b => fieldAt b 8 4).sum = content.length

def zeros (bs : List Byte) (off n : Nat) : Bool := ((bs.drop off).take n).all (· == 0)

/-- May the function submit for the tenant (R400)? -/
def tenantOk (d : Dev) (fn tenant : Nat) : Bool := fn = 0 || decide (64 ≤ tenant) || d.rd (Reg.hstVfTenant (fn - 1)) = tenant

/-- Content passes tap 4 (R320): its value in a unit that uses POLY 2, if one is enabled there. -/
def tap4 (d : Dev) (a : Nat) (content : List Byte) : Dev × Option Nat :=
  let d := d.tapPass 4 a content false
  (d, ((d.tapEntry 4 2 a).join).map (·.value))

end Dev

namespace State

/-- The frame of a fetch: nothing while the ring has no entry of this kind at its head. A fetch that fails, a state that does not accept the entry, a reserved
opcode or a wrong class, and a tenant that is not the function's end it; otherwise `run` carries it out, with `late` for a fetch after the sort began. -/
def fetch (s : State) (op fn ring : Nat) (entry : List Byte) (len : Nat) (x : Dma) (run : HostRef → Bool → State → State) : State :=
  let k := fieldAt entry 0 1
  let sq := s.dev.rd (Reg.sqBase fn ring) + 64 * s.dev.rd (Reg.ringPtrsSqHead fn ring)
  let fail := s.dev.dmaFails x sq
  match s.dev.takeEntry fn ring with
  | none => s
  | some (d, late) =>
    let e := Dev.entryRef fn ring entry
    match fail with
    | some f =>
      let d := if f.entry then
          ({ d with freeCtr := d.freeCtr + 1 }).endRef { e with seq := (Config.unreadSeq d.freeCtr).toNat, tenant := 64 } csDmaError
        else d.endRef e csDmaError
      { s with dev := d.dmaError fn ring f.addr f.status }
    | none =>
      if k != op && !opReserved k then s else
      let cls := d.rd (Reg.ringCtrlClass fn ring)
      let d := d.dmaBytes fn e.tenant true (64 + len)
      if !hostAccepts (d.rd Reg.glbState) cls k fn then { s with dev := d.endRef e csWrongState }
      else if opReserved k || cls != opClass k || (cls = 2 && fn != 0) || (opClass k != 2 && decide (64 ≤ fieldAt entry 1 1)) then
        { s with dev := d.endRef e csBadEntry }
      else if !d.tenantOk fn e.tenant then { s with dev := d.endRef e csTenantRefused }
      else run e late { s with dev := d }

def endRef (s : State) (e : HostRef) (status : Nat) : State := s.onDev (·.endRef e status)

/-- A query or operation fetched after the sort of its epoch began (R405). -/
def countLate (s : State) (late : Bool) : State := if late then s.onDev (·.bump Ctr.hstFetchLate) else s

/-- QUERY (R404): its record is admitted under R62 and R63, or answered with a refusal. -/
def hostQuery (s : State) (fn ring : Nat) (entry record : List Byte) (x : Dma) : State :=
  s.fetch opQuery fn ring entry (fieldAt entry 4 4) x fun e late s =>
    let n := fieldAt entry 4 4
    let addr := fieldAt entry 24 8
    let cap := fieldAt entry 32 4
    let record := padTo n record
    let r : Request := { tenant := e.tenant, seq := e.seq, body := record, origin := .ring fn ring addr cap }
    if !(between 24 n 16408 && Dev.zeros entry 2 2 && Dev.zeros entry 36 28 && addr % 64 = 0 && decide (48 + 16 * queryK record ≤ cap)) then s.endRef e csBadEntry
    else if !queryOk record then s.onDev (·.refuseQuery r rsBadRecord)
    else (s.countLate late).onDev fun d => { d with ingress := { d.ingress with arriving := d.ingress.arriving ++ [r] } }

/-- OPERATION (R404): its body is admitted under R181, or refused. -/
def hostOperation (s : State) (fn ring : Nat) (entry body : List Byte) (x : Dma) : State :=
  s.fetch opOperation fn ring entry (fieldAt entry 4 4) x fun e late s =>
    let body := padTo (fieldAt entry 4 4) body
    let r : Request := { tenant := e.tenant, seq := e.seq, body, origin := .ring fn ring 0 0 }
    if !(Dev.zeros entry 2 2 && Dev.zeros entry 24 40) then s.endRef e csBadEntry
    else if !opBodyOk body then s.onDev (·.refuseOp r ostBadRecord)
    else (s.countLate late).onDev fun d => { d with ingress := { d.ingress with arrivingOps := d.ingress.arrivingOps ++ [r] } }

/-! ### BULK_LOAD (R102, R404) -/

/-- Elements of the weight block that content holds, folded with the readers' address; none where it is none (R114, R115). -/
def weightContent (a : Nat) (bs : List Byte) : Option Nat :=
  let w := WeightHdr.parse bs
  let sliceOk (i : Nat) : Bool :=
    let ps := w.slice i
    fieldAt bs (64 + 4 * i) 4 = check32c (a + (ps.headD (0, 0)).1) (ps.flatMap fun (o, n) => (bs.drop o).take n)
  if fieldAt bs 0 4 = 0x5A574231 && fieldAt bs 4 2 = 1 && WeightHdr.fieldsOk bs && fieldAt bs 20 8 = w.byteLength && fieldAt bs 28 8 = w.fullLength
    && decide (w.byteLength ≤ bs.length) && fieldAt bs 60 4 = check32c a (bs.take 60) && (List.range (w.uSlices + w.vSlices)).all sliceOk
  then some (w.rows * w.cols) else none

/-- Weight elements of the module but for one datum: of each other block, or of the one that replaces it where that has more (R102). -/
def weightElements (d : Dev) (datum : Nat) : Nat :=
  let coming := d.tier.moves.filter fun w => w.datum != datum && w.weight != 0
  let here := d.fls.blocks.filter (·.datum != datum)
  let next (n : Nat) : Nat := ((coming.find? (·.datum = n)).map (·.weight)).getD 0
  (here.map fun b => max b.elements (next b.datum)).sum + ((coming.filter fun w => !here.any (·.datum = w.datum)).map (·.weight)).sum

/-- The test of a load against EXPECT and, with WEIGHT, R102 and R114, before anything is charged or written: the status that ends it, 0 for none;
`missing` stands for the want of a unit. -/
def loadTest (d : Dev) (datum a : Nat) (weight : Bool) (content : List Byte) (want : Nat) (value : Option Nat) : Nat :=
  match value with
  | none => csNoCheckValue
  | some v =>
    if weight && (weightContent a content).any (fun n => decide (2000000000 < weightElements d datum + n)) then csWeightLimit
    else if v != want || (weight && (weightContent a content).isNone) then csCheckFailed
    else csDone

/-- The logical blocks of a range of a tier, none where it is not on flash. -/
def flashExtent (s : State) (tier first len : Nat) : Nat × Nat := if tier = 2 then s.extent 2 first len else (0, 0)

/-- NEW: a home is allocated and charged, loaded, and the record is HOME (R237, R247, R404). A weight block takes FULL_LENGTH bytes, aligned to
4,096 (R116), and a reload copy (R121). -/
def loadNew (s : State) (e : HostRef) (datum tier dest : Nat) (p : Place) (weight notify : Bool) (want : Nat) (content : List Byte) : State :=
  if !s.homesReady || decide (s.dev.val Reg.homeCount ≤ datum) then s.endRef e csBusy else
  let s := s.tellBad
  match s.homeGet datum with
  | none => s.endRef e csBusy
  | some r =>
    let a := if tier = 2 then dest * s.dev.rd Reg.flsLbBytes else dest
    let n := if weight then weightContent a content else none
    let unit' := if p.referrer = 1 then 65536 else 64
    let size := if n.isSome then (WeightHdr.parse content).fullLength else content.length
    let len := if tier = 2 then size else roundUp size unit'
    if r.state != hsEmpty || !s.inTierRange tier dest len || decide (2 < p.referrer) || (p.referrer = 1 && dest % 65536 != 0)
      || (n.isSome && tier != 2 && dest % 4096 != 0) then s.endRef e csBusy
    else match s.homeOverlap tier dest len with
    | some o => (s.onDev (·.raise .tierHomeOverlap Dev.srcLantern [(1, e.tenant), (5, dest), (8, len), (4, o)])).endRef e csBusy
    | none =>
      let (d, value) := s.dev.tap4 a content
      let status := loadTest d datum a weight content want value
      if status = csNoCheckValue ∨ status = csWeightLimit then ({ s with dev := d }).endRef e status else
      let (d, ok) := d.charge e.tenant tier (d.chargeOf tier len)
      if !ok then ({ s with dev := d }).endRef e csQuota else
      let t := { s with dev := d }
      if status = csCheckFailed then
        (((t.moveCheck datum 1 0).onDev (·.bump Ctr.tierMovesAbandoned)).freeLater datum e.tenant tier dest len).endRef e csCheckFailed
      else
        let copied : Option (State × (Nat ⊕ Nat)) := if n.isSome then t.makeCopy e.tenant datum content (s.flashExtent tier dest len) else some (t, .inl 0)
        match copied with
        | none => s
        | some (t, .inr st) => (t.onDev fun d => d.credit e.tenant tier (d.chargeOf tier len)).endRef e st
        | some (t, .inl k) =>
          let t := if tier = 2 then t.ownBlocks e.tenant dest len false else t
          match t.tierWrite tier dest 0 (padTo len content) false with
          | none => s
          | some t =>
            let r : HomeRec := { emptyHome datum with owner := e.tenant, state := hsHome, tier, home := dest, length := len, referrer := p.referrer }
            ((t.setHome r).recountIf dest (if tier = 1 then len else 0)).onDev fun d =>
              let block (n : Nat) : WeightBlock :=
                { datum, base := a, elements := n, copy := k, owner := e.tenant, tier, home := dest, length := len, referrer := p.referrer }
              let d := match n with | some n => (d.setBlock datum (some (block n))).mendWeight a | none => d
              let d := d.endRef e csDone
              if notify then { d with host := { d.host with ended := d.host.ended ++ Dev.rung [Dev.endEntry e d.epoch 0 0] } } else d

/-- A REPLACE under R242; the entry completes when the record reaches COPIED. The range holds the block's FULL_LENGTH (R116). -/
def loadReplace (s : State) (e : HostRef) (datum tier dest arm : Nat) (p : Place) (weight notify : Bool) (want : Nat) (content : List Byte) : State :=
  let r := if s.homesReady && decide (datum < s.dev.val Reg.homeCount) then s.homeGet datum else none
  let a := match r with
    | some r => if r.referrer = 1 then r.home else if tier = 2 then dest * s.dev.rd Reg.flsLbBytes else dest
    | none => dest
  let n := if weight then weightContent a content else none
  let size := if n.isSome then max content.length (WeightHdr.parse content).fullLength else content.length
  if r.any (fun r => decide (r.length < size)) then s.endRef e csBadEntry else
  let (d, value) := s.dev.tap4 a content
  let status := loadTest d datum a weight content want value
  let t := { s with dev := d }
  if status = csNoCheckValue ∨ status = csWeightLimit then t.endRef e status else
  let w : MoveWork := { datum, expect := some (want, content.length), content, entry := some e, notify }
  let asked := t.askMove datum 1 tier dest arm p.written w
  if asked.2 != 0 then asked.1.endRef e asked.2
  else if status = csCheckFailed then
    match asked.1.homeGet datum with
    | some r => (asked.1.moveCheck datum 1 0).abandonMove r csCheckFailed
    | none => asked.1
  else match n with
    | none => asked.1
    | some n =>
      match t.makeCopy e.tenant datum content (s.flashExtent tier dest ((r.map (·.length)).getD 0)) with
      | none => s
      | some (t, .inr st) => t.endRef e st
      | some (t, .inl k) => (t.askMove datum 1 tier dest arm p.written { w with weight := n, copy := k }).1

/-- A bulk load of the entry's fields; `listed` says that its content is as the entry declares it. -/
def bulkRun (s : State) (e : HostRef) (entry content : List Byte) (listed : Bool) (p : Place) : State :=
  let flags := fieldAt entry 2 2
  let datum := fieldAt entry 24 4
  let tier := fieldAt entry 32 1
  let dest := if fieldAt entry 48 8 = 0 then p.dest else fieldAt entry 48 8
  if !(decide (flags < 8) && Dev.zeros entry 28 4 && decide (tier ≤ 2) && Dev.zeros entry 33 3 && Dev.zeros entry 60 4 && listed) then
    s.endRef e csBadEntry
  else if bit flags 0 then s.loadNew e datum tier dest p (bit flags 2) (bit flags 1) (fieldAt entry 56 4) content
  else s.loadReplace e datum tier dest (fieldAt entry 36 4) p (bit flags 2) (bit flags 1) (fieldAt entry 56 4) content

/-- BULK_LOAD. -/
def bulkLoad (s : State) (fn ring : Nat) (entry list content : List Byte) (x : Dma) (p : Place) : State :=
  s.fetch opBulk fn ring entry (list.length + content.length) x fun e _ s => s.bulkRun e entry content (Dev.listOk entry list content) p

/-! ### Management entries -/

/-- The fields of a PLAN_SUPPLY or IMAGE_SUPPLY entry (R403). -/
def mgmtOk (entry list content : List Byte) : Bool :=
  Dev.zeros entry 1 3 && Dev.zeros entry 32 8 && Dev.zeros entry 48 8 && Dev.zeros entry 60 4 && Dev.listOk entry list content

/-- Content folded with 0 against EXPECT. -/
def mgmtCheck (s : State) (entry content : List Byte) : State × Nat :=
  let (d, value) := s.dev.tap4 0 content
  ({ s with dev := d }, match value with
    | none => csNoCheckValue
    | some v => if v = fieldAt entry 56 4 then csDone else csCheckFailed)

/-- PLAN_SUPPLY: the plan goes to the inactive bank, whose VERIFY starts; the entry completes when it ends. -/
def planSupply (s : State) (fn ring : Nat) (entry list content : List Byte) (x : Dma) : State :=
  s.fetch opPlan fn ring entry (list.length + content.length) x fun e _ s =>
    if !mgmtOk entry list content then s.endRef e csBadEntry
    else if s.dev.host.plan.isSome then s.endRef e csBusy
    else
      let (s, st) := s.mgmtCheck entry content
      if st != csDone then s.endRef e st else
      let bank := s.dev.idleBank
      ((s.putPlan bank content).startVerify bank).onDev fun d => { d with host := { d.host with plan := some e, planEpoch := fieldAt entry 24 8 } }

/-- IMAGE_SUPPLY: the image is staged and handled as R476 says; after a write in RECOVERY the module enters BOOT. -/
def imageSupply (s : State) (fn ring : Nat) (entry list content : List Byte) (x : Dma) (bad : Option (Nat × Nat)) : State :=
  s.fetch opImage fn ring entry (list.length + content.length) x fun e _ s =>
    if !(mgmtOk entry list content && Dev.zeros entry 24 8 && decide (content.length ≤ s.imageMax)) then s.endRef e csBadEntry
    else if s.dev.mon.load.isSome then s.endRef e csBusy
    else
      let (s, st) := s.mgmtCheck entry content
      if st != csDone then s.endRef e st else
      let s := (s.stage 0 content).onDev fun d => { d with mon := { d.mon with staged := 0, accepted := false } }
      let (s, ok) := s.supplyImage bad
      if !ok then s.endRef e csCheckFailed
      else if s.dev.inState stRecovery then (s.onDev (·.postCompletion (Dev.endEntry e 0 0 csDone))).reboot false
      else s.endRef e csDone

/-! ### Resets and the link -/

/-- The origin of a request whose function has been reset. -/
def dropOrigin (gone : Nat → Bool) (r : Request) : Request :=
  match r.origin with
  | .ring fn _ _ _ => if gone fn then { r with origin := .gone fn } else r
  | _ => r

/-- What a reset of functions leaves of admitted work: it runs, its replies and completions are discarded (R401). -/
def Dev.dropFns (d : Dev) (gone : Nat → Bool) : Dev :=
  let drop := dropOrigin gone
  let ended := d.host.ended.filter fun c => gone c.fn
  let d := ended.foldl (fun d c => d.bump (Ctr.fnDiscarded c.fn)) d
  { d with
    ingress := { d.ingress with
      arriving := d.ingress.arriving.map drop, arrivingOps := d.ingress.arrivingOps.map drop, carried := d.ingress.carried.map drop,
      carriedOps := d.ingress.carriedOps.map drop,
      cohorts := d.ingress.cohorts.map fun (c : Cohort) => { c with queries := c.queries.map drop } },
    idx := { d.idx with staged := d.idx.staged.map fun (o : StagedOp) => { o with req := drop o.req },
                        ended := d.idx.ended.map fun (x : Request × Nat × Nat) => (drop x.1, x.2) },
    tier := { d.tier with moves := d.tier.moves.map fun (w : MoveWork) =>
      { w with entry := w.entry.map fun (e : HostRef) => if gone e.fn then { e with gone := true } else e } },
    host := { d.host with
      ended := d.host.ended.filter (fun c => !gone c.fn), queries := d.host.queries.filter (fun q => !gone q.ref.fn),
      plan := d.host.plan.map fun (e : HostRef) => if gone e.fn then { e with gone := true } else e } }

/-- FUNCTION_LEVEL_RESET (R401): the rings stop at once, later completions are discarded, and charged bulk loads are abandoned. -/
def flr (s : State) (fn : Nat) : State :=
  if 32 ≤ fn then s else
  let waiting := (s.dev.host.arrived.filter (·.fn = fn)).length + (s.dev.host.ended.filter (·.fn = fn)).length + (s.dev.host.hold.filter (·.fn = fn)).length
  let loads := (s.dev.tier.moves.filter fun w => w.entry.any (·.fn = fn)).map (·.datum)
  let s := s.onDev fun d => Dev.dropFns ((List.range 16).foldl (fun d r => d.stopRing fn r) d) (· = fn)
  let s := loads.foldl (fun s n => match s.homeGet n with
    | some r => if r.state = hsCopying || r.state = hsCopied then s.abandonMove r csAborted else s
    | none => s) s
  s.onDev (·.raise .hostFlr Dev.srcHost [(1, fn), (4, waiting)])

/-- PERST_N outside SLEEP (R480): the host controller and the link are reset, and nothing else; DEBUG_EN is the monitor's (R497). -/
def perst (s : State) : State :=
  if s.dev.inState stSleep then s else
  s.onDev fun d =>
    let d := Dev.dropFns ((List.range 32).foldl (fun d f => (List.range 16).foldl (fun d r => d.stopRing f r) d) d) fun _ => true
    let mine (k : Nat) : Bool := decide (0x100000 * 64 ≤ k) && decide (k < 0x140000 * 64) && k != Reg.hstStatusDebugEn.key
    { d with regs := { d.regs with held := d.regs.held.filter (!mine ·.1), eff := d.regs.eff.filter (!mine ·.1) },
             host := { plan := d.host.plan, planEpoch := d.host.planEpoch } }

end State

namespace Dev

/-- IDE_SECURE is the link stream's state. -/
def showIde (d : Dev) : Dev := d.putFlag Reg.hstStatusIdeSecure (d.host.keyed.contains 0 && !d.host.insecure.contains 0)

/-- IDE_TLP_FAIL (R410): the stream is Insecure until it is keyed again. -/
def ideFail (d : Dev) (stream : Nat) : Dev :=
  if !d.host.keyed.contains stream then d else
  let d := (d.bump Ctr.hstIdeFails).raise .hostIdeFail srcHost [(1, stream), (8, d.epoch)]
  ({ d with host := { d.host with insecure := if d.host.insecure.contains stream then d.host.insecure else d.host.insecure ++ [stream] } }).showIde

/-- HOST_LINK_TRAINED (R397, R398). -/
def linkTrained (d : Dev) (rate width : Nat) : Dev :=
  if d.inState stSleep ∨ 5 < rate ∨ !List.contains [1, 4, 8, 16] width then d else
  let d := ((d.put Reg.hstStatusRate rate).put Reg.hstStatusWidth width).bump Ctr.hstLinkTrainings
  if rate = 5 ∧ width = 16 then d else d.raise .hostLinkDegraded srcHost [(1, rate), (1, width)]

/-- Are configuration requests served (R411)? -/
def configured (d : Dev) : Bool := d.boot.config || !d.inState stBoot

/-- HOST_LINK_DOWN (R413). -/
def hostLinkDown (d : Dev) : Dev := (d.put Reg.hstStatusRate 0).put Reg.hstStatusWidth 0

end Dev

/-- BAR4_READ (R399). -/
def State.bar4 (s : State) (a n : Nat) : State :=
  if s.dev.inState stSleep ∨ 0x400000000 < a + n then s else
  s.onDev fun d =>
    if d.flag Reg.hstStatusDebugEn then d.emit (.readData a (leNat (s.devRead a n).1))
    else (d.bump Ctr.hstDebugReadsBlocked).emit (.readData a 0)

/-! ### The commands -/

/-- SQ_TAIL_DOORBELL: the value written to the tail doorbell of a ring. -/
def execSqTailDoorbell (fn ring v : Nat) (s : State) : Host.Outcome State Fault Refusal := devOnly s (·.sqDoorbell fn ring v)

/-- CQ_HEAD_DOORBELL, at TIME `t`. -/
def execCqHeadDoorbell (fn ring v t : Nat) (s : State) : Host.Outcome State Fault Refusal := devOnly s fun d => (d.clock t).cqDoorbell fn ring v

/-- QUERY: the entry and its record as host memory holds them. -/
def execHostQuery (fn ring : Nat) (entry record : List Byte) (x : Dma) (s : State) : Host.Outcome State Fault Refusal :=
  done (s.hostQuery fn ring entry record x)

/-- OPERATION: the entry and its body. -/
def execHostOperation (fn ring : Nat) (entry record : List Byte) (x : Dma) (s : State) : Host.Outcome State Fault Refusal :=
  done (s.hostOperation fn ring entry record x)

/-- BULK_LOAD: the entry, its buffer list and its content. -/
def execBulkLoad (fn ring : Nat) (entry list content : List Byte) (x : Dma) (p : Place) (s : State) : Host.Outcome State Fault Refusal :=
  done (s.bulkLoad fn ring entry list content x p)

/-- PLAN_SUPPLY. -/
def execPlanSupply (fn ring : Nat) (entry list content : List Byte) (x : Dma) (s : State) : Host.Outcome State Fault Refusal :=
  done (s.planSupply fn ring entry list content x)

/-- IMAGE_SUPPLY at TIME `t`; `bad` is the NOR offset and reason of what fails in the device. -/
def execImageSupply (fn ring t : Nat) (entry list content : List Byte) (x : Dma) (bad : Option (Nat × Nat)) (s : State) :
    Host.Outcome State Fault Refusal := done ((s.onDev (·.clock t)).imageSupply fn ring entry list content x bad)

/-- COMPLETION_POST of the `k`-th piece of ended work, at TIME `t`. -/
def execCompletionPost (k t : Nat) (x : Dma) (s : State) : Host.Outcome State Fault Refusal := devOnly s fun d => (d.clock t).post k x

/-- CQ_INTERRUPT, at TIME `t`. -/
def execCqInterrupt (fn ring t : Nat) (s : State) : Host.Outcome State Fault Refusal := devOnly s fun d => (d.clock t).cqInterrupt fn ring

/-- FUNCTION_LEVEL_RESET of a function. -/
def execFunctionLevelReset (fn : Nat) (s : State) : Host.Outcome State Fault Refusal := done (s.flr fn)

/-- PERST_N_ASSERT. -/
def execPerstNAssert (s : State) : Host.Outcome State Fault Refusal := done s.perst

/-- IDE_TLP_FAIL on a stream. -/
def execIdeTlpFail (stream : Nat) (s : State) : Host.Outcome State Fault Refusal := devOnly s (·.ideFail stream)

/-- HOST_LINK_TRAINED at a rate (by its code) and width. -/
def execHostLinkTrained (rate width : Nat) (s : State) : Host.Outcome State Fault Refusal := devOnly s (·.linkTrained rate width)

/-- HOST_LINK_DOWN. -/
def execHostLinkDown (s : State) : Host.Outcome State Fault Refusal := devOnly s (·.hostLinkDown)

/-- RING_ENABLE_WRITE. -/
def execRingEnableWrite (fn ring : Nat) (v : Bool) (s : State) : Host.Outcome State Fault Refusal :=
  devOnly s fun d => if d.inState stSleep then d else d.ringWrite fn ring v

/-- BAR4_READ of `n` bytes at `a`. -/
def execBar4Read (a n : Nat) (s : State) : Host.Outcome State Fault Refusal := done (s.bar4 a n)

/-- CONFIGURATION_REQUEST: in BOOT served after step 4 (R411, R464). -/
def execConfigurationRequest (s : State) : Host.Outcome State Fault Refusal :=
  devOnly s fun d => if d.inState stSleep then d else d.emit (.config d.configured)

end Sys2Proof.Machine
end

