-- ==== Sys2Proof/Machine/Access.lean ====
section
/-! DEFINITION. Accesses to BAR0: which a state accepts, what a write does to each kind of field, the latches of 64-bit quantities, and what a read returns
(00_scope.md R6 to R9, R533; 16_host_attachment.md R411; 21_register_map.md R503 to R508). -/

namespace Sys2Proof.Machine

/-- The agents of R504: the host, the Padon monitor, and Lantern. -/
def agHost : Nat := 0
def agMonitor : Nat := 1
def agLantern : Nat := 2

/-- The ranges of R502 that hold no block. -/
def noBlock (off : Nat) : Bool := (decide (0x2C0000 ≤ off) && decide (off < 0x400000)) || (decide (0x800000 ≤ off) && decide (off < 0x1000000))

namespace Dev

/-- Does the present state accept an access to the block at an offset (R411, R495)? Lantern reaches every block. -/
def accepts (d : Dev) (agent off : Nat) : Bool :=
  let st := d.rd Reg.glbState
  let glb := decide (off < 0x10000)
  let hst := decide (0x100000 ≤ off) && decide (off < 0x140000)
  let pwr := decide (0x40000 ≤ off) && decide (off < 0x60000)
  agent = agLantern || noBlock off || decide (4 ≤ st ∧ st ≤ 6) || glb || hst || (st = stRetain && pwr)

/-! ### Writes -/

/-- May a field be written now, beside its range (R69, R355, R372, R412, R413, R459)? -/
def gateOpen (d : Dev) (f : Field) (n : Nat) : Bool :=
  (match f.gate with
  | .free => true
  | .epcStopped => !d.flag Reg.epcCtrlEnable
  | .portsOff => d.rd Reg.fabCtrlPortEn = 0
  | .ring fn r => !d.flag (Reg.ringCtrlEnable fn r)
  | .vfRings v => (List.range 16).all fun r => !d.flag (Reg.ringCtrlEnable v r)
  | .fltRead => decide (n ≤ d.rd Reg.fltSeq)
  | .signed9 => decide ((-64 : Int) ≤ toSigned 9 n))
  && (!(f = Reg.hstMirrorSize || f = Reg.hstMirrorBase) || !d.flag Reg.hstMirrorMirrorEn)

/-- Is a value one that the field's row allows (R533)? -/
def inRange (f : Field) (n : Nat) : Bool :=
  match f.range with
  | some (lo, hi, k) => between lo n hi && n % k = 0
  | none => true

/-- A written field that does not apply at once waits for its apply point; a coupled one has its set checked there (R9, R484). -/
def noteWrite (d : Dev) (f : Field) : Dev :=
  { d with regs := { d.regs with
      waiting := if f.app = .now || d.regs.waiting.contains f then d.regs.waiting else d.regs.waiting ++ [f],
      touched := if f.couple = .none || d.regs.touched.contains f.couple then d.regs.touched else d.regs.touched ++ [f.couple] } }

/-- A value outside LENGTH's or LISTS's range sets its reject bit (R69, R202). -/
def rejectBit (d : Dev) (f : Field) : Dev :=
  if f = Reg.epcLenLength then d.putFlag Reg.epcStatusLenReject true
  else if f = Reg.idxLists then d.putFlag Reg.idxStatusListsReject true
  else d

/-- A write of one field by its access code; `before` is the state before the access, by which its conditions are judged. -/
def writeField (d before : Dev) (f : Field) (n : Nat) : Dev :=
  match f.acc with
  | .ro | .rc | .wo => d
  | .w1c => d.put f (d.rd f &&& (2 ^ f.width - 1 - n))
  | .rw =>
    if !before.gateOpen f n then d
    else if inRange f n then (d.put f n).noteWrite f
    else if f.couple = .none then d.rejectBit f else (d.rejectBit f).noteWrite f

/-- Fields whose writes are carried out by an operation of their own. -/
def ownWrite (f : Field) : Bool :=
  f = Reg.epcCtrlEnable || f = Reg.plnCtrlArm || f = Reg.fabCtrlPortEn || modeKey f.key
    || (decide (0x110000 ≤ f.off) && decide (f.off < 0x130000) && f.off % 0x40 = 0 && f.lsb = 0)

end Dev

namespace State

/-- What a write to a register starts beside its plain fields. -/
def ownWrites (s : State) (off v : Nat) (e : WriteEnv) : State :=
  if off = 0x10000 then if bit v 0 then s.startGenerator e.t else s.stopGenerator
  else if off = 0x20000 then s.arm (bit v 1)
  else if off = 0x20004 then
    let b := v % 2
    let s := if bit v 1 then s.startVerify b else s
    if bit v 2 then s.onDev fun d => if b = d.activeBank then d else d.putFlag (Reg.plnStatusValid b) false else s
  else if off = 0x3000 then s.stateWrite (v % 16) e.train e.lost
  else if off = 0xC0000 then
    s.onDev fun d => if decide (d.rd Reg.glbState < stTraining) then d.put Reg.fabCtrlPortEn (v % 256) else d.writePortEn (v % 256)
  else if 0x110000 ≤ off ∧ off < 0x130000 ∧ off % 0x40 = 0 ∧ off % 0x1000 < 0x400 then
    s.onDev (·.ringWrite ((off - 0x110000) / 0x1000) (off % 0x1000 / 0x40) (bit v 0))
  else if modeKey (off * 64) then s.onDev (·.writeModes ((off - 0x200000) / 0x10000) ((off % 0x10000 - 0x4000) / 4) v)
  else s

/-- The plain fields of a register, then what its write starts. -/
def commitWrite (s : State) (off v : Nat) (e : WriteEnv) : State :=
  let before := s.dev
  let fs := (Reg.fieldsAt off).filter (!Dev.ownWrite ·)
  let s := s.onDev fun d => fs.foldl (fun d f => d.writeField before f (bits v f.lsb f.width)) d
  s.ownWrites off v e

/-- Is an access outside the register map (R503)? It is counted, with its offset. -/
def unmapped (s : State) (off : Nat) : State :=
  s.onDev fun d => ((d.putFlag Reg.glbAccessUnmapped true).put Reg.glbAccessAddrOffset off).bump Ctr.glbUnmappedAccesses

def badAccess (s : State) (off : Nat) : State :=
  s.onDev fun d => ((d.putFlag Reg.glbAccessBadAccess true).put Reg.glbAccessAddrOffset off).bump Ctr.glbBadAccesses

/-- Can a quantity of 64 bits be written? -/
def writable (off : Nat) : Bool := (Reg.fieldsAt off).any fun f => f.acc = .rw

def latchPut (d : Dev) (agent off v : Nat) : Dev :=
  { d with latch := { d.latch with write := d.latch.write.filter (·.1 != agent) ++ [(agent, off, v)] } }

/-- The latched lower half of a register: what the agent last wrote there, else its present lower half (R504). -/
def latchGet (d : Dev) (agent off : Nat) : Nat :=
  match d.latch.write.find? fun x => x.1 = agent && x.2.1 = off with
  | some x => x.2.2
  | none => ((Reg.fieldsAt off).map fun f => d.rd f * 2 ^ f.lsb).sum % 2 ^ 32

def latchDrop (d : Dev) (agent : Nat) : Dev := { d with latch := { d.latch with write := d.latch.write.filter (·.1 != agent) } }

/-- An aligned 32-bit write (R503, R504). -/
def write32 (s : State) (agent off v : Nat) (e : WriteEnv) : State :=
  let v := v % 2 ^ 32
  if Reg.inDebug off || !s.dev.accepts agent off then s
  else if !Reg.listed off then s.unmapped off
  else if Reg.inHeaders off then s.writeBank ((off - 0x21000) / 512) none ((off - 0x21000) % 512) (leBytes 4 v) false
  else if Reg.wide off then if writable off then s.onDev fun d => latchPut d agent off v else s
  else if 4 ≤ off ∧ Reg.wide (off - 4) then
    if writable (off - 4) then (s.commitWrite (off - 4) (v * 2 ^ 32 + latchGet s.dev agent (off - 4)) e).onDev (latchDrop · agent) else s
  else s.commitWrite off v e

/-- An access of 32 or 64 bits, or a bad one (R503). -/
def regWrite (s : State) (agent off size v : Nat) (e : WriteEnv) : State :=
  if s.dev.inState stSleep ∨ 0x4000000 ≤ off then s
  else if size = 4 ∧ off % 4 = 0 then s.write32 agent off v e
  else if size = 8 ∧ off % 8 = 0 then
    if Reg.wide off && !Reg.inDebug off && s.dev.accepts agent off then s.commitWrite off (v % 2 ^ 64) e
    else (s.write32 agent off v e).write32 agent (off + 4) (v / 2 ^ 32) e
  else s.badAccess off

/-! ### Reads -/

/-- The whole value of a register or counter. -/
def regValue (d : Dev) (off : Nat) : Nat :=
  if Ctr.isCounter off then d.counted off else ((Reg.fieldsAt off).map fun f => if f.acc = .wo then 0 else d.rd f * 2 ^ f.lsb).sum

/-- A read clears an RC field (R8). -/
def readClears (d : Dev) (off : Nat) : Dev := ((Reg.fieldsAt off).filter (·.acc = .rc)).foldl (fun d f => d.put f 0) d

/-- A read of the lower register latches the upper half; the next read of the upper register returns it (R6). Every quantity has a latch of its own
for each agent. -/
def readLatch (d : Dev) (agent off hi : Nat) : Dev :=
  { d with latch := { d.latch with read := d.latch.read.filter (fun x => !(x.1 = agent && x.2.1 = off)) ++ [(agent, off, hi)] } }

/-- An aligned 32-bit read. -/
def read32 (s : State) (agent off : Nat) : State × Nat :=
  let d := s.dev
  if Reg.inDebug off then
    if d.flag Reg.hstStatusDebugEn then (s.onDev fun d => { d with freeCtr := d.freeCtr + 1 }, (Config.debugView d.freeCtr).toNat) else (s, 0)
  else if !d.accepts agent off then (s, 0)
  else if !Reg.listed off then (s.unmapped off, 0)
  else if Reg.inHeaders off then (s, leNat (s.mem.read .hdr (off - 0x21000) 4))
  else if Reg.wide off || Ctr.isCounter off then
    let v := regValue d off
    (s.onDev fun d => readLatch d agent off (v / 2 ^ 32), v % 2 ^ 32)
  else if 4 ≤ off ∧ (Reg.wide (off - 4) || Ctr.isCounter (off - 4)) then
    match d.latch.read.find? fun x => x.1 = agent && x.2.1 = off - 4 with
    | some x => (s.onDev fun d => { d with latch := { d.latch with read := d.latch.read.filter fun y => !(y.1 = agent && y.2.1 = off - 4) } }, x.2.2)
    | none => (s, regValue d (off - 4) / 2 ^ 32)
  else (s.onDev (readClears · off), regValue d off)

/-- An access of 32 or 64 bits that reads. One of 64 bits returns a 64-bit quantity whole, and reads two registers elsewhere (R6, R503). -/
def regRead (s : State) (agent off size : Nat) : State × Nat :=
  if size = 4 then s.read32 agent off
  else if (Reg.wide off || Ctr.isCounter off) && !Reg.inDebug off && s.dev.accepts agent off then (s, regValue s.dev off)
  else
    let (s, lo) := s.read32 agent off
    let (s, hi) := s.read32 agent (off + 4)
    (s, lo + hi * 2 ^ 32)

end State

/-! ### The commands -/

/-- REGISTER_WRITE: a write of the host of `size` bytes. -/
def execRegisterWrite (off size v : Nat) (e : WriteEnv) (s : State) : Host.Outcome State Fault Refusal :=
  done ((s.onDev (·.clock e.t)).regWrite agHost off size v e)

/-- LOWER_HALF_WRITE by an agent. -/
def execLowerHalfWrite (agent off v : Nat) (s : State) : Host.Outcome State Fault Refusal :=
  done (if agent < 3 ∧ Reg.wide off ∧ !s.dev.inState stSleep then s.write32 agent off v ⟨0, ⟨[], [], []⟩, []⟩ else s)

/-- COUNTER_LOWER_READ: an agent reads one register, or the two registers of a 64-bit quantity at once. A read of a lower register latches the upper
half (R6). -/
def execCounterLowerRead (agent : Nat) (read : RegRead) (s : State) : Host.Outcome State Fault Refusal :=
  let off := read.off
  let size := read.size
  done (if agent < 3 ∧ ((size = 4 ∧ off % 4 = 0) ∨ (size = 8 ∧ off % 8 = 0)) ∧ off < 0x4000000 ∧ !s.dev.inState stSleep then
    let (s, v) := s.regRead agent off size
    s.onDev (·.emit (.readData off v))
  else s)

/-- SUMP_PEAK_READ of a chamber. -/
def execSumpPeakRead (agent c : Nat) (s : State) : Host.Outcome State Fault Refusal :=
  done (if agent < 3 ∧ c < 256 ∧ !s.dev.inState stSleep then
    let off := (Reg.sumpPeak c).off
    let (s, v) := s.read32 agent off
    s.onDev (·.emit (.readData off v))
  else s)

/-- BAD_ACCESS: a host's access of a bad size or alignment, or to an offset that no table lists; a read returns 0. -/
def execBadAccess (write : Bool) (off size : Nat) (s : State) : Host.Outcome State Fault Refusal :=
  let sized := (size = 4 ∧ off % 4 = 0) ∨ (size = 8 ∧ off % 8 = 0)
  let answer (s : State) : State := if write then s else s.onDev (·.emit (.readData off 0))
  done (if s.dev.inState stSleep ∨ 0x4000000 ≤ off then s
    else if !decide sized then answer (s.badAccess off)
    else if Reg.listed off ∨ Reg.inDebug off ∨ !s.dev.accepts agHost off then s
    else answer (s.unmapped off))

end Sys2Proof.Machine
end

