-- ==== Sys2Proof/Machine/Format.lean ====
section
/-! DEFINITION. The flash as TRAINING finds it: geometry, format, and the rebuild of the map from what flash keeps
(11_flash_translation.md R288 to R291, R304 to R306). -/

namespace Sys2Proof.Machine

/-- The values of a FLASH_GEOMETRY record in the order R477 lists them: cell type, chip enables, LUNs, planes, blocks per LUN, pages of a native
block and of an SLC block (log entry 24). -/
def geometryOf (body : List Byte) : List Nat := (List.range 7).map fun i => fieldAt body (4 * i) 4

/-- Raw capacity of a channel in bytes: every native block of its chip enables and LUNs. -/
def rawCapacity (g : List Nat) : Nat := g.getD 1 0 * g.getD 2 0 * g.getD 4 0 * (g.getD 5 0 * pageBytes)

/-- Do the values lie in what R287 and R313 allow, with at most 8 TB of raw capacity on a channel? -/
def geometryOk (g : List Nat) : Bool :=
  decide (rawCapacity g ≤ 8 * 10 ^ 12) && let ok (i lo hi : Nat) : Bool := decide (lo ≤ g.getD i 0) && decide (g.getD i 0 ≤ hi)
  ok 0 2 3 && ok 1 1 8 && ok 2 1 4 && ok 3 1 4 && ok 4 1 32768 && ok 5 1 4096 && ok 6 1 4096

/-- The registers of the geometry (R289, R313). -/
def Dev.showGeometry (d : Dev) (g : List Nat) : Dev :=
  let v (i : Nat) : Nat := g.getD i 0
  ((((((d.put Reg.flsGeomCell (v 0)).put Reg.flsGeomCes (v 1 - 1)).put Reg.flsGeomLuns (v 2 - 1)).put Reg.flsGeomPlanes (v 3 - 1)).put
    Reg.flsBlocksBlocksPerLun (v 4)).put Reg.flsBlocksSlcPages (v 6)).put Reg.flsLbBytes (pageBytes * v 5)

namespace State

/-- The system blocks of a channel: blocks 0 to 7 of channels 0 and 16 (R305). -/
def systemBlock (ch pb : Nat) : Bool := (ch = 0 || ch = 16) && decide (pb < 8)

/-- The block states of a channel at format: bad ones, system ones, the SLC pool from the lowest good ones, and the rest native. -/
def formatStates (n pool ch : Nat) (bad : List (Nat × Nat)) : List Nat :=
  let isBad (pb : Nat) : Bool := bad.contains (ch, pb)
  let good := (List.range n).filter fun pb => !isBad pb && !systemBlock ch pb
  let slc := good.take pool
  (List.range n).map fun pb => if isBad pb then bFactoryBad else if systemBlock ch pb then bSystem else if slc.contains pb then bSlcFree else bFree

/-- Format (R291): LB_COUNT, and the physical block table. Refused with reason capacity when the count exceeds the map or the SLC pool is too small. -/
def format (s : State) (bad : List (Nat × Nat)) : State :=
  let n := s.dev.chanBlocks
  let pool := ceilDiv (s.dev.rd Reg.flsPoolsSlcPct * n) 100
  let spare := ceilDiv (s.dev.rd Reg.flsPoolsOpPct * n) 100
  let room (ch : Nat) : Nat := n - (bad.filter (·.1 = ch)).length - pool - spare
  let lbs := 32 * ((List.range 32).map room).foldl min n
  if pool < 64 ∨ 8388608 < lbs then s.onDev (·.raise .flashTrainFail Dev.srcFlash [(1, 0), (1, 2)])
  else
    let table := (List.range 32).flatMap fun ch =>
      (formatStates n pool ch bad).zipIdx.map fun (st, pb) => (ch * 2 ^ 20 + pb, pbeEncode { erased := 0, state := st, valid := 0, lbn := 0 })
    s.onDev fun d => { d with fls := { d.fls with formatted := true, lbCount := lbs, pbt := table, ckpt := [], journal := [] } }

/-- SPARE_c: the good native blocks less the logical blocks exported; below GC_CRIT the channel is read-only (R291, R304). -/
def showSpare (s : State) (ch : Nat) : State :=
  let spare := (s.blocksIn ch bFree).length + (s.blocksIn ch bData).length - s.dev.fls.lbCount / 32
  s.onDev fun d =>
    let d := d.put (Reg.chSpareCount ch) spare
    if spare < d.val Reg.flsGcGcCrit then (d.putFlag (Reg.chStatusReadOnly ch) true).putFlag Reg.flsStatusReadOnly true else d

/-- The map in the strata and the block table in the stacks, at the addresses Lantern gives them: the checkpoint, the journal after it, and a
new checkpoint (R290, R306). The map is charged to the system account. -/
def loadTables (s : State) (mapBase pbtBase : Nat) : State :=
  let f := s.dev.fls
  let map := f.journal.foldl (fun m (k, v) => assocPut k v m) f.ckpt
  let s := s.onDev fun d =>
    let d := ((d.put Reg.flsMapBase mapBase).put Reg.flsPbtBase pbtBase).put Reg.flsLbCount f.lbCount
    let d := d.setUsed 64 0 (d.usedOf 64 0 + d.chargeOf 0 (4 * f.lbCount))
    { d with fls := { d.fls with ckpt := map, journal := [], ckptEpoch := d.epoch } }
  let s := map.foldl (fun s (k, v) => s.devWrite (mapBase + 4 * k) (leBytes 4 v)) s
  f.pbt.foldl (fun s (k, v) => s.devWrite (s.pbtAddr (k / 2 ^ 20) (k % 2 ^ 20)) (leBytes 8 v)) s

/-- The flash in TRAINING after a loss of power: formatted once, its map rebuilt; `adopted` and `torn` are the pages that the scan of open blocks
adopts and discards. -/
def startFlash (s : State) (bad : List (Nat × Nat)) (mapBase pbtBase adopted torn : Nat) : State :=
  let s := if s.dev.fls.formatted then s else s.format bad
  let s := s.loadTables mapBase pbtBase
  let s := (List.range 32).foldl (fun s ch => (s.showChannel ch).showSpare ch) s
  s.onDev fun d =>
    let d := d.bump Ctr.flsTornPages torn
    if adopted + torn = 0 then d
    else (d.raise .flashMapRebuilt Dev.srcFlash [(4, adopted), (4, torn)]).putFlag Reg.flsStatusMapRebuilt true

end State

end Sys2Proof.Machine
end

