-- ==== Sys2Proof/Machine/Boot.lean ====
section
/-! DEFINITION. The boot sequence of the mask ROM, and the end of TRAINING (19_start_configuration_identity.md R463 to R480). -/

namespace Sys2Proof.Machine

open Sys2Proof.Crypto

/-- The length of a DER object, from its own header, at most 4 KiB (R467). -/
def derLength (b : List Byte) : Nat :=
  let l := fieldAt b 1 1
  min 4096 (if l < 0x80 then 2 + l else if l = 0x81 then 3 + fieldAt b 2 1 else 4 + 256 * fieldAt b 2 1 + fieldAt b 3 1)

/-- A value of `4 n` bytes, byte 0 first, in `n` registers. -/
def Dev.putBytes (d : Dev) (f : Nat → Field) (n : Nat) (bs : List Byte) : Dev :=
  (List.range n).foldl (fun d i => d.put (f i) (fieldAt bs (4 * i) 4)) d

namespace State

/-- RECOVERY is entered with the failing step, check and section (R464, R488). -/
def bootFail (s : State) (step : Nat) (f : CheckFail) (report : Dev → Dev) : State × Bool :=
  (s.onDev fun d =>
    let d := report (((d.put Reg.btFailStep step).put Reg.btFailCheck f.check).put Reg.btFailSection f.entry)
    (d.enterState stRecovery).bump Ctr.btRecoveries, false)

/-- A failing check of R474 in a step. -/
def checkFail (s : State) (step : Nat) (src : Source) (f : CheckFail) : State × Bool := s.bootFail step f (checkFault f src.buildId)

/-- BOOT_NVM_FAIL: reason 0 no device, 1 the device region cannot be read, 2 the timer (log entry 19). -/
def nvmFail (s : State) (step reason : Nat) : State × Bool :=
  s.bootFail step ⟨0, 0⟩ (·.raise .bootNvmFail Dev.srcLantern [(1, step), (1, reason)])

/-- One step of R464; where the sequence stops for good it waits for the 5 s timer. -/
def bootStep (hang : Option Nat) (k : Nat) (f : State → State × Bool) (x : State × Bool) : State × Bool :=
  if !x.2 then x
  else if hang = some k then (x.1.onDev fun d => { d with boot := { d.boot with hungAt := some k } }, false)
  else f x.1

/-- The image that BOOT reads: in the NOR, or as the monitor has staged it (R468, R494). -/
def bootImage (s : State) : Source := if s.dev.flag Reg.btStatusFromStaging then s.stagedImage else s.norImage

/-- Step 2: the NOR device is discovered. -/
def discover (b : BootEnv) (s : State) : State × Bool :=
  match b.size with
  | some n => if between 26 n 29 then (s.onDev (·.put Reg.btNorSizeLog2 n), true) else s.nvmFail 2 0
  | none => s.nvmFail 2 0

/-- Step 3: header, manifest and signatures. -/
def checkSigned (s : State) : State × Bool :=
  match s.bootImage.checks14 s.imageMax with
  | some f => s.checkFail 3 s.bootImage f
  | none => (s, true)

/-- Step 5: the sections are staged and check 5 applied. -/
def stageSections (s : State) : State × Bool :=
  let src := s.bootImage
  let s := if s.dev.flag Reg.btStatusFromStaging then s else s.stage 0 (src 0 src.length)
  match s.stagedImage.check5 with
  | some e => s.checkFail 5 s.stagedImage ⟨5, e⟩
  | none => (s, true)

/-- Step 6: the device region and the SERIAL test. -/
def readRegion (b : BootEnv) (s : State) : State × Bool :=
  if !b.region then s.nvmFail 6 1 else
  let src := s.stagedImage
  let size := 2 ^ s.dev.rd Reg.btNorSizeLog2
  let cert (off : Nat) : List Byte := s.norRead (size - off) (derLength (s.norRead (size - off) 4))
  let s := s.onDev fun d => { d.putBytes Reg.btSerial 4 (leBytes 16 b.serial) with boot := { d.boot with certs := [cert 0xD0000, cert 0xE0000] } }
  if src.operator && !src.serialOk b.serial then s.checkFail 6 src ⟨4, 0⟩ else (s, true)

/-- Step 7: the identity key (R479); without one BOOT goes on. -/
def findIdentity (b : BootEnv) (s : State) : State × Bool :=
  (if b.certOk && (b.keyA = b.certKey || b.keyB = b.certKey) then
    s.onDev fun d => (d.putFlag Reg.btStatusIdValid true).putBytes Reg.btIdHash 8 (sha256 b.certKey)
  else s.onDev (·.raise .bootPufFail Dev.srcLantern [(1, 0)]), true)

/-- Step 8: the calibration section and its trims (R478). -/
def calibrate (b : BootEnv) (s : State) : State × Bool :=
  let src := s.stagedImage
  let bs := src.bytesOf secCal
  match calBad bs src.vendorKey b.serial with
  | some (why, kind) => s.bootFail 8 ⟨0, ((src.find secCal).map (·.2)).getD 0⟩ (·.raise .bootCalBad Dev.srcLantern [(1, why), (2, kind)])
  | none =>
    let rs := calRecords bs
    (s.onDev fun d =>
      let d := (rs.filter (·.kind = 0x104)).foldl (fun d r => d.putBytes Reg.energyCoef 11 r.body) d
      { d with boot := { d.boot with cal := bs, trims := (rs.filter (·.kind != 0x104)).map fun r => (r.kind, r.body) } }, true)

/-- What the configuration and its image leave in the block (R475, R477, R487, R488). -/
def adoptImage (s : State) (rs : List CfgRec) : State :=
  let src := s.stagedImage
  let of (kind : Nat) : Option (List Byte) := ((rs.filter (·.kind = kind)).map (·.body)).getLast?
  let policy := policyOf rs
  let plans := src.operator && bit (fieldAt src.cert 6 1) 1
  let geometry := ((of 2).map geometryOf).getD []
  let pools := (of 3).getD []
  let measured := [src.digest, sha256 (src.bytesOf secFirmware), sha256 (src.bytesOf secConfig), sha256 (src.bytesOf secCal),
    if src.operator then sha256 src.cert else List.replicate 32 0]
  s.onDev fun d =>
    let d := (d.putFlag Reg.btStatusImageValid true).putFlag Reg.btStatusOperator plans
    let d := ((d.put Reg.btImageVersion src.version).put Reg.btBuildId src.buildId).put Reg.btNorRequireImage (policy % 2)
    let d := ((d.put Reg.btNorLockKey (policy / 2)).put Reg.flsPoolsSlcPct (fieldAt pools 0 4)).put Reg.flsPoolsOpPct (fieldAt pools 4 4)
    let d := d.showGeometry geometry
    { d with boot := { d.boot with operKey := if plans then src.operatorKey else [], imageKey := if src.operator then src.operatorKey else [],
                                   measured, vendorKey := src.vendorKey, geometry, retry := (of 4).getD [], lanes := (of 5).getD [] } }

/-- REGISTER_WRITE records, in order, as host writes that reach every block (R477). -/
def applyWrites (s : State) (rs : List CfgRec) : State :=
  let pairs := (rs.filter (·.kind = 1)).flatMap fun r => (chunks 8 r.body).map fun p => (fieldAt p 0 4, fieldAt p 4 4)
  pairs.foldl (fun s (off, v) => if s.dev.boot.ran then s.write32 agLantern off v ⟨s.dev.now, ⟨[], [], []⟩, []⟩ else s) s

/-- What the always-on domain kept of a stop is raised (R431, R441). -/
def raiseKept (s : State) : State :=
  s.onDev fun d =>
    let d := match d.aon.rail with
      | some r => d.raise .pwrRailFault Dev.srcPower [(1, r)]
      | none => d
    let d := match d.aon.trip with
      | some (g, k) => d.raise .pwrThermalTrip Dev.srcPower [(1, g), (1, k)]
      | none => d
    { d with aon := { d.aon with rail := none, trip := none } }

/-- Step 9: check 6 and the configuration records. A RESET among them starts BOOT anew. -/
def configure (s : State) : State × Bool :=
  let s := s.raiseKept
  let src := s.stagedImage
  let (rs, bad) := configOf (src.bytesOf secConfig)
  let sect' := ((src.find secConfig).map (·.2)).getD 0
  if bit (policyOf rs) 0 && !src.operator then s.checkFail 9 src ⟨6, 0⟩ else
  match bad.or (((rs.filter fun r => r.kind = 2 && !geometryOk (geometryOf r.body)).head?).map fun r => (r.kind, r.off)) with
  | some (kind, off) => s.bootFail 9 ⟨0, sect'⟩ (·.raise .bootConfigBad Dev.srcLantern [(2, kind), (4, off)])
  | none =>
    let s := (s.adoptImage rs).applyWrites rs
    (s, s.dev.boot.ran)

/-- Step 10: TRAINING, with the channels trained and the map rebuilt (R288, R306). -/
def bootTraining (b : BootEnv) (s : State) : State × Bool :=
  let s := (s.enterTraining b.train false).trainChannels b.train
  ((s.startFlash b.bad b.mapBase b.pbtBase b.adopted b.torn).onDev (·.putFlag Reg.flsStatusReady true), true)

/-- The self-tests at BOOT, whose failures are held with the other records of BOOT (R322, R465). -/
def bootTest (b : BootEnv) (s : State) : State × Bool := (s.onDev (·.selfTest b.train), true)

/-- The whole sequence (R464). -/
def bootSequence (s : State) (b : BootEnv) : State :=
  let run := bootStep b.hang
  (run 10 (bootTraining b) <| run 9 configure <| run 8 (calibrate b) <| run 7 (findIdentity b) <| run 6 (readRegion b) <| run 5 stageSections <|
    run 4 (fun s => (s.onDev fun d => { d with boot := { d.boot with config := true } }, true)) <| run 3 checkSigned <| run 2 (discover b) <|
    run 1 (bootTest b) (s, true)).1

/-- RESET_RELEASE (R463): the first start, a start from SLEEP once the sequence of rails has come to the release, or a start after a RESET. -/
def resetRelease (s : State) (b : BootEnv) (rtc t : Nat) : State :=
  let wake := s.dev.inState stSleep && s.dev.aon.seq = some 7
  if !(wake || (s.dev.inState stBoot && !s.dev.boot.ran)) then s else
  let s := s.onDev fun d =>
    let d := if wake then (d.tick rtc).enterState stBoot else d
    let d := if wake then d.put Reg.epcTime (d.rd Reg.aonTimeHold) else d
    { (d.clock t).bump Ctr.btBoots with boot := { ran := true }, aon := { d.aon with seq := none } }
  s.bootSequence b

/-- BOOT_TIMEOUT (R464): 5 s from the release without step 10. -/
def bootTimeout (s : State) : State :=
  match s.dev.boot.hungAt with
  | some k => if s.dev.inState stBoot then ((s.onDev fun d => { d with boot := { d.boot with hungAt := none } }).nvmFail k 2).1 else s
  | none => s

/-! ### The end of TRAINING -/

/-- Lantern loads the image's first two plans into banks A and B as the module enters READY, and checks them (R42, R468; log entry 28). -/
def loadPlans (s : State) : State :=
  if !s.dev.inState stReady || s.dev.boot.resumed then s else
  let plans := (s.stagedImage.sections.filter (·.kind = secPlans)).take 2
  if !s.dev.flag Reg.btStatusImageValid then s else
  plans.zipIdx.foldl (fun s (e, bank) => (s.putPlan bank (s.staged e.off e.len)).runChecks bank) s

end State

/-! ### The commands -/

/-- RESET_RELEASE, with what the start meets, AON_RTC and TIME. -/
def execResetRelease (b : BootEnv) (rtc t : Nat) (s : State) : Host.Outcome State Fault Refusal := done (s.resetRelease b rtc t)

/-- BOOT_TIMEOUT. -/
def execBootTimeout (s : State) : Host.Outcome State Fault Refusal := done s.bootTimeout

/-- TRAINING_COMPLETE, with the stacks that failed. -/
def execTrainingComplete (failed : List Nat) (s : State) : Host.Outcome State Fault Refusal :=
  done (if s.dev.inState stTraining && s.trained then (s.enterReady failed).loadPlans else s)

/-- TRAINING_TIMEOUT, with the stacks not trained. -/
def execTrainingTimeout (failed : List Nat) (s : State) : Host.Outcome State Fault Refusal :=
  done (if s.dev.inState stTraining then (s.trainingExpired failed).loadPlans else s)

end Sys2Proof.Machine
end

