-- ==== Sys2Proof/Machine/Flow.lean ====
section
/-! DEFINITION. Flowstone: passes over lists and their flips (07_lists_updates_visibility.md R193 to R195). -/

namespace Sys2Proof.Machine

namespace State

/-- A surviving position: where it is, its id, code and side-entry mask. -/
structure Survivor where
  from' : Nat × Nat
  id : Nat
  code : List Byte
  mask : Option (List Byte)
  seg : Nat
  deriving DecidableEq, Repr

/-- Visible slots of an ordinal's current version at `b`. -/
def segSurvivors (s : State) (h : ListHead) (b ord : Nat) : List Survivor :=
  let d := s.segDesc h ord
  let os := s.overlays h
  let tomb := (s.devRead (s.tombAddr d.curNum) 512).1
  ((List.range d.curCount).filter fun i => !mapBit tomb i && !hiddenBy os ord i d.curVer b).map fun i =>
    { from' := (ord, i), id := s.devNat (s.segIds d.curNum + 8 * i) 8,
      code := (s.devRead (s.segAddr d.curNum + i * s.codeBytes) s.codeBytes).1, mask := none, seg := d.curNum }

/-- Side entries committed by `b` and visible at it. -/
def sideSurvivors (s : State) (h : ListHead) (b : Nat) : List Survivor :=
  (List.range (sideCount h)).filterMap fun k =>
    let q := (h.sideStart + k) % 2 ^ 32
    let e := s.sideEntry h q
    if visibleSide h e q b then
      some { from' := (0xFFFF, q), id := e.id, code := (s.devRead (s.sideAddr h q + 64) s.codeBytes).1, mask := some e.mask, seg := 0 }
    else none

/-- One past the last side entry with COMMIT at or before `b`. -/
def mergedEnd (s : State) (h : ListHead) (b : Nat) : Nat :=
  (List.range (sideCount h)).foldl (fun q k =>
    let x := (h.sideStart + k) % 2 ^ 32
    if wrapLe (s.sideEntry h x).commit b then (x + 1) % 2 ^ 32 else q) h.sideStart

/-- The rewritten ordinals: the tail, and those whose deleted share exceeds COMPACT_PCT. -/
def rewritten (s : State) (h : ListHead) (b : Nat) : List Nat :=
  (List.range h.ords).filter fun o =>
    let n := (s.segDesc h o).curCount
    o + 1 = h.ords || decide (n * s.dev.val Reg.idxFlowCompactPct < (n - (s.segSurvivors h b o).length) * 100)

/-- The next free segment number (R174). -/
def takeSeg (s : State) : Option (State × Nat) :=
  match s.dev.idx.freeSegs with
  | g :: rest => some (s.onDev fun d => { d with idx := { d.idx with freeSegs := rest } }, g)
  | [] =>
    let g := s.dev.idx.nextSeg
    if g < s.dev.val Reg.segMax then some (s.onDev fun d => { d with idx := { d.idx with nextSeg := g + 1 } }, g) else none

/-- Is a survivor a member of a set as its position stands? -/
def memberNow (s : State) (tenant : Nat) (f : Nat × Nat × Nat × Nat) (v : Survivor) : Bool :=
  f.1 = tenant && match v.mask with
    | some m => mapBit m f.2.1
    | none => mapBit (s.devRead (f.2.2.1 + 512 * v.seg) 512).1 v.from'.2

/-- A bitmap of 512 bytes from its bits. -/
def packBits (xs : List Bool) : List Byte := padTo 512 (packUnits 1 (xs.map boolNat) [])

/-- Writes one new version: codes, ids, a clear tombstone bitmap, and the bitmaps and exact summaries of every set. -/
def writeVersion (s : State) (tenant g : Nat) (vs : List Survivor) : State :=
  let s := s.devWrite (s.segAddr g) (vs.flatMap fun v => padTo s.codeBytes v.code)
  let s := s.devWrite (s.segIds g) (vs.flatMap fun v => leBytes 8 v.id)
  let s := s.devWrite (s.tombAddr g) (List.replicate 512 0)
  (s.dev.idx.filterSets.filter (·.1 = tenant)).foldl (fun s f =>
    let xs := vs.map (s.memberNow tenant f)
    (s.devWrite (f.2.2.1 + 512 * g) (packBits xs)).setMapBit f.2.2.2 g (xs.any id)) s

/-- A segment version taken from the pool and charged to the tenant, the system account credited (R246, R247). -/
def chargeSeg (s : State) (tenant : Nat) : State × Bool :=
  let (d, ok) := s.dev.charge tenant 1 s.segCharge
  ({ s with dev := if ok then d.setUsed 64 1 (d.usedOf 64 1 - s.segCharge) else d }, ok)

/-- New versions for the ordinals `ords`, filled in order with at most 4,096 codes each. Where numbers, the chain or the tenant's quota run out the
pass is abandoned: what it took goes back, and a refusal stays counted (R247). -/
def buildVersions (tenant : Nat) : List Nat → List Survivor → List NewVersion → State → State × Option (List NewVersion)
  | [], vs, made, s => if vs = [] then (s, some made) else (made.foldl (fun s v => s.freeSeg tenant v.num) s, none)
  | o :: rest, vs, made, s =>
    let undo (s : State) : State × Option (List NewVersion) := (made.foldl (fun s v => s.freeSeg tenant v.num) s, none)
    match s.takeSeg with
    | none => undo s
    | some (s, g) =>
      let (s, ok) := s.chargeSeg tenant
      if !ok then undo (s.onDev fun d => { d with idx := { d.idx with freeSegs := d.idx.freeSegs ++ [g] } }) else
      let part := vs.take 4096
      buildVersions tenant rest (vs.drop 4096) (made ++ [{ ord := o, num := g, count := part.length, sources := part.map (·.from') }])
        (s.writeVersion tenant g part)

/-- The full vector of an item as the present epoch reads it from its row table (R193, R206); `none` where the row is not found. -/
def fullVector (s : State) (table : Option Nat) (id : Nat) : Option (List Byte) :=
  table.bind fun t =>
    let r := s.rowTable t
    if !(decide (t < 64) && s.dev.on Reg.rowCtrlRowsEn && r.valid) then none else
    match (rowRead s r (fun _ => true) (if r.byShard then id else idLocal id) (s.dev.epoch % 2 ^ 32)).2 with
    | some (.redirect a) | some (.hot a) | some (.home a) => some (s.devRead a r.rowBytes).1
    | some (.flash lbn off) => some (s.tierRead 2 lbn off r.rowBytes).1
    | none => none

/-- The code of a survivor, from its full vector; one whose row is not there keeps the code it has. -/
def recode (s : State) (w : Encoding) (h : ListHead) (v : Survivor) : Survivor :=
  match s.fullVector w.table v.id with
  | some bs => { v with code := s.encodeItem w h bs }
  | none => v

/-- A flowstone pass over a list, with the present epoch as its base (R193): plan steps run it, so epochs run (R26). `bad` are the new ordinals whose
check failed, each raising INDEX_FLOW_CHECK; `flipAt` is the cairn its flip is armed for. -/
def startPass (s : State) (list flipAt : Nat) (w : Encoding) (bad : List Nat) : State :=
  let h := s.headOf list
  let b := s.dev.epoch
  if !s.dev.flag Reg.epcStatusRunning || !s.dev.on Reg.idxCtrlFlowEn || s.dev.val Reg.idxLists ≤ list || s.dev.idx.passes.any (·.list = list) then s else
  let ords := s.rewritten h b
  let vs := (ords.flatMap (s.segSurvivors h b) ++ s.sideSurvivors h b).map (s.recode w h)
  let more := ceilDiv vs.length 4096 - ords.length
  if h.ordCap < h.ords + more then s else
  match buildVersions h.tenant (ords ++ (List.range more).map fun i => h.ords + i) vs [] s with
  | (t, none) => t
  | (t, some vers) =>
    let failed := vers.filter fun v => bad.contains v.ord
    if failed ≠ [] then
      let t := failed.foldl (fun t v => t.onDev (·.raise .indexFlowCheck Dev.srcLantern [(3, list), (1, v.ord), (4, v.num)])) t
      vers.foldl (fun t v => t.freeSeg h.tenant v.num) t
    else
      (t.putHead { t.headOf list with flow := true }).onDev fun d =>
        { d.putFlag Reg.idxStatusFlowBusy true with idx := { d.idx with passes := d.idx.passes ++
          [{ list, base := b, versions := vers, mergedEnd := s.mergedEnd h b, flipAt, updates := [], triedAt := none }] } }

/-- The pass over a list ends. -/
def endPass (s : State) (list : Nat) : State :=
  let s := s.putHead { s.headOf list with flow := false }
  s.onDev fun d =>
    let ps := d.idx.passes.filter (·.list != list)
    { d with idx := { d.idx with passes := ps } }.putFlag Reg.idxStatusFlowBusy (ps != [])

/-- Where a pass puts each old position: (old ordinal, slot or sequence, new ordinal, new slot). -/
def moves (p : FlowPass) : List ((Nat × Nat) × (Nat × Nat)) :=
  p.versions.flatMap fun v => v.sources.mapIdx fun i src => (src, (v.ord, i))

/-- The overlay entries a flip adds (R194, action 4): the new parity is that of the version after the flip. -/
def carriedDeletes (s : State) (h : ListHead) (p : FlowPass) : List Overlay :=
  let parity (ord : Nat) : Nat := if ord < h.ords then ((s.segDesc h ord).curVer + 1) % 2 else 0
  let os := s.overlays h
  (moves p).filterMap fun (src, dst) =>
    if src.1 = 0xFFFF then
      let e := s.sideEntry h src.2
      if e.deleted && !wrapLe e.del p.base then some { slot := dst.2, ord := dst.1, ver := parity dst.1, commit := e.del } else none
    else (os.find? fun o => o.ord = src.1 && o.slot = src.2 && o.ver = (s.segDesc h src.1).curVer % 2 && !wrapLe o.commit p.base).map fun o =>
      { o with slot := dst.2, ord := dst.1, ver := parity dst.1 }

/-- Installs one new version at flip epoch `f` (R194, action 1). -/
def installVersion (f : Nat) (h : ListHead) (s : State) (v : NewVersion) : State :=
  let d := s.segDesc h v.ord
  if v.ord < h.ords then
    s.putSegDesc h v.ord { curNum := v.num, curCount := v.count, curVer := (d.curVer + 1) % 256, prevValid := true, from' := f,
                           prevNum := d.curNum, prevCount := d.curCount, prevVer := d.curVer, freeAt := (f + 16) % 2 ^ 32 }
  else s.putSegDesc h v.ord { curNum := v.num, curCount := v.count, curVer := 0, prevValid := false, from' := f,
                              prevNum := 0, prevCount := 0, prevVer := 0, freeAt := 0 }

/-- The map entry of a moved item follows it, if it still names the old position (R194, action 3). -/
def moveItem (list : Nat) (h : ListHead) (s : State) (m : (Nat × Nat) × (Nat × Nat)) (id : Nat) : State :=
  let e := s.itemLoc id
  let old := if m.1.1 = 0xFFFF then e.side && e.slot = m.1.2 % 2 ^ h.sideLog else !e.side && e.ord = m.1.1 && e.slot = m.1.2
  if e.list = list && old then s.putItem id { e with ord := m.2.1, slot := m.2.2, side := false } else s

/-- The flip's actions in their order (R194). -/
def flipActions (s : State) (p : FlowPass) : State :=
  let h := s.headOf p.list
  let f := s.dev.epoch % 2 ^ 32
  let adds := s.carriedDeletes h p
  let s := p.versions.foldl (installVersion f h) s
  let top := p.versions.foldl (fun n v => max n (v.ord + 1)) h.ords
  let h' := { h with ords := top, mergeEnd := p.mergedEnd, mergeAt := f }
  let s := s.putHead h'
  let s := p.versions.foldl (fun s v => (v.sources.zip (List.range v.count)).foldl (fun s (src, i) =>
    s.moveItem p.list h (src, (v.ord, i)) (s.devNat (s.segIds v.num + 8 * i) 8)) s) s
  let s := adds.foldl (fun s o => s.addOverlay (s.headOf p.list) o) s
  p.updates.foldl (fun s (set, id, on) =>
    let e := s.itemLoc id
    if e.list = p.list && e.live && !e.side then s.setMember h.tenant set e on else s) s

/-- Does a list still have a free or an advance of SIDE_START to make at this cairn (R195)? -/
def stillDue (s : State) (h : ListHead) : Bool :=
  let now := s.dev.epoch % 2 ^ 32
  ((List.range h.ords).any fun o => let d := s.segDesc h o; d.prevValid && d.freeAt = now)
    || ((h.mergeAt + 16) % 2 ^ 32 = now && sideCount h != 0 && wrapLt h.sideStart h.mergeEnd)

/-- FLOWSTONE_FLIP of a list at the present cairn (R194); it is tried once a cairn. -/
def flip (s : State) (p : FlowPass) : State :=
  let h := s.headOf p.list
  let tried (s : State) : State := s.onDev fun d => { d with idx := { d.idx with passes := d.idx.passes.map fun q =>
    if q.list = p.list then { q with triedAt := some d.epoch } else q } }
  if p.base + 16 < s.dev.epoch then
    (((p.versions.foldl (fun s v => s.freeSeg h.tenant v.num) s)).endPass p.list).onDev (·.bump Ctr.idxFlowStale)
  else if p.versions.any (fun v => v.ord < h.ords && (s.segDesc h v.ord).prevValid) then tried s
  else if !ovlRoom h (s.carriedDeletes h p).length then (tried s).onDev (·.bump Ctr.idxFlowPostponed)
  else ((s.flipActions p).endPass p.list).onDev (·.bump Ctr.idxFlips)

/-- The pass whose flip comes next at the present cairn: flips run inside the cairn, each in ascending list number (R36, R195). -/
def flipNext (s : State) : Option FlowPass :=
  if !s.dev.epc.inCairn then none else
  (s.dev.idx.passes.filter fun p => decide (p.flipAt ≤ s.dev.epoch) && p.triedAt != some s.dev.epoch).foldl (fun (best : Option FlowPass) p =>
    match best with | some b => if p.list < b.list then some p else some b | none => some p) none

end State

/-! ### The commands -/

/-- FLOWSTONE_PASS (R193). -/
def execFlowstonePass (list flipAt : Nat) (w : Encoding) (bad : List Nat) (s : State) : Host.Outcome State Fault Refusal :=
  done (s.startPass list flipAt w bad)

/-- FLOWSTONE_FLIP of a list whose armed cairn has come, once its turn comes (R194, R195). -/
def execFlowstoneFlip (list : Nat) (s : State) : Host.Outcome State Fault Refusal :=
  match s.flipNext with
  | some p => if p.list = list ∧ s.stillDue (s.headOf list) = false then done (s.flip p) else done s
  | none => done s

end Sys2Proof.Machine
end

