-- ==== Sys2Proof/Machine/Receive.lean ====
section
/-! DEFINITION. What comes in on the fabric ports, by kind of frame and message
(13_fabric_links_and_transport.md R333 to R352; 15_pools_tenants_metering.md R380, R384, R385; 18_faults_and_failover.md R451 to R454). -/

namespace Sys2Proof.Machine

/-! ### Which step takes a frame -/

/-- A whole message of one frame. -/
def Zft.single (z : Zft) : Bool := z.offset = 0 && z.total = z.data.length

/-- A plan-named fragment of a type (R341). -/
def Zft.isPlan (type : Nat) (z : Zft) : Bool := z.type = type && !z.reliable

/-- A fragment of a reliable message of a type. -/
def Zft.isMsg (type : Nat) (z : Zft) : Bool := z.type = type && z.reliable

/-- An unreliable MGMT message of a subtype (R349). -/
def Zft.isMgmt (sub : Nat) (z : Zft) : Bool := z.type = tyMgmt && !z.reliable && z.single && z.subtype = sub

/-- A fragment of a COORD message of a kind: the first one says which; a later one belongs to any (R385). -/
def Zft.isCoord (kind : Nat) (z : Zft) : Bool :=
  z.isMsg tyMgmt && (z.offset != 0 || (z.subtype = mgCoord && fieldAt z.data 1 1 = kind))

/-- A fragment of an SPDM message (R486). -/
def Zft.isSpdm (z : Zft) : Bool := z.isMsg tyMgmt && (z.offset != 0 || z.subtype = mgSpdm)

/-- Does some step take the frame? A TIME frame is multicast and not reliable (R335). -/
def Zft.taken (z : Zft) : Bool :=
  z.isPlan tyPlan || z.isPlan tySiphon || z.isMsg tyQuery || z.isMsg tyReply || z.isMsg tyBulk || z.isPlan tyTime
    || [mgAck, mgEchoReq, mgEchoRsp].any z.isMgmt || coordKinds.any z.isCoord || z.isSpdm

namespace State

/-- A frame on an UP port at TIME `t`. One that R333 discards is discarded and counted; one that `is` does not match is not this step's. -/
def onFrame (s : State) (p t : Nat) (fr : List Byte) (fcs : Bool) (is : Zft → Bool) (run : Nat → Zft → State → State) : State :=
  let d := s.dev.clock t
  if !(decide (p < 8) && d.portUp p) then s else
  match d.acceptFrame p fr fcs with
  | (d, none) => { s with dev := d }
  | (d, some (i, z)) => if is z then run i z { s with dev := d } else s

/-! ### Messages -/

/-- The reply to a query that this module's host submitted: it is written to the host (R406). This module is no client of other queries, and what
it is not waiting for it drops. -/
def replyIn (s : State) (m : Partial) : State :=
  let b := m.data
  s.onDev fun d => match d.host.queries.find? fun q => q.ref.seq = fieldAt b 8 8 && q.ref.tenant = m.tenant with
    | some q =>
      if fieldAt b 0 1 != 1 then d else
      ({ d with host := { d.host with queries := d.host.queries.erase q } }).hostReply q.ref q.addr q.cap (fieldAt b 16 8) b m.poison
    | none => d

/-- A COORD message by its KIND (R385, R452). -/
def coordIn (s : State) (b : List Byte) (node : Nat) : State :=
  let k := fieldAt b 1 1
  if k = kdAnnounce then s.announce b node
  else if k = kdProbe then s.probe b node
  else if k = kdHandoff then s.handoff b
  else if k = kdHeartbeat then s.beatIn b node
  else if k = kdDown then s.downIn b
  else if k = kdTags then s.tagsIn b node
  else if k = kdSet then s.beatSetIn b
  else s.onDev (·.bump Ctr.fabMalformed)

/-- Is a message kept for the step that answers it: a bulk load or an SPDM request? -/
def keptMessage (m : Partial) : Bool := m.type = tyBulk || (m.type = tyMgmt && fieldAt m.data 0 1 = mgSpdm)

/-- A whole message of another kind. -/
def takeMessage (s : State) (m : Partial) : State :=
  let node := s.dev.val (Reg.peerCfgNode m.peer)
  let b := m.data
  if m.type = tyQuery then s.onDev (·.arriveMessage node m.tenant b)
  else if m.type = tyReply then s.replyIn m
  else if m.type = tyMgmt && fieldAt b 0 1 = mgCoord then s.coordIn b node
  else if m.type = tyMgmt then s.onDev (·.bump Ctr.fabMalformed)
  else s

/-- The whole messages that a reliable frame has completed, in order. -/
def takeInbox (s : State) : State :=
  let now := s.dev.fab.inbox.filter (!keptMessage ·)
  let s := s.onDev fun d => { d with fab := { d.fab with inbox := d.fab.inbox.filter keptMessage } }
  now.foldl takeMessage s

/-- A reliable frame that `is` matches (R347). -/
def onReliable (s : State) (p t : Nat) (fr : List Byte) (fcs : Bool) (is : Zft → Bool) : State :=
  s.onFrame p t fr fcs is fun i z s => (s.onDev (·.takeReliable i z)).takeInbox

def onRx (s : State) (r : Rx) (is : Zft → Bool) : State :=
  match r with
  | .frame p t fr fcs => s.onReliable p t fr fcs is
  | .waiting => s

/-- The oldest whole message of a kind leaves the inbox. -/
def nextMessage (s : State) (is : Partial → Bool) : Option (Partial × State) :=
  (s.dev.fab.inbox.find? is).map fun m => (m, s.onDev fun d => { d with fab := { d.fab with inbox := d.fab.inbox.erase m } })

/-- A bulk load over the fabric: the ring entry of R403, then its content, with no buffer list. It has no completion. -/
def bulkMessage (s : State) (b : List Byte) (p : Place) : State :=
  let entry := padTo 64 (b.take 64)
  let content := b.drop 64
  let e : HostRef := { fn := Dev.fabricFn, ring := 0, seq := fieldAt entry 8 8, tenant := fieldAt entry 1 1 % 64 }
  let ok := fieldAt entry 0 1 = opBulk && decide (64 ≤ b.length) && decide (fieldAt entry 1 1 < 64) && content.length = fieldAt entry 40 8
  if hostAccepts (s.dev.rd Reg.glbState) 1 opBulk 0 then s.bulkRun e entry content ok p else s

/-- BULK. -/
def bulkIn (s : State) (r : Rx) (p : Place) : State :=
  let s := s.onRx r (Zft.isMsg tyBulk)
  match s.nextMessage fun m => m.type = tyBulk with
  | some (m, s) => s.bulkMessage m.data p
  | none => s

/-- A plan-named fragment (R341). -/
def planIn (s : State) (type p t : Nat) (fr : List Byte) (fcs : Bool) : State :=
  s.onFrame p t fr fcs (Zft.isPlan type) fun i z s => s.arrive
    { port := p, chamber := z.dstChamber, peer := i, srcChamber := z.srcChamber, tag := z.tag, epoch := z.epoch, offset := z.offset,
      total := z.total, poison := z.poison, seq := z.seq, data := z.data }

/-- A COORD message of a kind. -/
def coordFrame (s : State) (kind p t : Nat) (fr : List Byte) (fcs : Bool) : State := s.onReliable p t fr fcs (Zft.isCoord kind)

end State

namespace Dev

/-- The answer to an ECHO_REQ, on the port on which it came: t1 of the request, t2 now, t3 as it leaves (R349, R351). -/
def answerEcho (d : Dev) (p i t1 : Nat) : Dev :=
  let q := d.peerSeq i
  let d := d.setPeer { q with msgOut := q.msgOut + 1, planOut := q.planOut + 1 }
  let data := [BitVec.ofNat 8 mgEchoRsp] ++ List.replicate 7 0 ++ leBytes 8 t1 ++ leBytes 8 d.now ++ List.replicate 8 0
  let zft := d.zftHeader tyMgmt 0 0 (d.val (Reg.peerCfgNode i)) 32 0 q.planOut ++ msgPrefix 0 0 0 0 32 (q.msgOut % 2 ^ 32) ++ data
  let (d, f) := d.formFrame i p 1 0 3 (d.peerMac i) zft false
  d.enqueue f

/-- One measurement of the path delay: ((t4 − t1) − (t3 − t2)) / 2, with t4 now (R351). -/
def takeEcho (d : Dev) (p i : Nat) (b : List Byte) : Dev :=
  if i != d.val Reg.fabTimeSourcePeer then d else
  let t1 : Int := fieldAt b 8 8
  let t2 : Int := fieldAt b 16 8
  let t3 : Int := fieldAt b 24 8
  d.pathDelay p ((((d.now : Int) - t1) - (t3 - t2)) / 2)

/-- A frame that no step takes is discarded: as malformed where R333 has passed it. -/
def discardFrame (d : Dev) : Dev := d.bump Ctr.fabMalformed

end Dev

/-- RECEIVED_FRAME_DISCARD: a frame that R333 discards, one of a class that its type does not have, and a reserved MGMT subtype or COORD kind. -/
def State.discardIn (s : State) (p t : Nat) (fr : List Byte) (fcs : Bool) : State :=
  s.onFrame p t fr fcs (!Zft.taken ·) fun i z s =>
    if z.isMsg tyMgmt then (s.onDev (·.takeReliable i z)).takeInbox else s.onDev (·.discardFrame)

/-! ### The commands: a frame of a port at TIME `t`, its bytes but the FCS, and whether that holds -/

/-- PLAN. -/
def execPlanFrame (p t : Nat) (fr : List Byte) (fcs : Bool) (s : State) : Host.Outcome State Fault Refusal := done (s.planIn tyPlan p t fr fcs)

/-- SIPHON. -/
def execSiphonFrame (p t : Nat) (fr : List Byte) (fcs : Bool) (s : State) : Host.Outcome State Fault Refusal := done (s.planIn tySiphon p t fr fcs)

/-- QUERY_MESSAGE. -/
def execQueryMessage (p t : Nat) (fr : List Byte) (fcs : Bool) (s : State) : Host.Outcome State Fault Refusal :=
  done (s.onReliable p t fr fcs (Zft.isMsg tyQuery))

/-- REPLY. -/
def execReply (p t : Nat) (fr : List Byte) (fcs : Bool) (s : State) : Host.Outcome State Fault Refusal :=
  done (s.onReliable p t fr fcs (Zft.isMsg tyReply))

/-- BULK; the place is what Lantern chooses for the load. -/
def execBulk (r : Rx) (p : Place) (s : State) : Host.Outcome State Fault Refusal := done (s.bulkIn r p)

/-- ACK. -/
def execAckFrame (p t : Nat) (fr : List Byte) (fcs : Bool) (s : State) : Host.Outcome State Fault Refusal :=
  done (s.onFrame p t fr fcs (Zft.isMgmt mgAck) fun i z s => s.onDev (·.takeAck i (fieldAt z.data 8 8)))

/-- ECHO_REQ. -/
def execEchoReq (p t : Nat) (fr : List Byte) (fcs : Bool) (s : State) : Host.Outcome State Fault Refusal :=
  done (s.onFrame p t fr fcs (Zft.isMgmt mgEchoReq) fun i z s => s.onDev (·.answerEcho p i (fieldAt z.data 8 8)))

/-- ECHO_RSP. -/
def execEchoRsp (p t : Nat) (fr : List Byte) (fcs : Bool) (s : State) : Host.Outcome State Fault Refusal :=
  done (s.onFrame p t fr fcs (Zft.isMgmt mgEchoRsp) fun i z s => s.onDev (·.takeEcho p i z.data))

/-- TIME, from the time source. -/
def execTimeFrame (p t : Nat) (fr : List Byte) (fcs : Bool) (s : State) : Host.Outcome State Fault Refusal :=
  done (s.onFrame p t fr fcs (Zft.isPlan tyTime) fun _ z s => s.onDev (·.discipline p (fieldAt z.data 0 8)))

/-- MAP_ANNOUNCE. -/
def execMapAnnounce (p t : Nat) (fr : List Byte) (fcs : Bool) (s : State) : Host.Outcome State Fault Refusal := done (s.coordFrame kdAnnounce p t fr fcs)

/-- STATE_PROBE. -/
def execStateProbe (p t : Nat) (fr : List Byte) (fcs : Bool) (s : State) : Host.Outcome State Fault Refusal := done (s.coordFrame kdProbe p t fr fcs)

/-- STATE_HANDOFF. -/
def execStateHandoff (p t : Nat) (fr : List Byte) (fcs : Bool) (s : State) : Host.Outcome State Fault Refusal := done (s.coordFrame kdHandoff p t fr fcs)

/-- HEARTBEAT. -/
def execHeartbeat (p t : Nat) (fr : List Byte) (fcs : Bool) (s : State) : Host.Outcome State Fault Refusal := done (s.coordFrame kdHeartbeat p t fr fcs)

/-- HEARTBEAT_SET. -/
def execHeartbeatSet (p t : Nat) (fr : List Byte) (fcs : Bool) (s : State) : Host.Outcome State Fault Refusal := done (s.coordFrame kdSet p t fr fcs)

/-- DOWN. -/
def execDownMessage (p t : Nat) (fr : List Byte) (fcs : Bool) (s : State) : Host.Outcome State Fault Refusal := done (s.coordFrame kdDown p t fr fcs)

/-- TAGS. -/
def execTagsMessage (p t : Nat) (fr : List Byte) (fcs : Bool) (s : State) : Host.Outcome State Fault Refusal := done (s.coordFrame kdTags p t fr fcs)

/-- RECEIVED_FRAME_DISCARD. -/
def execReceivedFrameDiscard (p t : Nat) (fr : List Byte) (fcs : Bool) (s : State) : Host.Outcome State Fault Refusal := done (s.discardIn p t fr fcs)

end Sys2Proof.Machine
end

