-- ==== Sys2Proof/Machine/Spdm.lean ====
section
/-! DEFINITION. The DOE mailbox and the SPDM responder (16_host_attachment.md R410; 19_start_configuration_identity.md R479, R486, R487). The spec names
SPDM 1.3 and IDE_KM and gives no layouts: they are PRESUMED (log entry 26). What only keys or chance could give is a free value. -/

namespace Sys2Proof.Machine

open Sys2Proof.Crypto

/-! ### Data objects -/

/-- A DOE data object of a type (0 Discovery, 1 CMA/SPDM, 2 Secured CMA/SPDM), padded to whole 32-bit words. -/
def doeObject (type : Nat) (payload : List Byte) : List Byte :=
  let n := roundUp payload.length 4
  leBytes 2 1 ++ leBytes 1 type ++ [0] ++ leBytes 4 (n / 4 + 2) ++ padTo n payload

/-- The type and payload of an object of at most 65,536 bytes. -/
def doeParse (object : List Byte) : Option (Nat × List Byte) :=
  if 8 ≤ object.length ∧ object.length ≤ 65536 ∧ fieldAt object 0 2 = 1 then some (fieldAt object 2 1, object.drop 8) else none

/-- An SPDM request: its transport (0 the DOE, n + 1 the fabric peer n), the session that secures it, and its bytes. -/
structure Req where
  transport : Nat
  session : Option SpdmSession
  msg : List Byte
  deriving DecidableEq, Repr

/-- Error codes of an SPDM ERROR. -/
def seInvalid : Nat := 0x01
def seUnexpected : Nat := 0x04
def seUnspecified : Nat := 0x05
def seDecrypt : Nat := 0x06
def seSessionLimit : Nat := 0x0A
def seSessionRequired : Nat := 0x0B
def seVersion : Nat := 0x41

def spdmError (code : Nat) : List Byte := [0x13, 0x7F, BitVec.ofNat 8 code, 0]

/-- Header of a response of SPDM 1.3. -/
def spdmHead (code p1 p2 : Nat) : List Byte := [0x13, BitVec.ofNat 8 code, BitVec.ofNat 8 p1, BitVec.ofNat 8 p2]

namespace Dev

/-- The next free bytes of a reply. -/
def drawSpdm (d : Dev) (n : Nat) : Dev × List Byte := ({ d with freeCtr := d.freeCtr + 1 }, padTo n (Config.spdmBytes d.freeCtr n))

/-- A response goes out where the request came in, sealed in its session if it has one. -/
def answer (d : Dev) (q : Req) (bs : List Byte) : Dev :=
  let (d, secured, payload) : Dev × Nat × List Byte := match q.session with
    | none => (d, 0, bs)
    | some x =>
      let c := Config.spdmSealed d.freeCtr bs
      ({ d with freeCtr := d.freeCtr + 1 }, 1, leBytes 4 x.id ++ leBytes 2 c.length ++ c)
  if q.transport = 0 then d.emit (.object 0 (doeObject (1 + secured) payload))
  else d.sendReliable (q.transport - 1) tyMgmt mgSpdm 0 ([BitVec.ofNat 8 mgSpdm, BitVec.ofNat 8 secured] ++ List.replicate 6 0 ++ payload) false

def endSession (d : Dev) (x : SpdmSession) : Dev := { d with spdm := { d.spdm with sessions := d.spdm.sessions.erase x } }

def putSession (d : Dev) (x y : SpdmSession) : Dev :=
  { d with spdm := { d.spdm with sessions := d.spdm.sessions.map fun z => if z = x then y else z } }

/-- SPDM_SECURE_FAIL: the transport (0 DOE, 1 fabric) and the peer's node; a DOE has none. -/
def secureFail (d : Dev) (x : SpdmSession) : Dev :=
  (d.endSession x).raise .spdmSecureFail srcLantern [(1, min x.transport 1), (2, if x.transport = 0 then 0xFFFF else x.transport - 1)]

def spdmStage (d : Dev) (transport : Nat) : Nat := assocD 0 transport d.spdm.stage
def setStage (d : Dev) (transport n : Nat) : Dev := { d with spdm := { d.spdm with stage := assocPut transport n d.spdm.stage } }

end Dev

namespace State

/-- Is a payload a request of this code? -/
def spdmIs (code : Nat) (msg : List Byte) : Bool := fieldAt msg 1 1 = code && decide (4 ≤ msg.length)

/-- The request that came in: its transport, whether it is secured, its payload, and the state without it. -/
def spdmIncoming (s : State) (v : Via) : Option (Nat × Bool × List Byte × State) :=
  match v with
  | .doe object =>
    if !s.dev.configured then none else
    match doeParse object with
    | some (1, b) => some (0, false, b, s)
    | some (2, b) => some (0, true, b, s)
    | _ => none
  | .fabric _ =>
    (s.nextMessage fun m => m.type = tyMgmt && fieldAt m.data 0 1 = mgSpdm && decide (m.data.length ≤ 65544)).map fun (m, s') =>
      (s.dev.val (Reg.peerCfgNode m.peer) + 1, bit (fieldAt m.data 1 1) 0, m.data.drop 8, s')

/-- A request of a code is served in every state but SLEEP (R486). One that another code spells is not this step's; a secured one that fails its
AEAD check ends its session. -/
def spdm (s : State) (code : Nat) (v : Via) (opened : Option (List Byte)) (run : Req → Dev → Dev) : State :=
  if s.dev.inState stSleep then s else
  let s := match v with
    | .doe _ => s
    | .fabric r => s.onRx r Zft.isSpdm
  match s.spdmIncoming v with
  | none => s
  | some (t, secured, b, after) =>
    let serve (x : Option SpdmSession) (m : List Byte) : State :=
      if spdmIs code m then after.onDev fun d => run ⟨t, x, m⟩ (d.bump Ctr.btSpdmRequests) else s
    if !secured then serve none b else
    match s.dev.spdm.sessions.find? fun x => x.transport = t && x.id = fieldAt b 0 4, opened with
    | some x, none => after.onDev (·.secureFail x)
    | some x, some m => serve (some x) m
    | none, _ => after

end State

/-! ### Connection -/

namespace Dev

/-- A request after the connection has come to a stage, of version 1.3; one in a session before FINISH is unexpected. -/
def connected (d : Dev) (q : Req) (stage : Nat) (run : Dev → Dev) : Dev :=
  if fieldAt q.msg 0 1 != 0x13 then d.answer q (spdmError seVersion)
  else if d.spdmStage q.transport < stage || q.session.any (!·.finished) then d.answer q (spdmError seUnexpected)
  else run d

/-- VERSION: 1.3 only. -/
def spdmVersion (q : Req) (d : Dev) : Dev :=
  (d.setStage q.transport 1).answer q [0x10, 0x04, 0, 0, 0, 1, 0x00, 0x13]

/-- CAPABILITIES: certificates, challenge, signed measurements, encryption, MAC, key exchange, heartbeat and key update. -/
def spdmCapabilities (q : Req) (d : Dev) : Dev :=
  d.connected q 1 fun d =>
    let (d, ct) := d.drawSpdm 1
    let flags := 2 ^ 1 + 2 ^ 2 + 2 * 2 ^ 3 + 2 ^ 6 + 2 ^ 7 + 2 ^ 9 + 2 ^ 13 + 2 ^ 14
    (d.setStage q.transport (max 2 (d.spdmStage q.transport))).answer q
      (spdmHead 0x61 0 0 ++ [0] ++ ct ++ [0, 0] ++ leBytes 4 flags ++ leBytes 4 65536 ++ leBytes 4 65536)

/-- The algorithm structures of a request, answered with what R486 supports: DHE secp256r1, AEAD AES-256-GCM, no requester key, key schedule 1. -/
def algStructs (b : List Byte) : List Byte :=
  (chunks 4 b).flatMap fun x =>
    let sel := [(2, 8), (3, 2), (5, 1)].foldl (fun n (t, v) => if fieldAt x 0 1 = t then v &&& fieldAt x 2 2 else n) 0
    leBytes 1 (fieldAt x 0 1) ++ [0x20] ++ leBytes 2 sel

/-- ALGORITHMS: of what is offered, ECDSA P-256 and SHA-256. -/
def spdmAlgorithms (q : Req) (d : Dev) : Dev :=
  d.connected q 2 fun d =>
    let b := q.msg
    let n := fieldAt b 2 1
    let structs := ((b.drop (32 + 4 * (fieldAt b 28 1 + fieldAt b 29 1))).take (4 * n))
    let asym := fieldAt b 8 4 &&& 16
    let hash := fieldAt b 12 4 &&& 1
    let body := [BitVec.ofNat 8 (fieldAt b 6 1 &&& 1), 0] ++ leBytes 4 2 ++ leBytes 4 asym ++ leBytes 4 hash ++ List.replicate 12 0 ++ [0, 0, 0, 0]
      ++ algStructs structs
    let d := if asym = 16 ∧ hash = 1 then d.setStage q.transport (max 3 (d.spdmStage q.transport)) else d
    d.answer q (spdmHead 0x63 n 0 ++ leBytes 2 (6 + body.length) ++ body)

/-! ### Certificates -/

/-- Slot 0: the root certificate, then the device certificate, after the length and the root's digest. -/
def certChain (d : Dev) : List Byte :=
  let body := sha256 (d.boot.certs.getD 0 []) ++ d.boot.certs.flatten
  leBytes 2 (4 + body.length) ++ [0, 0] ++ body

/-- DIGESTS. -/
def spdmDigests (q : Req) (d : Dev) : Dev :=
  d.connected q 3 fun d => d.answer q (spdmHead 0x01 1 1 ++ sha256 d.certChain)

/-- CERTIFICATE: a portion of slot 0. -/
def spdmCertificate (q : Req) (d : Dev) : Dev :=
  d.connected q 3 fun d =>
    let chain := d.certChain
    let off := fieldAt q.msg 4 2
    if fieldAt q.msg 2 1 % 16 != 0 || decide (chain.length ≤ off) then d.answer q (spdmError seInvalid) else
    let part := (chain.drop off).take (fieldAt q.msg 6 2)
    d.answer q (spdmHead 0x02 0 0 ++ leBytes 2 part.length ++ leBytes 2 (chain.length - off - part.length) ++ part)

/-- The ten measurements of R487 as (value type, value), at the latest snapshot point; in RECOVERY, 2 to 6 are 32 zero bytes. -/
def measurements (d : Dev) : List (Nat × List Byte) :=
  let zero : List Byte := List.replicate 32 0
  let of (i : Nat) : List Byte := if d.inState stRecovery then zero else d.boot.measured.getD i zero
  let bank (i : Nat) : List Byte := d.spdm.banks.getD i (if i = 2 then List.replicate 9 0 else zero)
  [(0, Config.romDigest), (1, of 0), (1, of 1), (3, of 2), (2, of 3), (3, of 4), (3, bank 0), (3, bank 1), (0x83, bank 2),
   (0x86, leBytes 8 (d.rd Reg.btImageVersion) ++ leBytes 8 (d.rd Reg.btBuildId))]

/-- The measurement block of an index, from 1. -/
def measurementBlock (i : Nat) (m : Nat × List Byte) : List Byte :=
  leBytes 1 i ++ [1] ++ leBytes 2 (3 + m.2.length) ++ leBytes 1 m.1 ++ leBytes 2 m.2.length ++ m.2

/-- The measurement summary: none, all of them hashed, or that of a trusted base, which no rule picks out. -/
def summary (d : Dev) (type : Nat) : Dev × List Byte :=
  if type = 0 then (d, [])
  else if type = 0xFF then (d, sha256 (d.measurements.zipIdx.flatMap fun (m, i) => measurementBlock (i + 1) m))
  else d.drawSpdm 32

/-- Does a request that needs the identity key get the ERROR of R486? -/
def keyed (d : Dev) (q : Req) (run : Dev → Dev) : Dev :=
  if d.flag Reg.btStatusIdValid then run d else d.answer q (spdmError seUnspecified)

/-- CHALLENGE_AUTH: nonce and signature are free. -/
def spdmChallenge (q : Req) (d : Dev) : Dev :=
  d.connected q 3 fun d => d.keyed q fun d =>
    if fieldAt q.msg 2 1 != 0 then d.answer q (spdmError seInvalid) else
    let (d, sum) := d.summary (fieldAt q.msg 3 1)
    let (d, nonce) := d.drawSpdm 32
    let (d, sig) := d.drawSpdm 64
    d.answer q (spdmHead 0x03 0 1 ++ sha256 d.certChain ++ nonce ++ sum ++ [0, 0] ++ padTo 8 ((q.msg.drop 36).take 8) ++ sig)

/-- MEASUREMENTS: their number, all of them, or one; signed where the request asks for it. -/
def spdmMeasurements (q : Req) (d : Dev) : Dev :=
  d.connected q 3 fun d =>
    let sign := bit (fieldAt q.msg 2 1) 0
    let op := fieldAt q.msg 3 1
    let run (d : Dev) : Dev :=
      let all := d.measurements.zipIdx.map fun (m, i) => measurementBlock (i + 1) m
      let blocks := if op = 0 then [] else if op = 0xFF then all else (all.drop (op - 1)).take 1
      if op != 0 && blocks = [] then d.answer q (spdmError seInvalid) else
      let (d, nonce) := d.drawSpdm 32
      let (d, sig) := if sign then d.drawSpdm 64 else (d, [])
      let context := padTo 8 ((q.msg.drop (if sign then 37 else 4)).take 8)
      d.answer q (spdmHead 0x60 (if op = 0 then 10 else 0) 0 ++ leBytes 1 blocks.length ++ leBytes 3 blocks.flatten.length ++ blocks.flatten
        ++ nonce ++ [0, 0] ++ context ++ sig)
    if sign then d.keyed q run else run d

/-! ### Sessions -/

/-- Room for a session on a transport: four on the DOE, one for each peer and 64 on the fabric. -/
def sessionRoom (d : Dev) (transport : Nat) : Bool :=
  let xs := d.spdm.sessions
  if transport = 0 then decide ((xs.filter (·.transport = 0)).length < 4)
  else !xs.any (·.transport = transport) && decide ((xs.filter (·.transport != 0)).length < 64)

/-- KEY_EXCHANGE_RSP: a session begins; random data, key share, signature and HMAC are free. -/
def spdmKeyExchange (q : Req) (d : Dev) : Dev :=
  d.connected q 3 fun d => d.keyed q fun d =>
    if q.session.isSome then d.answer q (spdmError seUnexpected)
    else if fieldAt q.msg 3 1 != 0 then d.answer q (spdmError seInvalid)
    else if !d.sessionRoom q.transport then d.answer q (spdmError seSessionLimit)
    else
      let own := d.spdm.nextId % 65536
      let x : SpdmSession := { transport := q.transport, id := fieldAt q.msg 4 2 + 65536 * own, finished := false, updates := 0 }
      let (d, period) := d.drawSpdm 1
      let (d, sum) := d.summary (fieldAt q.msg 2 1)
      let (d, rest) := d.drawSpdm 96
      let (d, tail) := d.drawSpdm 96
      let d := { d with spdm := { d.spdm with nextId := d.spdm.nextId + 1, sessions := d.spdm.sessions ++ [x] } }
      d.answer q ([0x13, 0x64] ++ period ++ [0] ++ leBytes 2 own ++ [0, 0] ++ rest ++ sum ++ [0, 0] ++ tail)

/-- FINISH: with the HMAC right the session is established, else it ends. -/
def spdmFinish (ok : Bool) (q : Req) (d : Dev) : Dev :=
  match q.session with
  | none => d.answer q (spdmError seSessionRequired)
  | some x =>
    if x.finished then d.answer q (spdmError seUnexpected)
    else if !ok then (d.answer q (spdmError seDecrypt)).endSession x
    else ((d.putSession x { x with finished := true }).bump Ctr.btSpdmSessions).answer q (spdmHead 0x65 0 0)

/-- A request that only an established session may carry. -/
def inSession (d : Dev) (q : Req) (run : SpdmSession → Dev → Dev) : Dev :=
  d.connected q 3 fun d => match q.session with
    | none => d.answer q (spdmError seSessionRequired)
    | some x => run x d

/-- HEARTBEAT_ACK. -/
def spdmHeartbeat (q : Req) (d : Dev) : Dev := d.inSession q fun _ d => d.answer q (spdmHead 0x68 0 0)

/-- KEY_UPDATE_ACK: operations 1 and 2 update keys, 3 verifies them. -/
def spdmKeyUpdate (q : Req) (d : Dev) : Dev :=
  d.inSession q fun x d =>
    let op := fieldAt q.msg 2 1
    if !between 1 op 3 then d.answer q (spdmError seInvalid) else
    let d := d.answer q (spdmHead 0x69 op (fieldAt q.msg 3 1))
    if op = 3 then d else d.putSession x { x with updates := x.updates + 1 }

/-- END_SESSION_ACK. -/
def spdmEndSession (q : Req) (d : Dev) : Dev := d.inSession q fun x d => (d.answer q (spdmHead 0x6C 0 0)).endSession x

/-! ### IDE_KM (R410) -/

/-- A stream is keyed and Secure, or no longer keyed. -/
def keyStream (d : Dev) (stream : Nat) (go : Bool) : Dev :=
  let rest := d.host.keyed.filter (· != stream)
  ({ d with host := { d.host with keyed := if go then rest ++ [stream] else rest, insecure := d.host.insecure.filter (· != stream) } }).showIde

/-- VENDOR_DEFINED_REQUEST of IDE_KM, in a session of the DOE: QUERY, KEY_PROG, K_SET_GO and K_SET_STOP. -/
def spdmVendor (q : Req) (d : Dev) : Dev :=
  d.inSession q fun _ d =>
    let b := q.msg
    let p := b.drop 11
    let obj := fieldAt p 1 1
    let stream := fieldAt p 4 1
    if fieldAt b 4 2 != 3 || fieldAt b 6 1 != 2 || fieldAt b 7 2 != 1 || fieldAt p 0 1 != 0 || !List.contains [0, 2, 4, 5] obj then
      d.answer q (spdmError seInvalid)
    else
      let say (d : Dev) (body : List Byte) : Dev :=
        d.answer q (spdmHead 0x7E 0 0 ++ leBytes 2 3 ++ [2] ++ leBytes 2 1 ++ leBytes 2 body.length ++ body)
      if obj = 0 then
        let (d, rest) := d.drawSpdm 4
        say d ([0, 1] ++ rest)
      else if 4 < stream then d.answer q (spdmError seInvalid)
      else
        let d := if obj = 4 then d.keyStream stream true else if obj = 5 then d.keyStream stream false else d
        say d ([0, BitVec.ofNat 8 (if obj = 2 then 3 else 6)] ++ (p.drop 2).take 5)

/-- DOE Discovery: the type of an index and the next index. -/
def doeDiscovery (d : Dev) (object : List Byte) : Dev :=
  if d.inState stSleep || !d.configured then d else
  match doeParse object with
  | some (0, b) =>
    let i := fieldAt b 0 1
    d.emit (.object 0 (doeObject 0 (if i < 3 then leBytes 2 1 ++ leBytes 1 i ++ leBytes 1 ((i + 1) % 3) else [0xFF, 0xFF, 0xFF, 0])))
  | _ => d

end Dev

/-! ### The commands: how the request came in, and what the AEAD opens of a secured one (none: its check fails) -/

/-- GET_VERSION. -/
def execGetVersion (v : Via) (opened : Option (List Byte)) (s : State) : Host.Outcome State Fault Refusal :=
  done (s.spdm 0x84 v opened Dev.spdmVersion)

/-- GET_CAPABILITIES. -/
def execGetCapabilities (v : Via) (opened : Option (List Byte)) (s : State) : Host.Outcome State Fault Refusal :=
  done (s.spdm 0xE1 v opened Dev.spdmCapabilities)

/-- NEGOTIATE_ALGORITHMS. -/
def execNegotiateAlgorithms (v : Via) (opened : Option (List Byte)) (s : State) : Host.Outcome State Fault Refusal :=
  done (s.spdm 0xE3 v opened Dev.spdmAlgorithms)

/-- GET_DIGESTS. -/
def execGetDigests (v : Via) (opened : Option (List Byte)) (s : State) : Host.Outcome State Fault Refusal :=
  done (s.spdm 0x81 v opened Dev.spdmDigests)

/-- GET_CERTIFICATE. -/
def execGetCertificate (v : Via) (opened : Option (List Byte)) (s : State) : Host.Outcome State Fault Refusal :=
  done (s.spdm 0x82 v opened Dev.spdmCertificate)

/-- CHALLENGE. -/
def execChallenge (v : Via) (opened : Option (List Byte)) (s : State) : Host.Outcome State Fault Refusal :=
  done (s.spdm 0x83 v opened Dev.spdmChallenge)

/-- GET_MEASUREMENTS. -/
def execGetMeasurements (v : Via) (opened : Option (List Byte)) (s : State) : Host.Outcome State Fault Refusal :=
  done (s.spdm 0xE0 v opened Dev.spdmMeasurements)

/-- KEY_EXCHANGE. -/
def execKeyExchange (v : Via) (opened : Option (List Byte)) (s : State) : Host.Outcome State Fault Refusal :=
  done (s.spdm 0xE4 v opened Dev.spdmKeyExchange)

/-- FINISH; `ok`: its HMAC holds. -/
def execFinish (v : Via) (opened : Option (List Byte)) (ok : Bool) (s : State) : Host.Outcome State Fault Refusal :=
  done (s.spdm 0xE5 v opened (Dev.spdmFinish ok))

/-- HEARTBEAT of SPDM. -/
def execSpdmHeartbeat (v : Via) (opened : Option (List Byte)) (s : State) : Host.Outcome State Fault Refusal :=
  done (s.spdm 0xE8 v opened Dev.spdmHeartbeat)

/-- KEY_UPDATE. -/
def execKeyUpdate (v : Via) (opened : Option (List Byte)) (s : State) : Host.Outcome State Fault Refusal :=
  done (s.spdm 0xE9 v opened Dev.spdmKeyUpdate)

/-- END_SESSION. -/
def execEndSession (v : Via) (opened : Option (List Byte)) (s : State) : Host.Outcome State Fault Refusal :=
  done (s.spdm 0xEC v opened Dev.spdmEndSession)

/-- VENDOR_DEFINED_REQUEST, on the DOE only. -/
def execVendorDefinedRequest (opened : Option (List Byte)) (object : List Byte) (s : State) : Host.Outcome State Fault Refusal :=
  done (s.spdm 0xFE (.doe object) opened Dev.spdmVendor)

/-- DOE_DISCOVERY. -/
def execDoeDiscovery (object : List Byte) (s : State) : Host.Outcome State Fault Refusal := devOnly s (·.doeDiscovery object)

end Sys2Proof.Machine
end

