-- ==== Sys2Proof/Machine/Monitor.lean ====
section
/-! DEFINITION. The Padon monitor (20_padon_monitor.md R491 to R501). The spec gives what a reply says and its last line; the form of the other lines
is the model's (log entry 29). -/

namespace Sys2Proof.Machine

open Sys2Proof.Crypto

/-! ### Lines (R492) -/

def upper (c : Char) : Char := if 97 ≤ c.toNat ∧ c.toNat ≤ 122 then Char.ofNat (c.toNat - 32) else c

/-- The words of a line, between spaces. -/
def words (line : List Char) : List (List Char) :=
  let step (c : Char) (acc : List Char × List (List Char)) : List Char × List (List Char) :=
    if c = ' ' then ([], if acc.1 = [] then acc.2 else acc.1 :: acc.2) else (c :: acc.1, acc.2)
  let r := line.foldr step ([], [])
  if r.1 = [] then r.2 else r.1 :: r.2

def hexValue (c : Char) : Option Nat :=
  let n := (upper c).toNat
  if 48 ≤ n ∧ n ≤ 57 then some (n - 48) else if 65 ≤ n ∧ n ≤ 70 then some (n - 55) else none

/-- A number: hexadecimal, with or without 0x, underscores left out. -/
def parseHex (w : List Char) : Option Nat :=
  let w := w.filter (· != '_')
  let w := if (w.take 2).map upper = ['0', 'X'] then w.drop 2 else w
  if w = [] then none else w.foldl (fun acc c => acc.bind fun n => (hexValue c).map (16 * n + ·)) (some 0)

/-- The keywords of R494. -/
def keywords : List (List Char) :=
  [['R', 'D'], ['W', 'R'], ['C', 'N', 'T'], ['M', 'E', 'M'], ['F', 'A', 'U', 'L', 'T', 'S'], ['S', 'T', 'A', 'T', 'E'],
   ['S', 'E', 'N', 'S', 'O', 'R', 'S'], ['L', 'I', 'N', 'K', 'S'], ['L', 'O', 'A', 'D'], ['N', 'O', 'R', 'W', 'R', 'I', 'T', 'E'],
   ['B', 'O', 'O', 'T', 'S', 'T', 'A', 'G', 'E', 'D'], ['S', 'T', 'E', 'P'], ['D', 'E', 'B', 'U', 'G']]

/-- The words after which a failed command's ERR ends (R493). -/
inductive MonErr where | badcmd | arg | state | range | busy | check | timeout | long
  deriving DecidableEq, Repr

def MonErr.text : MonErr → String
  | .badcmd => "ERR BADCMD"
  | .arg => "ERR ARG"
  | .state => "ERR STATE"
  | .range => "ERR RANGE"
  | .busy => "ERR BUSY"
  | .check => "ERR CHECK"
  | .timeout => "ERR TIMEOUT"
  | .long => "ERR LONG"

/-- The digits of a decimal number below 10. -/
def digitText (n : Nat) : String := String.ofList [Char.ofNat (48 + n % 10)]

namespace Dev

/-- Lines, and the prompt after them. -/
def say (d : Dev) (lines : List String) : Dev := (lines ++ ["> "]).foldl (fun d l => d.emit (.line l)) d

def sayErr (d : Dev) (e : MonErr) : Dev := d.say [e.text]

/-- States from BOOT up to DRAIN, and those from READY up to DRAIN. -/
def bootToDrain (d : Dev) : Bool := between 1 (d.rd Reg.glbState) 6
def readyToDrain (d : Dev) : Bool := between 4 (d.rd Reg.glbState) 6

end Dev

namespace State

def say (s : State) (lines : List String) : State := s.onDev (·.say lines)
def sayErr (s : State) (e : MonErr) : State := s.onDev (·.sayErr e)

/-- Is the monitor listening for a line: powered, with no block transfer and no command under way? A WR is heard during a STEP (R501). -/
def listening (s : State) (wr : Bool) : Bool := !s.dev.inState stSleep && s.dev.mon.load.isNone && (wr || s.dev.epc.monStep = 0)

/-- A command line with this keyword, accepted in the states that `ok` names, with its arguments as words. -/
def monitor (s : State) (line kw : List Char) (ok : Bool) (run : List (List Char) → State) : State :=
  match words line with
  | w :: args =>
    if !s.listening (kw = ['W', 'R']) || w.map upper != kw || decide (255 < line.length) then s
    else if !ok then s.sayErr .state
    else if !line.all (fun c => between 0x20 c.toNat 0x7E) then s.sayErr .arg
    else run args
  | [] => s

/-- One number, and one that may be left out. -/
def numArgs (dflt : Nat) (args : List (List Char)) : Option (Nat × Nat) :=
  match args with
  | [a] => (parseHex a).map (·, dflt)
  | [a, b] => (parseHex a).bind fun x => (parseHex b).map (x, ·)
  | _ => none

/-! ### Registers (R494, R495) -/

/-- RD: `n` registers from an offset. -/
def monRd (s : State) (line : List Char) : State :=
  s.monitor line ['R', 'D'] true fun args =>
    match numArgs 1 args with
    | none => s.sayErr .arg
    | some (off, n) =>
      if !(between 1 n 64 && decide (off + 4 * n ≤ 0x4000000) && off % 4 = 0) then s.sayErr .range else
      let (s, lines) := (List.range n).foldl (fun (acc : State × List String) i =>
        let (s, v) := acc.1.read32 agMonitor (off + 4 * i)
        (s, acc.2 ++ [hexText 8 (off + 4 * i) ++ " " ++ hexText 8 v])) (s, [])
      s.say (lines ++ ["OK"])

/-- WR: one register. -/
def monWr (s : State) (line : List Char) (e : WriteEnv) : State :=
  s.monitor line ['W', 'R'] true fun args =>
    match args with
    | [a, b] =>
      match parseHex a, parseHex b with
      | some off, some v =>
        if !(decide (off + 4 ≤ 0x4000000) && off % 4 = 0 && decide (v < 2 ^ 32)) then s.sayErr .range
        else ((s.onDev (·.clock e.t)).regWrite agMonitor off 4 v e).say ["OK"]
      | _, _ => s.sayErr .arg
    | _ => s.sayErr .arg

/-- CNT: `n` counter pairs. -/
def monCnt (s : State) (line : List Char) : State :=
  s.monitor line ['C', 'N', 'T'] true fun args =>
    match numArgs 1 args with
    | none => s.sayErr .arg
    | some (off, n) =>
      if !(between 1 n 32 && decide (off + 8 * n ≤ 0x4000000) && off % 8 = 0) then s.sayErr .range else
      let (s, lines) := (List.range n).foldl (fun (acc : State × List String) i =>
        let (s, lo) := acc.1.read32 agMonitor (off + 8 * i)
        let (s, hi) := s.read32 agMonitor (off + 8 * i + 4)
        (s, acc.2 ++ [hexText 8 (off + 8 * i) ++ " " ++ hexText 16 (lo + 2 ^ 32 * hi)])) (s, [])
      s.say (lines ++ ["OK"])

/-! ### Memory, faults and status (R494, R496) -/

/-- MEM: bytes at a device address, 32 a line. -/
def monMem (s : State) (line : List Char) : State :=
  s.monitor line ['M', 'E', 'M'] true fun args =>
    match args with
    | [a, b] =>
      match parseHex a, parseHex b with
      | some addr, some n =>
        if !(between 1 n 4096 && inTier addr n) then s.sayErr .range
        else if !(if addr < 0x1000000000 then s.dev.bootToDrain else s.dev.readyToDrain) then s.sayErr .state
        else
          let text (i : Nat) : String :=
            let (bs, bad) := s.devRead (addr + 32 * i) (min 32 (n - 32 * i))
            hexText 10 (addr + 32 * i) ++ " " ++ hexBytes bs ++ (if bad then " POISON" else "")
          s.say ((List.range ((n + 31) / 32)).map text ++ ["OK"])
      | _, _ => s.sayErr .arg
    | _ => s.sayErr .arg

/-- FAULTS: the newest records, newest first; in BOOT and RECOVERY those of the buffer (R465). -/
def monFaults (s : State) (line : List Char) : State :=
  s.monitor line ['F', 'A', 'U', 'L', 'T', 'S'] true fun args =>
    match (match args with
      | [] => some 16
      | [a] => parseHex a
      | _ => none) with
    | none => s.sayErr .arg
    | some n =>
      if !between 1 n 64 then s.sayErr .range else
      let rs := if s.dev.booting then s.dev.flt.boot else s.dev.flt.recent
      s.say ((rs.reverse.take n).map (fun r => hexBytes (Dev.recordBytes r)) ++ ["OK"])

def stateName (n : Nat) : String := ["SLEEP", "BOOT", "RECOVERY", "TRAINING", "READY", "ACTIVE", "DRAIN", "RETAIN"].getD n ""

/-- A named register of `k` digits. -/
def regLine (s : State) (name : String) (k off : Nat) : String := name ++ " " ++ hexText k (regValue s.dev off)

def noArgs (s : State) (args : List (List Char)) (lines : List String) : State := if args = [] then s.say (lines ++ ["OK"]) else s.sayErr .arg

/-- STATE. -/
def monState (s : State) (line : List Char) : State :=
  s.monitor line ['S', 'T', 'A', 'T', 'E'] true fun args => s.noArgs args
    ["STATE " ++ stateName (s.dev.rd Reg.glbState), s.regLine "EPC_NUMBER" 16 Reg.epcNumber.off, s.regLine "BT_STATUS" 8 Reg.btStatusImageValid.off,
     s.regLine "BT_FAIL" 8 Reg.btFailCode.off, s.regLine "AON_STATUS" 8 Reg.aonStatusTripped.off]

/-- SENSORS. -/
def monSensors (s : State) (line : List Char) : State :=
  s.monitor line ['S', 'E', 'N', 'S', 'O', 'R', 'S'] true fun args => s.noArgs args
    ([s.regLine "PWR_TEMP_MAX" 8 Reg.pwrTempMax.off] ++ (List.range 8).map (fun i => s.regLine "PWR_TEMP_J" 8 (Reg.pwrTempJ i).off)
      ++ (List.range 4).map (fun i => s.regLine "PWR_TEMP_S" 8 (Reg.pwrTempS i).off)
      ++ (List.range 48).map (fun i => s.regLine "STK_TEMP" 8 (Reg.stkTemp (i / 4) (i % 4)).off)
      ++ [s.regLine "PWR_INPUT" 8 Reg.pwrInputVinMv.off, s.regLine "PWR_POWER" 8 Reg.pwrPowerPinDw.off, s.regLine "PWR_RAILS" 8 Reg.pwrRailsGood.off,
          "PWR_STATUS.OPP " ++ hexText 1 (s.dev.rd Reg.pwrStatusOpp)])

/-- LINKS. -/
def monLinks (s : State) (line : List Char) : State :=
  let d := s.dev
  s.monitor line ['L', 'I', 'N', 'K', 'S'] true fun args => s.noArgs args
    ((List.range 8).map (fun p => "PORT " ++ hexText 1 p ++ " " ++ hexText 1 (d.rd (Reg.portStatusState p)) ++ " " ++ hexText 1 (d.rd (Reg.portStatusSpeed p))
        ++ " " ++ hexText 8 (d.rd (Reg.portPathDelay p)))
      ++ [s.regLine "HST_STATUS" 8 Reg.hstStatusRate.off]
      ++ (List.range 12).map (fun k => "STACK " ++ hexText 1 k ++ " " ++ hexText 1 (d.rd (Reg.stkStatusTrained k)))
      ++ (List.range 32).map (fun c => "CHANNEL " ++ hexText 2 c ++ " " ++ hexText 1 (d.rd (Reg.chStatusTrained c))))

/-! ### Images (R498, R499) -/

def imageStates (s : State) : Bool := s.dev.inState stRecovery || s.dev.inState stReady

/-- Staging is empty: no load under way, no image staged by the monitor. -/
def emptyStaging (s : State) : State := s.onDev fun d => { d with mon := {} }

/-- LOAD: a block transfer into staging begins. -/
def monLoad (s : State) (line : List Char) : State :=
  s.monitor line ['L', 'O', 'A', 'D'] s.imageStates fun args =>
    match args with
    | [a] =>
      match parseHex a with
      | none => s.sayErr .arg
      | some len =>
        if !(decide (8192 ≤ len) && decide (len ≤ s.imageMax)) then s.sayErr .range else
        s.onDev fun d => { (d.emit (.line ("OK READY " ++ hexText 8 ((len + 4095) / 4096)))) with mon := { load := some len } }
    | _ => s.sayErr .arg

/-- The end of a LOAD: checks 1 to 5 on the staged image. -/
def loadEnd (s : State) (len : Nat) : State :=
  match (s.stagedImage.checks s.imageMax s.serial).filter (·.check ≤ 5) with
  | none => (s.onDev fun d => { d with mon := { staged := len, accepted := true } }).say ["OK STAGED"]
  | some f => s.emptyStaging.say ["ERR CHECK " ++ digitText f.check]

/-- LOAD_BLOCK: a block with its CRC-32C, folded with its offset in the image, is accepted or rejected; the ninth rejection ends the load. -/
def loadBlock (s : State) (data : List Byte) (crc : Nat) : State :=
  if s.dev.inState stSleep then s else
  match s.dev.mon.load with
  | none => s
  | some len =>
    let k := s.dev.mon.block
    let off := 4096 * k
    if data.length = min 4096 (len - off) ∧ crc = check32c off data then
      let s := (s.stage off data).onDev fun d => { (d.emit (.byte 0x06)) with mon := { d.mon with block := k + 1, rejects := 0 } }
      if off + data.length = len then s.loadEnd len else s
    else
      let n := s.dev.mon.rejects + 1
      let s := s.onDev fun d => { (d.emit (.byte 0x15)) with mon := { d.mon with rejects := n } }
      if n = 9 then s.emptyStaging.sayErr .check else s

/-- LOAD_TIMEOUT: 5 s without a byte. -/
def loadTimeout (s : State) : State := if s.dev.mon.load.isSome then s.emptyStaging.sayErr .timeout else s

/-- NORWRITE: steps 2 to 4 of R476 on the staged image; in RECOVERY the module then enters BOOT. -/
def norWrite (s : State) (line : List Char) (t : Nat) (bad : Option (Nat × Nat)) : State :=
  s.monitor line ['N', 'O', 'R', 'W', 'R', 'I', 'T', 'E'] s.imageStates fun args =>
    if args != [] then s.sayErr .arg
    else if !s.dev.mon.accepted then s.sayErr .check
    else
      let (s, ok) := (s.onDev (·.clock t)).replaceImage none bad
      if !ok then s.sayErr .check
      else
        let s := s.say ["OK WRITTEN"]
        if s.dev.inState stRecovery then s.reboot false else s

/-- BOOTSTAGED: BOOT from the staged image. -/
def bootStaged (s : State) (line : List Char) : State :=
  s.monitor line ['B', 'O', 'O', 'T', 'S', 'T', 'A', 'G', 'E', 'D'] (s.dev.inState stRecovery) fun args =>
    if args != [] then s.sayErr .arg
    else if !s.dev.mon.accepted then s.sayErr .check
    else (s.say ["OK"]).reboot true

/-! ### STEP (R500) and DEBUG (R497) -/

/-- STEP: one epoch in READY, from the next 1 µs boundary of TIME. Its reply comes with its closing cairn. -/
def monStep (s : State) (line : List Char) (t : Nat) : State :=
  let d := s.dev
  let ok := d.inState stReady && d.rd Reg.poolMapVersionCurrent = 0 && d.flag (Reg.plnStatusValid d.activeBank)
  s.monitor line ['S', 'T', 'E', 'P'] ok fun args =>
    if args != [] then s.sayErr .arg
    else if d.rd Reg.epcCtrlEnable = 1 then s.sayErr .busy
    else s.onDev fun d =>
      let d := d.clock t
      let base := ((List.range 256).map fun c => d.count (Ctr.chSlotMiss c)).sum
      { d with epc := { d.epc with monStep := 2, firstAt := some ((d.now / 1000 + 1) * 1000), missBase := base } }

/-- DEBUG ON and DEBUG OFF; an argument that is neither is ON's to refuse. -/
def debug (s : State) (line : List Char) (on : Bool) : State :=
  let off (args : List (List Char)) : Bool := args.map (·.map upper) = [['O', 'F', 'F']]
  if off ((words line).drop 1) = on then s else
  s.monitor line ['D', 'E', 'B', 'U', 'G'] true fun args =>
    if off args then (s.onDev (·.putFlag Reg.hstStatusDebugEn false)).say ["OK"]
    else if args.map (·.map upper) = [['O', 'N']] then (s.onDev (·.putFlag Reg.hstStatusDebugEn true)).say ["OK"]
    else s.sayErr .arg

/-- UNKNOWN_COMMAND: a line whose first word is no keyword. -/
def unknownLine (s : State) (line : List Char) : State :=
  match words line with
  | w :: _ => if s.listening false && !keywords.contains (w.map upper) && decide (line.length ≤ 255) then s.sayErr .badcmd else s
  | [] => s

/-- LINE_TOO_LONG: a line of `n` characters. -/
def longLine (s : State) (n : Nat) : State := if s.listening false && decide (255 < n) then s.sayErr .long else s

end State

/-! ### The commands: a line without its ending -/

/-- RD. -/
def execRd (line : List Char) (s : State) : Host.Outcome State Fault Refusal := done (s.monRd line)

/-- WR. -/
def execWr (line : List Char) (e : WriteEnv) (s : State) : Host.Outcome State Fault Refusal := done (s.monWr line e)

/-- CNT. -/
def execCnt (line : List Char) (s : State) : Host.Outcome State Fault Refusal := done (s.monCnt line)

/-- MEM. -/
def execMemCmd (line : List Char) (s : State) : Host.Outcome State Fault Refusal := done (s.monMem line)

/-- FAULTS. -/
def execFaults (line : List Char) (s : State) : Host.Outcome State Fault Refusal := done (s.monFaults line)

/-- STATE. -/
def execStateCmd (line : List Char) (s : State) : Host.Outcome State Fault Refusal := done (s.monState line)

/-- SENSORS. -/
def execSensors (line : List Char) (s : State) : Host.Outcome State Fault Refusal := done (s.monSensors line)

/-- LINKS. -/
def execLinks (line : List Char) (s : State) : Host.Outcome State Fault Refusal := done (s.monLinks line)

/-- LOAD. -/
def execLoadCmd (line : List Char) (s : State) : Host.Outcome State Fault Refusal := done (s.monLoad line)

/-- LOAD_BLOCK: the data of a block and the CRC-32C that follows it. -/
def execLoadBlock (data : List Byte) (crc : Nat) (s : State) : Host.Outcome State Fault Refusal := done (s.loadBlock data crc)

/-- LOAD_TIMEOUT. -/
def execLoadTimeout (s : State) : Host.Outcome State Fault Refusal := done s.loadTimeout

/-- NORWRITE at TIME `t`; `bad` is the NOR offset and reason of what fails in the device. -/
def execNorwrite (line : List Char) (t : Nat) (bad : Option (Nat × Nat)) (s : State) : Host.Outcome State Fault Refusal := done (s.norWrite line t bad)

/-- BOOTSTAGED. -/
def execBootstaged (line : List Char) (s : State) : Host.Outcome State Fault Refusal := done (s.bootStaged line)

/-- STEP, at TIME `t`. -/
def execStepCmd (line : List Char) (t : Nat) (s : State) : Host.Outcome State Fault Refusal := done (s.monStep line t)

/-- DEBUG ON. -/
def execDebugOn (line : List Char) (s : State) : Host.Outcome State Fault Refusal := done (s.debug line true)

/-- DEBUG OFF. -/
def execDebugOff (line : List Char) (s : State) : Host.Outcome State Fault Refusal := done (s.debug line false)

/-- UNKNOWN_COMMAND. -/
def execUnknownCommand (line : List Char) (s : State) : Host.Outcome State Fault Refusal := done (s.unknownLine line)

/-- LINE_TOO_LONG. -/
def execLineTooLong (n : Nat) (s : State) : Host.Outcome State Fault Refusal := done (s.longLine n)

end Sys2Proof.Machine
end

