-- ==== Sys2Proof/Machine/Dispatch.lean ====
section
/-! DEFINITION. The one match of the machine: a command to its meaning. -/

namespace Sys2Proof.Machine

def exec (i : Instr) (s : State) : Host.Outcome State Fault Refusal :=
  match i with
  | .inputValid => Sys2Proof.Machine.execInputValid s
  | .railSequenceStep => Sys2Proof.Machine.execRailSequenceStep s
  | .railPowerGoodMiss rail => Sys2Proof.Machine.execRailPowerGoodMiss rail s
  | .railPowerGoodLoss rail => Sys2Proof.Machine.execRailPowerGoodLoss rail s
  | .refclkLoss => Sys2Proof.Machine.execRefclkLoss s
  | .resetRelease b rtc t => Sys2Proof.Machine.execResetRelease b rtc t s
  | .bootTimeout => Sys2Proof.Machine.execBootTimeout s
  | .trainingComplete failed => Sys2Proof.Machine.execTrainingComplete failed s
  | .trainingTimeout failed => Sys2Proof.Machine.execTrainingTimeout failed s
  | .drainComplete => Sys2Proof.Machine.execDrainComplete s
  | .drainCmd => Sys2Proof.Machine.execDrainCmd s
  | .retainCmd => Sys2Proof.Machine.execRetainCmd s
  | .resumeCmd t lost => Sys2Proof.Machine.execResumeCmd t lost s
  | .sleepCmd => Sys2Proof.Machine.execSleepCmd s
  | .resetCmd => Sys2Proof.Machine.execResetCmd s
  | .perstNAssert => Sys2Proof.Machine.execPerstNAssert s
  | .wakeNWake perst rtc => Sys2Proof.Machine.execWakeNWake perst rtc s
  | .perstNWake rtc => Sys2Proof.Machine.execPerstNWake rtc s
  | .comparatorWake k rtc => Sys2Proof.Machine.execComparatorWake k rtc s
  | .aonCmpVinTrip vin t => Sys2Proof.Machine.execAonCmpVinTrip vin t s
  | .vinRecoveryTimeout => Sys2Proof.Machine.execVinRecoveryTimeout s
  | .aonCmpTempTrip temp => Sys2Proof.Machine.execAonCmpTempTrip temp s
  | .aonCmpAuxTrip level => Sys2Proof.Machine.execAonCmpAuxTrip level s
  | .powerSample x => Sys2Proof.Machine.execPowerSample x s
  | .thermalSample j st r stuck => Sys2Proof.Machine.execThermalSample j st r stuck s
  | .droopTrip => Sys2Proof.Machine.execDroopTrip s
  | .stretchEnd edges => Sys2Proof.Machine.execStretchEnd edges s
  | .oppStepDownComplete stuck => Sys2Proof.Machine.execOppStepDownComplete stuck s
  | .oppStepUpPowerGood => Sys2Proof.Machine.execOppStepUpPowerGood s
  | .oppStepUpAbandon rail => Sys2Proof.Machine.execOppStepUpAbandon rail s
  | .epochBoundary x => Sys2Proof.Machine.execEpochBoundary x s
  | .wearCheck => Sys2Proof.Machine.execWearCheck s
  | .cairnOverrun excess => Sys2Proof.Machine.execCairnOverrun excess s
  | .planBankSwitch => Sys2Proof.Machine.execPlanBankSwitch s
  | .slotStart m t work => Sys2Proof.Machine.execSlotStart m t work s
  | .ingressCutoff sample plan => Sys2Proof.Machine.execIngressCutoff sample plan s
  | .epochSyncEdge t rising => Sys2Proof.Machine.execEpochSyncEdge t rising s
  | .startGenerator t => Sys2Proof.Machine.execStartGenerator t s
  | .stopGenerator => Sys2Proof.Machine.execStopGenerator s
  | .planArm v => Sys2Proof.Machine.execPlanArm v s
  | .verify bank => Sys2Proof.Machine.execVerify bank s
  | .planVerifyComplete bank => Sys2Proof.Machine.execPlanVerifyComplete bank s
  | .invalidate bank => Sys2Proof.Machine.execInvalidate bank s
  | .planBankWrite bank chamber off bs poison => Sys2Proof.Machine.execPlanBankWrite bank chamber off bs poison s
  | .stepComplete c idx origin e => Sys2Proof.Machine.execStepComplete c idx origin e s
  | .seqTimeout c unit' idx => Sys2Proof.Machine.execSeqTimeout c unit' idx s
  | .sumpEntryExpire background => Sys2Proof.Machine.execSumpEntryExpire background s
  | .sump c h p us => Sys2Proof.Machine.execSump c h p us s
  | .barrierFreeNote c h p us => Sys2Proof.Machine.execBarrierFreeNote c h p us s
  | .scan c h p us => Sys2Proof.Machine.execScan c h p us s
  | .lookupBuild c h p us => Sys2Proof.Machine.execLookupBuild c h p us s
  | .lookupScore c h p us => Sys2Proof.Machine.execLookupScore c h p us s
  | .lookupSave c h p us => Sys2Proof.Machine.execLookupSave c h p us s
  | .lookupLoad c h p us => Sys2Proof.Machine.execLookupLoad c h p us s
  | .matmul c h p us => Sys2Proof.Machine.execMatmul c h p us s
  | .vecopAdd c h p us => Sys2Proof.Machine.execVecopAdd c h p us s
  | .vecopSub c h p us => Sys2Proof.Machine.execVecopSub c h p us s
  | .vecopMul c h p us => Sys2Proof.Machine.execVecopMul c h p us s
  | .vecopFma c h p us => Sys2Proof.Machine.execVecopFma c h p us s
  | .vecopFmas c h p us => Sys2Proof.Machine.execVecopFmas c h p us s
  | .vecopMax c h p us => Sys2Proof.Machine.execVecopMax c h p us s
  | .vecopMin c h p us => Sys2Proof.Machine.execVecopMin c h p us s
  | .vecopAbs c h p us => Sys2Proof.Machine.execVecopAbs c h p us s
  | .vecopNeg c h p us => Sys2Proof.Machine.execVecopNeg c h p us s
  | .vecopAnd c h p us => Sys2Proof.Machine.execVecopAnd c h p us s
  | .vecopOr c h p us => Sys2Proof.Machine.execVecopOr c h p us s
  | .vecopXor c h p us => Sys2Proof.Machine.execVecopXor c h p us s
  | .vecopShl c h p us => Sys2Proof.Machine.execVecopShl c h p us s
  | .vecopShra c h p us => Sys2Proof.Machine.execVecopShra c h p us s
  | .vecopSumr c h p us => Sys2Proof.Machine.execVecopSumr c h p us s
  | .vecopMaxr c h p us => Sys2Proof.Machine.execVecopMaxr c h p us s
  | .vecopMinr c h p us => Sys2Proof.Machine.execVecopMinr c h p us s
  | .vecopLoad c h p us => Sys2Proof.Machine.execVecopLoad c h p us s
  | .vecopStore c h p us => Sys2Proof.Machine.execVecopStore c h p us s
  | .vecopBroadcast c h p us => Sys2Proof.Machine.execVecopBroadcast c h p us s
  | .vecopCmpgt c h p us => Sys2Proof.Machine.execVecopCmpgt c h p us s
  | .vecopSelect c h p us => Sys2Proof.Machine.execVecopSelect c h p us s
  | .activateRelu c h p us => Sys2Proof.Machine.execActivateRelu c h p us s
  | .activateClamp c h p us => Sys2Proof.Machine.execActivateClamp c h p us s
  | .activateSign c h p us => Sys2Proof.Machine.execActivateSign c h p us s
  | .activateGelu c h p us => Sys2Proof.Machine.execActivateGelu c h p us s
  | .activateSilu c h p us => Sys2Proof.Machine.execActivateSilu c h p us s
  | .activateSigmoid c h p us => Sys2Proof.Machine.execActivateSigmoid c h p us s
  | .activateTanh c h p us => Sys2Proof.Machine.execActivateTanh c h p us s
  | .activateExp c h p us => Sys2Proof.Machine.execActivateExp c h p us s
  | .activateRecip c h p us => Sys2Proof.Machine.execActivateRecip c h p us s
  | .activateRsqrt c h p us => Sys2Proof.Machine.execActivateRsqrt c h p us s
  | .convert c h p us => Sys2Proof.Machine.execConvert c h p us s
  | .selectRecords c h p us => Sys2Proof.Machine.execSelectRecords c h p us s
  | .selectRuns c h p us => Sys2Proof.Machine.execSelectRuns c h p us s
  | .merge c h p us => Sys2Proof.Machine.execMerge c h p us s
  | .gatherFetch c h p us => Sys2Proof.Machine.execGatherFetch c h p us s
  | .gatherSplit c h p us => Sys2Proof.Machine.execGatherSplit c h p us s
  | .gatherServe c h p us => Sys2Proof.Machine.execGatherServe c h p us s
  | .gatherFill c h p us => Sys2Proof.Machine.execGatherFill c h p us s
  | .scatter c h p us => Sys2Proof.Machine.execScatter c h p us s
  | .send c h p us => Sys2Proof.Machine.execSend c h p us s
  | .recv c h p us => Sys2Proof.Machine.execRecv c h p us s
  | .recvComplete c e => Sys2Proof.Machine.execRecvComplete c e s
  | .pimRun c h p us => Sys2Proof.Machine.execPimRun c h p us s
  | .pimQueueAdmit st => Sys2Proof.Machine.execPimQueueAdmit st s
  | .pimChunkEnd st die groups idle bad => Sys2Proof.Machine.execPimChunkEnd st die groups idle bad s
  | .pimSeal c h p us => Sys2Proof.Machine.execPimSeal c h p us s
  | .sealStripeComplete st r => Sys2Proof.Machine.execSealStripeComplete st r s
  | .stackRefreshDue st die running => Sys2Proof.Machine.execStackRefreshDue st die running s
  | .dieTempSample st die t => Sys2Proof.Machine.execDieTempSample st die t s
  | .stkModeWrite st j v => Sys2Proof.Machine.execStkModeWrite st j v s
  | .flashread c h p us => Sys2Proof.Machine.execFlashread c h p us s
  | .flashreadDeadline c idx => Sys2Proof.Machine.execFlashreadDeadline c idx s
  | .flashwrite c h p us => Sys2Proof.Machine.execFlashwrite c h p us s
  | .flashReadComplete k cws => Sys2Proof.Machine.execFlashReadComplete k cws s
  | .flashProgramComplete k ok => Sys2Proof.Machine.execFlashProgramComplete k ok s
  | .flashEraseComplete ch pb ok => Sys2Proof.Machine.execFlashEraseComplete ch pb ok s
  | .fold lbn fails bad => Sys2Proof.Machine.execFold lbn fails bad s
  | .logMerge lbn fails bad => Sys2Proof.Machine.execLogMerge lbn fails bad s
  | .gcMerge ch fails bad => Sys2Proof.Machine.execGcMerge ch fails bad s
  | .relocation lbn fails bad => Sys2Proof.Machine.execRelocation lbn fails bad s
  | .mapCheckpoint => Sys2Proof.Machine.execMapCheckpoint s
  | .checkRange c h p us => Sys2Proof.Machine.execCheckRange c h p us s
  | .checkTapval c h p us => Sys2Proof.Machine.execCheckTapval c h p us s
  | .checkWeight c h p us => Sys2Proof.Machine.execCheckWeight c h p us s
  | .weightReload c a copy => Sys2Proof.Machine.execWeightReload c a copy s
  | .mapTakeEffect gone => Sys2Proof.Machine.execMapTakeEffect gone s
  | .stateClaim cohort shard kind shadow replica steps => Sys2Proof.Machine.execStateClaim cohort shard kind shadow replica steps s
  | .downSetApply => Sys2Proof.Machine.execDownSetApply s
  | .heartbeatSend => Sys2Proof.Machine.execHeartbeatSend s
  | .heartbeatSetSend => Sys2Proof.Machine.execHeartbeatSetSend s
  | .downDeclare => Sys2Proof.Machine.execDownDeclare s
  | .cohortAgeOut => Sys2Proof.Machine.execCohortAgeOut s
  | .overlayEntryFoldable list k => Sys2Proof.Machine.execOverlayEntryFoldable list k s
  | .prevVersionFree list ord => Sys2Proof.Machine.execPrevVersionFree list ord s
  | .sideStartAdvance list => Sys2Proof.Machine.execSideStartAdvance list s
  | .flowstonePass list flipAt code bad => Sys2Proof.Machine.execFlowstonePass list flipAt code bad s
  | .flowstoneFlip list => Sys2Proof.Machine.execFlowstoneFlip list s
  | .tableVersionFlip t home tier present base expect => Sys2Proof.Machine.execTableVersionFlip t home tier present base expect s
  | .tableVersionFree t => Sys2Proof.Machine.execTableVersionFree t s
  | .redirectFold t bucket k => Sys2Proof.Machine.execRedirectFold t bucket k s
  | .driplineRefresh t build => Sys2Proof.Machine.execDriplineRefresh t build s
  | .hotIndexFlip t => Sys2Proof.Machine.execHotIndexFlip t s
  | .tierMoveRequest datum tier dest arm written => Sys2Proof.Machine.execTierMoveRequest datum tier dest arm written s
  | .moveChunkCopy datum n retries => Sys2Proof.Machine.execMoveChunkCopy datum n retries s
  | .moveCheckComplete datum => Sys2Proof.Machine.execMoveCheckComplete datum s
  | .homeFlip datum refs => Sys2Proof.Machine.execHomeFlip datum refs s
  | .homeRangeFree datum => Sys2Proof.Machine.execHomeRangeFree datum s
  | .moveCancel datum => Sys2Proof.Machine.execMoveCancel datum s
  | .scrubAtomRead a row out => Sys2Proof.Machine.execScrubAtomRead a row out s
  | .rowRepairSwap row => Sys2Proof.Machine.execRowRepairSwap row s
  | .watchdogExpire core => Sys2Proof.Machine.execWatchdogExpire core s
  | .planFrame p t fr fcs => Sys2Proof.Machine.execPlanFrame p t fr fcs s
  | .siphonFrame p t fr fcs => Sys2Proof.Machine.execSiphonFrame p t fr fcs s
  | .queryMessage p t fr fcs => Sys2Proof.Machine.execQueryMessage p t fr fcs s
  | .reply p t fr fcs => Sys2Proof.Machine.execReply p t fr fcs s
  | .bulk r p => Sys2Proof.Machine.execBulk r p s
  | .ackFrame p t fr fcs => Sys2Proof.Machine.execAckFrame p t fr fcs s
  | .echoReq p t fr fcs => Sys2Proof.Machine.execEchoReq p t fr fcs s
  | .echoRsp p t fr fcs => Sys2Proof.Machine.execEchoRsp p t fr fcs s
  | .timeFrame p t fr fcs => Sys2Proof.Machine.execTimeFrame p t fr fcs s
  | .mapAnnounce p t fr fcs => Sys2Proof.Machine.execMapAnnounce p t fr fcs s
  | .stateProbe p t fr fcs => Sys2Proof.Machine.execStateProbe p t fr fcs s
  | .stateHandoff p t fr fcs => Sys2Proof.Machine.execStateHandoff p t fr fcs s
  | .heartbeat p t fr fcs => Sys2Proof.Machine.execHeartbeat p t fr fcs s
  | .heartbeatSet p t fr fcs => Sys2Proof.Machine.execHeartbeatSet p t fr fcs s
  | .downMessage p t fr fcs => Sys2Proof.Machine.execDownMessage p t fr fcs s
  | .tagsMessage p t fr fcs => Sys2Proof.Machine.execTagsMessage p t fr fcs s
  | .getVersion v opened => Sys2Proof.Machine.execGetVersion v opened s
  | .getCapabilities v opened => Sys2Proof.Machine.execGetCapabilities v opened s
  | .negotiateAlgorithms v opened => Sys2Proof.Machine.execNegotiateAlgorithms v opened s
  | .getDigests v opened => Sys2Proof.Machine.execGetDigests v opened s
  | .getCertificate v opened => Sys2Proof.Machine.execGetCertificate v opened s
  | .challenge v opened => Sys2Proof.Machine.execChallenge v opened s
  | .getMeasurements v opened => Sys2Proof.Machine.execGetMeasurements v opened s
  | .keyExchange v opened => Sys2Proof.Machine.execKeyExchange v opened s
  | .finish v opened ok => Sys2Proof.Machine.execFinish v opened ok s
  | .spdmHeartbeat v opened => Sys2Proof.Machine.execSpdmHeartbeat v opened s
  | .keyUpdate v opened => Sys2Proof.Machine.execKeyUpdate v opened s
  | .endSession v opened => Sys2Proof.Machine.execEndSession v opened s
  | .vendorDefinedRequest opened object => Sys2Proof.Machine.execVendorDefinedRequest opened object s
  | .ackTimer t => Sys2Proof.Machine.execAckTimer t s
  | .retransmitTimer t => Sys2Proof.Machine.execRetransmitTimer t s
  | .timeFrameSend t => Sys2Proof.Machine.execTimeFrameSend t s
  | .echoExchange t => Sys2Proof.Machine.execEchoExchange t s
  | .timeLoss t => Sys2Proof.Machine.execTimeLoss t s
  | .portTrainingTimeout p => Sys2Proof.Machine.execPortTrainingTimeout p s
  | .portPhyUp p => Sys2Proof.Machine.execPortPhyUp p s
  | .portUp p => Sys2Proof.Machine.execPortUp p s
  | .portAlignmentLoss p => Sys2Proof.Machine.execPortAlignmentLoss p s
  | .fecWindow p good bad t => Sys2Proof.Machine.execFecWindow p good bad t s
  | .portEnableWrite v => Sys2Proof.Machine.execPortEnableWrite v s
  | .egressChoice p t parity => Sys2Proof.Machine.execEgressChoice p t parity s
  | .tokenRefill t => Sys2Proof.Machine.execTokenRefill t s
  | .queueUrgent p w t => Sys2Proof.Machine.execQueueUrgent p w t s
  | .egressSample t => Sys2Proof.Machine.execEgressSample t s
  | .sqTailDoorbell fn ring v => Sys2Proof.Machine.execSqTailDoorbell fn ring v s
  | .cqHeadDoorbell fn ring v t => Sys2Proof.Machine.execCqHeadDoorbell fn ring v t s
  | .hostQuery fn ring entry record x => Sys2Proof.Machine.execHostQuery fn ring entry record x s
  | .hostOperation fn ring entry record x => Sys2Proof.Machine.execHostOperation fn ring entry record x s
  | .bulkLoad fn ring entry list content x p => Sys2Proof.Machine.execBulkLoad fn ring entry list content x p s
  | .planSupply fn ring entry list content x => Sys2Proof.Machine.execPlanSupply fn ring entry list content x s
  | .imageSupply fn ring t entry list content x bad => Sys2Proof.Machine.execImageSupply fn ring t entry list content x bad s
  | .completionPost k t x => Sys2Proof.Machine.execCompletionPost k t x s
  | .cqInterrupt fn ring t => Sys2Proof.Machine.execCqInterrupt fn ring t s
  | .functionLevelReset fn => Sys2Proof.Machine.execFunctionLevelReset fn s
  | .ideTlpFail stream => Sys2Proof.Machine.execIdeTlpFail stream s
  | .hostLinkTrained rate width => Sys2Proof.Machine.execHostLinkTrained rate width s
  | .ringEnableWrite fn ring v => Sys2Proof.Machine.execRingEnableWrite fn ring v s
  | .bar4Read a n => Sys2Proof.Machine.execBar4Read a n s
  | .registerWrite off size v e => Sys2Proof.Machine.execRegisterWrite off size v e s
  | .lowerHalfWrite agent off v => Sys2Proof.Machine.execLowerHalfWrite agent off v s
  | .counterLowerRead agent read => Sys2Proof.Machine.execCounterLowerRead agent read s
  | .sumpPeakRead agent c => Sys2Proof.Machine.execSumpPeakRead agent c s
  | .badAccess write off size => Sys2Proof.Machine.execBadAccess write off size s
  | .rd line => Sys2Proof.Machine.execRd line s
  | .wr line e => Sys2Proof.Machine.execWr line e s
  | .cnt line => Sys2Proof.Machine.execCnt line s
  | .memCmd line => Sys2Proof.Machine.execMemCmd line s
  | .faults line => Sys2Proof.Machine.execFaults line s
  | .stateCmd line => Sys2Proof.Machine.execStateCmd line s
  | .sensors line => Sys2Proof.Machine.execSensors line s
  | .links line => Sys2Proof.Machine.execLinks line s
  | .loadCmd line => Sys2Proof.Machine.execLoadCmd line s
  | .loadBlock data crc => Sys2Proof.Machine.execLoadBlock data crc s
  | .loadTimeout => Sys2Proof.Machine.execLoadTimeout s
  | .norwrite line t bad => Sys2Proof.Machine.execNorwrite line t bad s
  | .bootstaged line => Sys2Proof.Machine.execBootstaged line s
  | .stepCmd line t => Sys2Proof.Machine.execStepCmd line t s
  | .debugOn line => Sys2Proof.Machine.execDebugOn line s
  | .debugOff line => Sys2Proof.Machine.execDebugOff line s
  | .lineTooLong n => Sys2Proof.Machine.execLineTooLong n s
  | .receivedFrameDiscard p t fr fcs => Sys2Proof.Machine.execReceivedFrameDiscard p t fr fcs s
  | .comparatorRelease k t => Sys2Proof.Machine.execComparatorRelease k t s
  | .vaonFail => Sys2Proof.Machine.execVaonFail s
  | .crystalStable => Sys2Proof.Machine.execCrystalStable s
  | .applyPoint t => Sys2Proof.Machine.execApplyPoint t s
  | .snapshotPoint t => Sys2Proof.Machine.execSnapshotPoint t s
  | .doeDiscovery object => Sys2Proof.Machine.execDoeDiscovery object s
  | .configurationRequest => Sys2Proof.Machine.execConfigurationRequest s
  | .unknownCommand line => Sys2Proof.Machine.execUnknownCommand line s
  | .hostLinkDown => Sys2Proof.Machine.execHostLinkDown s

end Sys2Proof.Machine
end

