-- ==== Sys2Proof/WellFormed.lean ====
section
/-! DEFINITION. Well-formed commands: every operand within the range that the bytes, registers and units it stands for can hold. A
command outside these ranges is nothing that the world outside the block can send; the block's own checks of a step's fields (R47) come on top of them. -/

namespace Sys2Proof

/-- `n` fits in `w` bits. -/
def fits (w n : Nat) : Bool := decide (n < 2 ^ w)

/-- The fields of bytes 0 to 15 of a descriptor fit in their bytes (R46). -/
def Hdr.fits (h : Hdr) : Bool :=
  decide (h.flags < 2 ^ 8) && decide (h.slot < 2 ^ 16) && decide (h.budget < 2 ^ 16) && decide (h.deadline < 2 ^ 16) && decide (h.depends < 2 ^ 16)
    && decide (h.tenant < 2 ^ 8) && decide (h.stage < 2 ^ 8) && decide (h.index < 2 ^ 16) && decide (h.expiry < 2 ^ 8)

/-! ### The parameters of each type fit in their fields -/

def ScanP.fits (p : ScanP) : Bool :=
  decide (p.probeAddr < 2 ^ 32) && decide (p.probeFirst < 2 ^ 16) && decide (p.probeLimit < 2 ^ 16) && decide (p.fmt < 2 ^ 8) && decide (p.metric < 2 ^ 8)
    && decide (p.batchMax < 2 ^ 8) && decide (p.parts < 2 ^ 8) && decide (p.recAddr < 2 ^ 32) && decide (p.recCap < 2 ^ 32) && decide (p.runAddr < 2 ^ 32)
    && decide (p.runCap < 2 ^ 32) && decide (p.nomBpc < 2 ^ 16)

def BuildP.fits (p : BuildP) : Bool :=
  decide (p.tidFirst < 2 ^ 8) && decide (p.ntables < 2 ^ 8) && decide (p.metric < 2 ^ 8) && decide (p.width < 2 ^ 8) && decide (p.qprec < 2 ^ 8)
    && decide (p.pageFirst < 2 ^ 8) && decide (p.quantAddr < 2 ^ 32) && decide (p.vecAddr < 2 ^ 32)

def ScoreP.fits (p : ScoreP) : Bool :=
  decide (p.tid < 2 ^ 8) && decide (p.codeAddr < 2 ^ 32) && decide (p.idAddr < 2 ^ 32) && decide (p.outAddr < 2 ^ 32) && decide (p.count < 2 ^ 32)
    && decide (p.aux < 2 ^ 16)

def SaveP.fits (p : SaveP) : Bool :=
  decide (p.tid < 2 ^ 8) && decide (p.imgAddr < 2 ^ 32)

def LoadP.fits (p : LoadP) : Bool :=
  decide (p.tid < 2 ^ 8) && decide (p.pageFirst < 2 ^ 8) && decide (p.imgAddr < 2 ^ 32)

def MatmulP.fits (p : MatmulP) : Bool :=
  decide (p.aAddr < 2 ^ 32) && decide (p.bAddr < 2 ^ 32) && decide (p.cAddr < 2 ^ 32) && decide (p.m < 2 ^ 16) && decide (p.n < 2 ^ 16)
    && decide (p.k < 2 ^ 16) && decide (p.fmtA < 2 ^ 8) && decide (p.fmtB < 2 ^ 8) && decide (p.fmtOut < 2 ^ 8) && decide (p.flags < 2 ^ 8)
    && decide (p.aScale < 2 ^ 32) && decide (p.bScale < 2 ^ 32) && decide (p.outScale < 2 ^ 32) && decide (p.outScaleAddr < 2 ^ 16)

def VecopP.fits (p : VecopP) : Bool :=
  decide (p.dst < 2 ^ 8) && decide (p.srcA < 2 ^ 8) && decide (p.srcB < 2 ^ 8) && decide (p.srcC < 2 ^ 8) && decide (p.etype < 2 ^ 8)
    && decide (p.count < 2 ^ 16) && decide (p.scalar < 2 ^ 32) && decide (p.addr < 2 ^ 32)

def ActP.fits (p : ActP) : Bool :=
  decide (p.dst < 2 ^ 8) && decide (p.src < 2 ^ 8) && decide (p.count < 2 ^ 16) && decide (p.p0 < 2 ^ 32) && decide (p.p1 < 2 ^ 32)

def ConvertP.fits (p : ConvertP) : Bool :=
  decide (p.fmtSrc < 2 ^ 8) && decide (p.fmtDst < 2 ^ 8) && decide (p.flags < 2 ^ 8) && decide (p.reg < 2 ^ 8) && decide (p.srcAddr < 2 ^ 32)
    && decide (p.dstAddr < 2 ^ 32) && decide (p.count < 2 ^ 32) && decide (p.srcScale < 2 ^ 32) && decide (p.dstScale < 2 ^ 32) && decide (p.preScale < 2 ^ 32)

def SelectP.fits (p : SelectP) : Bool :=
  decide (p.qcap < 2 ^ 16) && decide (p.inAddr < 2 ^ 32) && decide (p.inCount < 2 ^ 32) && decide (p.runAddr < 2 ^ 32) && decide (p.runCount < 2 ^ 32)
    && decide (p.probeAddr < 2 ^ 32) && decide (p.outAddr < 2 ^ 32) && decide (p.k < 2 ^ 32) && decide (p.scratch < 2 ^ 32)

def MergeP.fits (p : MergeP) : Bool :=
  decide (p.nin < 2 ^ 16) && decide (p.tableAddr < 2 ^ 32) && decide (p.outAddr < 2 ^ 32) && decide (p.k < 2 ^ 32) && decide (p.qcount < 2 ^ 32)
    && decide (p.scratch < 2 ^ 32) && decide (p.scratchCap < 2 ^ 32)

def GatherP.fits (p : GatherP) : Bool :=
  decide (p.table < 2 ^ 8) && decide (p.mode < 2 ^ 8) && decide (p.idxAddr < 2 ^ 32) && decide (p.count < 2 ^ 32) && decide (p.outAddr < 2 ^ 32)
    && decide (p.refAddr < 2 ^ 32) && decide (p.statusAddr < 2 ^ 32) && decide (p.outCap < 2 ^ 32) && decide (p.boxAddr < 2 ^ 32) && decide (p.snapAddr < 2 ^ 32)
    && decide (p.rowUnits < 2 ^ 16) && decide (p.pairCap < 2 ^ 16)

def ScatterP.fits (p : ScatterP) : Bool :=
  decide (p.table < 2 ^ 8) && decide (p.idxAddr < 2 ^ 32) && decide (p.count < 2 ^ 32) && decide (p.srcAddr < 2 ^ 32) && decide (p.ordAddr < 2 ^ 32)
    && decide (p.rowUnits < 2 ^ 16)

def SendP.fits (p : SendP) : Bool :=
  decide (p.kind < 2 ^ 8) && decide (p.tag < 2 ^ 16) && decide (p.peer < 2 ^ 16) && decide (p.dstChamber < 2 ^ 8) && decide (p.srcAddr < 2 ^ 32)
    && decide (p.length < 2 ^ 32)

def RecvP.fits (p : RecvP) : Bool :=
  decide (p.kind < 2 ^ 8) && decide (p.tag < 2 ^ 16) && decide (p.peer < 2 ^ 16) && decide (p.srcChamber < 2 ^ 8) && decide (p.dstAddr < 2 ^ 32)
    && decide (p.cap < 2 ^ 32) && decide (p.resultAddr < 2 ^ 32) && decide (p.entryAddr < 2 ^ 32)

def PimRunP.fits (p : PimRunP) : Bool :=
  decide (p.stack < 2 ^ 8) && decide (p.progAddr < 2 ^ 32) && decide (p.pairMask < 2 ^ 32) && decide (p.dieMask < 2 ^ 16) && decide (p.count < 2 ^ 32)
    && decide (p.row0 < 2 ^ 16) && decide (p.row1 < 2 ^ 16) && decide (p.row2 < 2 ^ 16) && decide (p.row3 < 2 ^ 16)

def PimSealP.fits (p : PimSealP) : Bool :=
  decide (p.stack < 2 ^ 8) && decide (p.rowFirst < 2 ^ 16) && decide (p.rowCount < 2 ^ 16)

def FlashReadP.fits (p : FlashReadP) : Bool :=
  decide (p.mode < 2 ^ 8) && decide (p.listAddr < 2 ^ 32) && decide (p.count < 2 ^ 32) && decide (p.dstAddr < 2 ^ 32) && decide (p.dstCap < 2 ^ 32)
    && decide (p.statusAddr < 2 ^ 32)

def FlashWriteP.fits (p : FlashWriteP) : Bool :=
  decide (p.srcAddr < 2 ^ 32) && decide (p.lbn < 2 ^ 32) && decide (p.page < 2 ^ 16) && decide (p.pages < 2 ^ 16)

def CheckRangeP.fits (p : CheckRangeP) : Bool :=
  decide (p.poly < 2 ^ 8) && decide (p.tap < 2 ^ 8) && decide (p.fromTap < 2 ^ 8) && decide (p.addr < 2 ^ 64) && decide (p.length < 2 ^ 64)
    && decide (p.expectAddr < 2 ^ 32) && decide (p.resultAddr < 2 ^ 32)

def CheckTapvalP.fits (p : CheckTapvalP) : Bool :=
  decide (p.poly < 2 ^ 8) && decide (p.tap < 2 ^ 8) && decide (p.tag < 2 ^ 64) && decide (p.expectAddr < 2 ^ 32) && decide (p.resultAddr < 2 ^ 32)

def CheckWeightP.fits (p : CheckWeightP) : Bool :=
  decide (p.poly < 2 ^ 8) && decide (p.addr < 2 ^ 64) && decide (p.byteLength < 2 ^ 64) && decide (p.rows < 2 ^ 16) && decide (p.cols < 2 ^ 16)
    && decide (p.rank < 2 ^ 16) && decide (p.fmtW < 2 ^ 8) && decide (p.fmtF < 2 ^ 8) && decide (p.uFirst < 2 ^ 16) && decide (p.uCount < 2 ^ 16)
    && decide (p.vAll < 2 ^ 8) && decide (p.resultAddr < 2 ^ 32)

def NoteP.fits (p : NoteP) : Bool :=
  decide (p.span < 2 ^ 16) && decide (p.kinds < 2 ^ 8) && decide (p.currentPct < 2 ^ 16)

def SumpP.fits (p : SumpP) : Bool :=
  decide (p.maxEntries < 2 ^ 16) && decide (p.maxSlots < 2 ^ 16) && decide (p.keep < 2 ^ 8)

def Params.fits : Params → Bool
  | .scan p => p.fits
  | .build p => p.fits
  | .score p => p.fits
  | .save p => p.fits
  | .load p => p.fits
  | .matmul p => p.fits
  | .vecop _ p => p.fits
  | .activate _ p => p.fits
  | .convert p => p.fits
  | .selectRecords p => p.fits
  | .selectRuns p => p.fits
  | .merge p => p.fits
  | .gather _ p => p.fits
  | .scatter p => p.fits
  | .send p => p.fits
  | .recv p => p.fits
  | .pimRun p => p.fits
  | .pimSeal p => p.fits
  | .flashRead p => p.fits
  | .flashWrite p => p.fits
  | .checkRange p => p.fits
  | .checkTapval p => p.fits
  | .checkWeight p => p.fits
  | .note p => p.fits
  | .sump p => p.fits

/-- Every field of a step descriptor fits in its bytes. -/
def Step.fits (s : Step) : Bool := s.hdr.fits && s.params.fits

/-! ### What the world supplies -/

/-- A byte of the strata or of a stack (R231). -/
def tierByte (a : Nat) : Bool := decide (a < 0x400000000) || (decide (0x1000000000 ≤ a) && decide (a < 0xA000000000))

/-- An error happens at a place that exists. -/
def Upset.wf : Upset → Bool
  | .storeCorrected => true
  | .storeBad off => decide (off < 0x200000)
  | .regBad v e => decide (v < 16) && decide (e < 1024)
  | .lutBad w => decide (w < 65536)
  | .devBad a => tierByte a
  | .devCorrected a _ => tierByte a
  | .mapBad g => tierByte (g * 65536)
  | .tileBad t _ => decide (t < 2 ^ 20)
  | .cvuBad u v => decide (u < 16) && fits 64 v
  | .suspend _ => true

/-- A step command: a chamber that exists, fields that fit, errors at places that exist. -/
def stepWf (c : Nat) (h : Hdr) (p : Bool) (us : List Upset) : Bool := decide (c < 256) && h.fits && p && us.all Upset.wf

def Training.wf (t : Training) : Bool :=
  t.units.all (fun x => decide (x.1 < 16) && decide (x.2 < 4)) && t.checkers.all (fun x => decide (x.1 < 256) && decide (x.2 < 4)) && t.channels.all (decide <| · ≤ 5) && decide (t.channels.length ≤ 32)

def BootEnv.wf (b : BootEnv) : Bool :=
  fits 64 b.serial && b.train.wf && b.bad.all (fun x => decide (x.1 < 32) && fits 20 x.2) && fits 64 b.mapBase && fits 64 b.pbtBase
    && fits 32 b.adopted && fits 32 b.torn && b.hang.all (decide <| · ≤ 10)

def PowerIn.wf (x : PowerIn) : Bool :=
  fits 64 x.t && fits 32 x.vin && fits 32 x.iin && decide (x.room ≤ 256) && decide (x.scrub ≤ 256) && decide (x.flow ≤ 256) && decide (x.dummy ≤ 256)

def StepEnd.wf (e : StepEnd) : Bool := fits 64 e.t

def CairnIn.wf (x : CairnIn) : Bool :=
  fits 64 x.rtc && x.refs.all (fun r => tierByte r.1) && x.images.all (fun i => decide (i.1 < 256) && decide (i.2.1 < 64) && decide (i.2.2 < 0x4000000))
    && x.ends.all fun e => decide (e.1 < 256) && fits 16 e.2.1 && fits 64 e.2.2.1 && e.2.2.2.wf

def DmaFail.wf (f : DmaFail) : Bool := fits 64 f.addr && (f.status = 1 || f.status = 4 || f.status = 8 || f.status = 16)

def Dma.wf (x : Dma) : Bool := decide (x.stream ≤ 5) && x.fail.all DmaFail.wf

def Place.wf (p : Place) : Bool := fits 64 p.dest && decide (p.referrer ≤ 2)

/-- A frame on a port. -/
def frameWf (p t : Nat) : Bool := decide (p < 8) && fits 64 t

def Rx.wf : Rx → Bool
  | .frame p t _ _ => frameWf p t
  | .waiting => true

def Via.wf : Via → Bool
  | .doe _ => true
  | .fabric r => r.wf

def WriteEnv.wf (e : WriteEnv) : Bool := fits 64 e.t && e.train.wf

/-- A ring pair of a function (R402). -/
def ringWf (fn ring : Nat) : Bool := decide (fn < 32) && decide (ring < 16)

/-- A line of the monitor: at most 255 characters (R492). -/
def lineWf (l : List Char) : Bool := decide (l.length ≤ 255)

def Encoding.wf (x : Encoding) : Bool := decide (x.metric < 3) && x.centroids.all (fun c => fits 20 c.1 && tierByte c.2) && x.table.all (decide <| · < 64)

def ProbePlace.wf (p : ProbePlace) : Bool := decide (p.chamber < 256) && decide (p.list < 0x3EC0000) && decide (p.filters < 0x3EC0000)

def IndexWork.wf (w : IndexWork) : Bool :=
  w.code.wf && (w.sets.all fun x => decide (x.tenant < 64) && decide (x.set < 256) && tierByte x.bitmap && tierByte x.summary)
    && w.first.all ProbePlace.wf && w.wide.all ProbePlace.wf && (w.tids.all fun x => decide (x.1 < 65536) && decide (x.2 < 64))
    && (w.exact.all fun x => decide (x.chamber < 256) && decide (x.off < 0x200000))
    && w.standby.all fun x => decide (x.chamber < 256) && decide (x.first < 65536) && decide (x.last < 65536) && decide (x.member < 65536)

/-- Every operand of a command in its range. -/
def Instr.wf : Instr → Bool
  | .inputValid => true
  | .railSequenceStep => true
  | .railPowerGoodMiss rail => decide (rail < 11)
  | .railPowerGoodLoss rail => decide (rail < 11)
  | .refclkLoss => true
  | .resetRelease b rtc t => b.wf && fits 64 rtc && fits 64 t
  | .bootTimeout => true
  | .trainingComplete failed => failed.all (decide <| · < 12)
  | .trainingTimeout failed => failed.all (decide <| · < 12)
  | .drainComplete => true
  | .drainCmd => true
  | .retainCmd => true
  | .resumeCmd t lost => t.wf && lost.all (fits 32)
  | .sleepCmd => true
  | .resetCmd => true
  | .perstNAssert => true
  | .wakeNWake _ rtc => fits 64 rtc
  | .perstNWake rtc => fits 64 rtc
  | .comparatorWake k rtc => decide (k < 3) && fits 64 rtc
  | .aonCmpVinTrip vin t => fits 32 vin && fits 64 t
  | .vinRecoveryTimeout => true
  | .aonCmpTempTrip temp => fits 16 temp
  | .aonCmpAuxTrip level => fits 16 level
  | .powerSample x => x.wf
  | .thermalSample j st r stuck => [j, st, r].all (·.all fun t => decide (-128 ≤ t) && decide (t < 128)) && stuck.all fun x => decide (x.1 < 4) && fits 8 x.2
  | .droopTrip => true
  | .stretchEnd _ => true
  | .oppStepDownComplete stuck => stuck.all (decide <| · < 11)
  | .oppStepUpPowerGood => true
  | .oppStepUpAbandon rail => decide (rail < 11)
  | .epochBoundary x => x.wf
  | .wearCheck => true
  | .cairnOverrun excess => fits 32 excess
  | .planBankSwitch => true
  | .slotStart m t work => decide (m < 65536) && fits 64 t && work.wf
  | .ingressCutoff _ plan =>
    (plan.groups.all fun g => g.chamber.all (decide <| · < 256) && decide (64 ≤ g.tb) && decide (g.tb ≤ 1024) && g.tb % 64 = 0 && decide (1 ≤ g.lmax) && decide (g.lmax ≤ 512))
      && plan.places.all fun p => decide (p.ord < 65536) && decide (p.chamber < 256) && decide (p.off < 0x3EC0000)
  | .epochSyncEdge t _ => fits 64 t
  | .startGenerator t => fits 64 t
  | .stopGenerator => true
  | .planArm _ => true
  | .verify bank => decide (bank < 2)
  | .planVerifyComplete bank => decide (bank < 2)
  | .invalidate bank => decide (bank < 2)
  | .planBankWrite bank chamber off bs _ => decide (bank < 2) && chamber.all (decide <| · < 256) && decide (off + bs.length ≤ if chamber.isSome then 0x80000 else 512)
  | .stepComplete c idx origin e => decide (c < 256) && decide (idx < 65536) && fits 64 origin && e.wf
  | .seqTimeout c unit' idx => decide (c < 256) && decide (unit' < 256) && decide (idx < 65536)
  | .sumpEntryExpire background => background.all fun x => decide (x.1 < 256)
  | .sump c h p us => stepWf c h p.fits us
  | .barrierFreeNote c h p us => stepWf c h p.fits us
  | .scan c h p us => stepWf c h p.fits us
  | .lookupBuild c h p us => stepWf c h p.fits us
  | .lookupScore c h p us => stepWf c h p.fits us
  | .lookupSave c h p us => stepWf c h p.fits us
  | .lookupLoad c h p us => stepWf c h p.fits us
  | .matmul c h p us => stepWf c h p.fits us
  | .vecopAdd c h p us => stepWf c h p.fits us
  | .vecopSub c h p us => stepWf c h p.fits us
  | .vecopMul c h p us => stepWf c h p.fits us
  | .vecopFma c h p us => stepWf c h p.fits us
  | .vecopFmas c h p us => stepWf c h p.fits us
  | .vecopMax c h p us => stepWf c h p.fits us
  | .vecopMin c h p us => stepWf c h p.fits us
  | .vecopAbs c h p us => stepWf c h p.fits us
  | .vecopNeg c h p us => stepWf c h p.fits us
  | .vecopAnd c h p us => stepWf c h p.fits us
  | .vecopOr c h p us => stepWf c h p.fits us
  | .vecopXor c h p us => stepWf c h p.fits us
  | .vecopShl c h p us => stepWf c h p.fits us
  | .vecopShra c h p us => stepWf c h p.fits us
  | .vecopSumr c h p us => stepWf c h p.fits us
  | .vecopMaxr c h p us => stepWf c h p.fits us
  | .vecopMinr c h p us => stepWf c h p.fits us
  | .vecopLoad c h p us => stepWf c h p.fits us
  | .vecopStore c h p us => stepWf c h p.fits us
  | .vecopBroadcast c h p us => stepWf c h p.fits us
  | .vecopCmpgt c h p us => stepWf c h p.fits us
  | .vecopSelect c h p us => stepWf c h p.fits us
  | .activateRelu c h p us => stepWf c h p.fits us
  | .activateClamp c h p us => stepWf c h p.fits us
  | .activateSign c h p us => stepWf c h p.fits us
  | .activateGelu c h p us => stepWf c h p.fits us
  | .activateSilu c h p us => stepWf c h p.fits us
  | .activateSigmoid c h p us => stepWf c h p.fits us
  | .activateTanh c h p us => stepWf c h p.fits us
  | .activateExp c h p us => stepWf c h p.fits us
  | .activateRecip c h p us => stepWf c h p.fits us
  | .activateRsqrt c h p us => stepWf c h p.fits us
  | .convert c h p us => stepWf c h p.fits us
  | .selectRecords c h p us => stepWf c h p.fits us
  | .selectRuns c h p us => stepWf c h p.fits us
  | .merge c h p us => stepWf c h p.fits us
  | .gatherFetch c h p us => stepWf c h p.fits us
  | .gatherSplit c h p us => stepWf c h p.fits us
  | .gatherServe c h p us => stepWf c h p.fits us
  | .gatherFill c h p us => stepWf c h p.fits us
  | .scatter c h p us => stepWf c h p.fits us
  | .send c h p us => stepWf c h p.fits us
  | .recv c h p us => stepWf c h p.fits us
  | .recvComplete c e => decide (c < 256) && decide (e.idx < 65536)
  | .pimRun c h p us => stepWf c h p.fits us
  | .pimQueueAdmit st => decide (st < 12)
  | .pimChunkEnd st die _ _ bad => decide (st < 12) && decide (die < 16) && bad.all tierByte
  | .pimSeal c h p us => stepWf c h p.fits us
  | .sealStripeComplete st r => decide (st < 12) && decide (r < 49152)
  | .stackRefreshDue st die _ => decide (st < 12) && decide (die < 16)
  | .dieTempSample st die t => decide (st < 12) && decide (die < 16) && decide (-128 ≤ t) && decide (t < 128)
  | .stkModeWrite st j v => decide (st < 12) && decide (j < 3072) && fits 32 v
  | .flashread c h p us => stepWf c h p.fits us
  | .flashreadDeadline c idx => decide (c < 256) && decide (idx < 65536)
  | .flashwrite c h p us => stepWf c h p.fits us
  | .flashReadComplete _ _ => true
  | .flashProgramComplete _ _ => true
  | .flashEraseComplete ch pb _ => decide (ch < 32) && fits 20 pb
  | .fold lbn _ _ => fits 23 lbn
  | .logMerge lbn _ _ => fits 23 lbn
  | .gcMerge ch _ _ => decide (ch < 32)
  | .relocation lbn _ _ => fits 23 lbn
  | .mapCheckpoint => true
  | .checkRange c h p us => stepWf c h p.fits us
  | .checkTapval c h p us => stepWf c h p.fits us
  | .checkWeight c h p us => stepWf c h p.fits us
  | .weightReload c a copy => decide (c < 256) && tierByte a && fits 64 copy
  | .mapTakeEffect gone => gone.all fun x => decide (x.1 < 256)
  | .stateClaim cohort shard _ _ _ steps => fits 64 cohort && decide (shard < 65536) && steps.all fun x => decide (x.1 < 256) && x.2.fits
  | .downSetApply => true
  | .heartbeatSend => true
  | .heartbeatSetSend => true
  | .downDeclare => true
  | .cohortAgeOut => true
  | .overlayEntryFoldable list _ => fits 20 list
  | .prevVersionFree list ord => fits 20 list && decide (ord < 64)
  | .sideStartAdvance list => fits 20 list
  | .flowstonePass list flipAt code _ => fits 20 list && fits 64 flipAt && code.wf
  | .flowstoneFlip list => fits 20 list
  | .tableVersionFlip t home tier present base expect => decide (t < 64) && fits 64 home && decide (tier ≤ 2) && fits 64 present && fits 64 base && fits 32 expect
  | .tableVersionFree t => decide (t < 64)
  | .redirectFold t _ k => decide (t < 64) && decide (k < 8)
  | .driplineRefresh t _ => decide (t < 64)
  | .hotIndexFlip t => decide (t < 64)
  | .tierMoveRequest datum tier dest arm _ => fits 32 datum && decide (tier ≤ 2) && fits 64 dest && fits 32 arm
  | .moveChunkCopy datum _ _ => fits 32 datum
  | .moveCheckComplete datum => fits 32 datum
  | .homeFlip datum refs => fits 32 datum && refs.all fun r => tierByte r.1
  | .homeRangeFree datum => fits 32 datum
  | .moveCancel datum => fits 32 datum
  | .scrubAtomRead a _ _ => tierByte a && a % 64 = 0
  | .rowRepairSwap _ => true
  | .watchdogExpire core => fits 8 core
  | .planFrame p t _ _ => frameWf p t
  | .siphonFrame p t _ _ => frameWf p t
  | .queryMessage p t _ _ => frameWf p t
  | .reply p t _ _ => frameWf p t
  | .bulk r p => r.wf && p.wf
  | .ackFrame p t _ _ => frameWf p t
  | .echoReq p t _ _ => frameWf p t
  | .echoRsp p t _ _ => frameWf p t
  | .timeFrame p t _ _ => frameWf p t
  | .mapAnnounce p t _ _ => frameWf p t
  | .stateProbe p t _ _ => frameWf p t
  | .stateHandoff p t _ _ => frameWf p t
  | .heartbeat p t _ _ => frameWf p t
  | .heartbeatSet p t _ _ => frameWf p t
  | .downMessage p t _ _ => frameWf p t
  | .tagsMessage p t _ _ => frameWf p t
  | .getVersion v _ => v.wf
  | .getCapabilities v _ => v.wf
  | .negotiateAlgorithms v _ => v.wf
  | .getDigests v _ => v.wf
  | .getCertificate v _ => v.wf
  | .challenge v _ => v.wf
  | .getMeasurements v _ => v.wf
  | .keyExchange v _ => v.wf
  | .finish v _ _ => v.wf
  | .spdmHeartbeat v _ => v.wf
  | .keyUpdate v _ => v.wf
  | .endSession v _ => v.wf
  | .vendorDefinedRequest _ _ => true
  | .ackTimer t => fits 64 t
  | .retransmitTimer t => fits 64 t
  | .timeFrameSend t => fits 64 t
  | .echoExchange t => fits 64 t
  | .timeLoss t => fits 64 t
  | .portTrainingTimeout p => decide (p < 8)
  | .portPhyUp p => decide (p < 8)
  | .portUp p => decide (p < 8)
  | .portAlignmentLoss p => decide (p < 8)
  | .fecWindow p _ _ t => decide (p < 8) && fits 64 t
  | .portEnableWrite v => fits 8 v
  | .egressChoice p t _ => decide (p < 8) && fits 64 t
  | .tokenRefill t => fits 64 t
  | .queueUrgent p _ t => decide (p < 8) && fits 64 t
  | .egressSample t => fits 64 t
  | .sqTailDoorbell fn ring v => ringWf fn ring && fits 32 v
  | .cqHeadDoorbell fn ring v t => ringWf fn ring && fits 32 v && fits 64 t
  | .hostQuery fn ring _ _ x => ringWf fn ring && x.wf
  | .hostOperation fn ring _ _ x => ringWf fn ring && x.wf
  | .bulkLoad fn ring _ _ _ x p => ringWf fn ring && x.wf && p.wf
  | .planSupply fn ring _ _ _ x => ringWf fn ring && x.wf
  | .imageSupply fn ring t _ _ _ x _ => ringWf fn ring && fits 64 t && x.wf
  | .completionPost _ t x => fits 64 t && x.wf
  | .cqInterrupt fn ring t => ringWf fn ring && fits 64 t
  | .functionLevelReset fn => decide (fn < 32)
  | .ideTlpFail stream => decide (stream ≤ 4)
  | .hostLinkTrained rate width => fits 8 rate && fits 8 width
  | .ringEnableWrite fn ring _ => ringWf fn ring
  | .bar4Read a n => fits 64 a && fits 32 n
  | .registerWrite off size v e => fits 32 off && (size = 4 || size = 8) && fits 64 v && e.wf
  | .lowerHalfWrite agent off v => decide (agent < 3) && fits 32 off && fits 32 v
  | .counterLowerRead agent read => decide (agent < 3) && fits 32 read.off && (read.size = 4 || read.size = 8)
  | .sumpPeakRead agent c => decide (agent < 3) && decide (c < 256)
  | .badAccess _ off size => fits 32 off && fits 32 size
  | .rd line => lineWf line
  | .wr line e => lineWf line && e.wf
  | .cnt line => lineWf line
  | .memCmd line => lineWf line
  | .faults line => lineWf line
  | .stateCmd line => lineWf line
  | .sensors line => lineWf line
  | .links line => lineWf line
  | .loadCmd line => lineWf line
  | .loadBlock _ crc => fits 32 crc
  | .loadTimeout => true
  | .norwrite line t _ => lineWf line && fits 64 t
  | .bootstaged line => lineWf line
  | .stepCmd line t => lineWf line && fits 64 t
  | .debugOn line => lineWf line
  | .debugOff line => lineWf line
  | .lineTooLong n => decide (255 < n)
  | .receivedFrameDiscard p t _ _ => frameWf p t
  | .comparatorRelease k t => decide (k < 3) && fits 64 t
  | .vaonFail => true
  | .crystalStable => true
  | .applyPoint t => fits 64 t
  | .snapshotPoint t => fits 64 t
  | .doeDiscovery _ => true
  | .configurationRequest => true
  | .unknownCommand line => lineWf line
  | .hostLinkDown => true

end Sys2Proof
end

