-- ==== Sys2Proof/Safety.lean ====
section
/-! DEFINITION. What counts as a safe state and a safe step of the block, in the terms the statements use. -/

namespace Sys2Proof

open Machine

/-- The memories are in canonical form. -/
def MemorySafe (s : State) : Prop := s.mem.wf = true

/-- A command runs to a next state. -/
def Completes (c : Instr) (s : State) : Prop := ∃ t, exec c s = .next t

/-- A command runs to a next state of which `P` holds. -/
def Ends (c : Instr) (s : State) (P : State → Prop) : Prop := ∃ t, exec c s = .next t ∧ P t

/-- No fault record waits for the ring: what holds after every command. -/
def Quiet (s : State) : Prop := s.dev.flt.ring = []

/-- Every byte of every memory is as before. -/
def SameBytes (s t : State) : Prop := ∀ sp a, t.mem.get sp a = s.mem.get sp a

/-- Every register but the fields listed reads as before. -/
def SameRegsBut (fs : List Field) (s t : State) : Prop := ∀ f : Field, (∀ g ∈ fs, g.key ≠ f.key) → t.dev.rd f = s.dev.rd f

/-- Every counter but those listed stands as before. -/
def SameCountsBut (cs : List Nat) (s t : State) : Prop := ∀ c, c ∉ cs → t.dev.count c = s.dev.count c

/-- A counter has gone up by `n`, or stands at its greatest value (R38). -/
def Counted (c n : Nat) (s t : State) : Prop := t.dev.count c = min (2 ^ 64 - 1) (s.dev.count c + n)

/-- The strata and the stacks read zero throughout: their contents are lost. -/
def DramLost (t : State) : Prop := ∀ a, a < 2 ^ 56 → t.mem.get .dram a = 0

/-- A fault with this code has been recorded, in the log or, while the module boots, among the records held for it. -/
def Recorded (code : FaultCode) (t : State) : Prop := ∃ r, (r ∈ t.dev.flt.recent ∨ r ∈ t.dev.flt.boot) ∧ r.code = code

/-! ### Frames -/

/-- The registers a fault record can write: FLT_SEQ, OVERFLOW and WITHDRAWN, BT_FAIL.CODE, and the tail of the host's mirror ring. -/
def faultFields : List Field :=
  [Reg.fltSeq, Reg.fltStatusOverflow, Reg.fltStatusWithdrawn, Reg.btFailCode, Reg.hstMirrorHeadTail]

/-- The counters a fault record can add to. -/
def faultCounters : List Nat := [Ctr.fltRecordsOverwritten, Ctr.fltWithdrawals]

/-- A byte of the fault log's ring in the strata: what a record writes (R445). -/
def InFaultRing (s : State) (a : Nat) : Prop :=
  ∃ k, k < 32 * 2 ^ s.dev.val Reg.fltLogSize ∧ a = s.xlate (s.dev.val Reg.fltLogBase + k)

/-- Every byte of every memory outside `P` and the fault log's ring is as before. -/
def SameBytesBut (P : Space → Nat → Prop) (s t : State) : Prop :=
  ∀ sp a, a < 2 ^ 56 → ¬ P sp a → ¬ (sp = .dram ∧ InFaultRing s a) → t.mem.get sp a = s.mem.get sp a

/-- A command changes only the bytes of `P`, the registers `fs` and the counters `cs`, beside what a fault record changes. -/
def Only (P : Space → Nat → Prop) (fs : List Field) (cs : List Nat) (s t : State) : Prop :=
  SameBytesBut P s t ∧ SameRegsBut (fs ++ faultFields) s t ∧ SameCountsBut (cs ++ faultCounters) s t

/-- No byte at all. -/
def NoByte : Space → Nat → Prop := fun _ _ => False

/-- The first `n` elements of vector register `v` of chamber `c`. -/
def InRegister (c v n : Nat) : Space → Nat → Prop := fun sp a => sp = .vreg ∧ State.vregKey c v 0 ≤ a ∧ a < State.vregKey c v n

/-- The `n` bytes from store offset `off` of chamber `c`. -/
def InStore (c off n : Nat) : Space → Nat → Prop := fun sp a => sp = .store ∧ c * 0x200000 + off ≤ a ∧ a < c * 0x200000 + off + n

/-- Where byte `k` of an operand in the form of A_ADDR lies: in the chamber's store, or in its strata column through the home map. -/
def placeOf (s : State) (c addr k : Nat) : Space × Nat :=
  match locOf c addr with
  | .store o => (.store, c * 0x200000 + o + k)
  | .dev a => (.dram, s.xlate (a + k))

/-- The places of the `n` bytes from device address `a` on, and those at the destination of a move that has copied them (R243). -/
def InDev (s : State) (a n : Nat) : Space → Nat → Prop := fun sp b =>
  sp = .dram ∧ ((∃ k, k < n ∧ b = s.xlate (a + k)) ∨ ∃ q ∈ s.mirrorParts a n, ∃ k, k < q.2.2 ∧ b = s.xlate (q.2.1 + k))

/-- The first `n` bytes of an operand in the form of A_ADDR. -/
def InOperand (s : State) (c addr n : Nat) : Space → Nat → Prop :=
  match locOf c addr with
  | .store o => InStore c o n
  | .dev a => InDev s a n

/-- The home map sends no two bytes of a device range to one place, as the maps of every run do (R241), and no move has copied any of them (R243). -/
def OnePlaceAt (s : State) (a n : Nat) : Prop :=
  (∀ i j, i < n → j < n → s.xlate (a + i) = s.xlate (a + j) → i = j) ∧ s.mirrorParts a n = []

/-- A device range of which a write lands in one place and reads back as written: it meets no plan bank (R42) and no failed entry of the home map (R258)
besides. -/
def PlainAt (s : State) (a n : Nat) : Prop :=
  OnePlaceAt s a n ∧ State.banksMet a n = [] ∧ ∀ k, k < n → s.dev.tier.badMap.contains ((a + k) / 65536) = false

/-- The home table exists, each of its bytes has a place of its own, and no move has copied any of it. -/
def TableAlone (s : State) : Prop := s.homesReady = true ∧ OnePlaceAt s (s.dev.val Reg.homeBase) (64 * s.dev.val Reg.homeCount)

/-- The same of an operand: in a chamber's store no map stands between. -/
def OnePlace (s : State) (c addr n : Nat) : Prop :=
  match locOf c addr with
  | .store _ => True
  | .dev a => OnePlaceAt s a n

/-- An operand holds these bytes. -/
def Holds (s : State) (c addr : Nat) (bs : List Byte) : Prop :=
  ∀ k, k < bs.length → s.mem.get (placeOf s c addr k).1 (placeOf s c addr k).2 = bs.getD k 0

/-! ### Steps -/

/-- The chamber, the header and the parameters of a step command. -/
def stepOf : Instr → Option (Nat × Hdr × Params)
  | .sump c h p _ => some (c, h, .sump p)
  | .barrierFreeNote c h p _ => some (c, h, .note p)
  | .scan c h p _ => some (c, h, .scan p)
  | .lookupBuild c h p _ => some (c, h, .build p)
  | .lookupScore c h p _ => some (c, h, .score p)
  | .lookupSave c h p _ => some (c, h, .save p)
  | .lookupLoad c h p _ => some (c, h, .load p)
  | .matmul c h p _ => some (c, h, .matmul p)
  | .vecopAdd c h p _ => some (c, h, .vecop .vAdd p)
  | .vecopSub c h p _ => some (c, h, .vecop .vSub p)
  | .vecopMul c h p _ => some (c, h, .vecop .vMul p)
  | .vecopFma c h p _ => some (c, h, .vecop .vFma p)
  | .vecopFmas c h p _ => some (c, h, .vecop .vFmas p)
  | .vecopMax c h p _ => some (c, h, .vecop .vMax p)
  | .vecopMin c h p _ => some (c, h, .vecop .vMin p)
  | .vecopAbs c h p _ => some (c, h, .vecop .vAbs p)
  | .vecopNeg c h p _ => some (c, h, .vecop .vNeg p)
  | .vecopAnd c h p _ => some (c, h, .vecop .vAnd p)
  | .vecopOr c h p _ => some (c, h, .vecop .vOr p)
  | .vecopXor c h p _ => some (c, h, .vecop .vXor p)
  | .vecopShl c h p _ => some (c, h, .vecop .vShl p)
  | .vecopShra c h p _ => some (c, h, .vecop .vShra p)
  | .vecopSumr c h p _ => some (c, h, .vecop .vSumr p)
  | .vecopMaxr c h p _ => some (c, h, .vecop .vMaxr p)
  | .vecopMinr c h p _ => some (c, h, .vecop .vMinr p)
  | .vecopLoad c h p _ => some (c, h, .vecop .vLoad p)
  | .vecopStore c h p _ => some (c, h, .vecop .vStore p)
  | .vecopBroadcast c h p _ => some (c, h, .vecop .vBroadcast p)
  | .vecopCmpgt c h p _ => some (c, h, .vecop .vCmpgt p)
  | .vecopSelect c h p _ => some (c, h, .vecop .vSelect p)
  | .activateRelu c h p _ => some (c, h, .activate .relu p)
  | .activateClamp c h p _ => some (c, h, .activate .clamp p)
  | .activateSign c h p _ => some (c, h, .activate .sign p)
  | .activateGelu c h p _ => some (c, h, .activate .gelu p)
  | .activateSilu c h p _ => some (c, h, .activate .silu p)
  | .activateSigmoid c h p _ => some (c, h, .activate .sigmoid p)
  | .activateTanh c h p _ => some (c, h, .activate .tanh p)
  | .activateExp c h p _ => some (c, h, .activate .exp p)
  | .activateRecip c h p _ => some (c, h, .activate .recip p)
  | .activateRsqrt c h p _ => some (c, h, .activate .rsqrt p)
  | .convert c h p _ => some (c, h, .convert p)
  | .selectRecords c h p _ => some (c, h, .selectRecords p)
  | .selectRuns c h p _ => some (c, h, .selectRuns p)
  | .merge c h p _ => some (c, h, .merge p)
  | .gatherFetch c h p _ => some (c, h, .gather .fetch p)
  | .gatherSplit c h p _ => some (c, h, .gather .split p)
  | .gatherServe c h p _ => some (c, h, .gather .serve p)
  | .gatherFill c h p _ => some (c, h, .gather .fill p)
  | .scatter c h p _ => some (c, h, .scatter p)
  | .send c h p _ => some (c, h, .send p)
  | .recv c h p _ => some (c, h, .recv p)
  | .pimRun c h p _ => some (c, h, .pimRun p)
  | .pimSeal c h p _ => some (c, h, .pimSeal p)
  | .flashread c h p _ => some (c, h, .flashRead p)
  | .flashwrite c h p _ => some (c, h, .flashWrite p)
  | .checkRange c h p _ => some (c, h, .checkRange p)
  | .checkTapval c h p _ => some (c, h, .checkTapval p)
  | .checkWeight c h p _ => some (c, h, .checkWeight p)
  | _ => none

/-- A step command the world can send, whose step the plan block accepts and nothing holds back (R49). -/
def Accepted (s : State) (i : Instr) (h : Hdr) (p : Params) : Prop :=
  i.wf = true ∧ stepOk ⟨h, p⟩ = true ∧ ∀ c q r, stepOf i = some (c, q, r) → s.dev.heldBack c q.index = false

/-- ARITH_STATUS of a chamber (R98). -/
def arithFields (c : Nat) : List Field := [Reg.arithStatusIntSat c, Reg.arithStatusFpSat c, Reg.arithStatusNanOut c, Reg.arithStatusPoisoned c]

/-- The counters of the matrix and vector units of a chamber (R98). -/
def arithCounters (c : Nat) : List Nat := [Ctr.chMatrixBusy c, Ctr.chVectorBusy c, Ctr.chIntSat c, Ctr.chFpSat c, Ctr.chNanOut c, Ctr.chFtzIn c, Ctr.chResidueRetry c]

/-- A VECOP element operation completes: element `k` of DST_REG is `r` of the source elements, every other register element and every byte of the
stores is as before, VECTOR_BUSY counts R91's cycles, and where no read met an error nothing else changes. -/
def VecRuns (cmd : Nat → Hdr → VecopP → List Upset → Instr) (op : VecOp) (r : VecopP → Nat → Nat → Nat → Nat) : Prop :=
  ∀ (s : State) (c : Nat) (h : Hdr) (p : VecopP) (us : List Upset), MemorySafe s → Accepted s (cmd c h p us) h (.vecop op p) →
    Ends (cmd c h p us) s fun t =>
      (∀ k, k < p.count → t.vget c p.dst k = r p (s.vget c p.srcA k) (s.vget c p.srcB k) (s.vget c p.srcC k) % 2 ^ 32)
      ∧ (∀ a, a < 2 ^ 56 → ¬ InRegister c p.dst p.count .vreg a → t.mem.get .vreg a = s.mem.get .vreg a)
      ∧ (∀ a, a < 2 ^ 56 → t.mem.get .store a = s.mem.get .store a)
      ∧ Counted (Ctr.chVectorBusy c) (ceilDiv p.count 128 + 4) s t
      ∧ (us = [] → Quiet s → Only (InRegister c p.dst p.count) (arithFields c) (arithCounters c) s t)

/-- An ACTIVATE completes: element `k` of DST_REG is `f` of the element of SRC_REG, nothing else changes. -/
def ActRuns (cmd : Nat → Hdr → ActP → List Upset → Instr) (fn : ActFn) (rate : Nat) (f : ActP → Nat → Nat) : Prop :=
  ∀ (s : State) (c : Nat) (h : Hdr) (p : ActP) (us : List Upset), MemorySafe s → Accepted s (cmd c h p us) h (.activate fn p) →
    Ends (cmd c h p us) s fun t =>
      (∀ k, k < p.count → t.vget c p.dst k = f p (s.vget c p.src k) % 2 ^ 32)
      ∧ Counted (Ctr.chVectorBusy c) (ceilDiv p.count rate + 12) s t
      ∧ (us = [] → Quiet s → Only (InRegister c p.dst p.count) (arithFields c) (arithCounters c) s t)

/-- An INT32 result, saturated (R90). -/
def clamped (i : Int) : Nat := ofSigned 32 (clampInt (-2147483648) 2147483647 i)

/-- Bytes `bs` stand from device address `a` on. -/
def HoldsAt (s : State) (a : Nat) (bs : List Byte) : Prop := ∀ k, k < bs.length → s.mem.get .dram (s.xlate (a + k)) = bs.getD k 0

/-! ### Frames of the fabric -/

/-- A frame on an UP port that passes R333: it comes from peer `i` with the fields `z`, and `u` is the state once it is counted. -/
def Arrives (s : State) (p t : Nat) (fr : List Byte) (fcs : Bool) (i : Nat) (z : Zft) (u : State) : Prop :=
  p < 8 ∧ (s.dev.clock t).portUp p = true ∧ (s.dev.clock t).acceptFrame p fr fcs = (u.dev, some (i, z)) ∧ u.mem = s.mem ∧ u.pending = s.pending

/-- The frame is the next expected of its peer and holds the whole of a reliable message, while no other waits; `u` is the state once the frame
is taken. -/
def ArrivesWhole (s : State) (p t : Nat) (fr : List Byte) (fcs : Bool) (i : Nat) (z : Zft) (u : State) : Prop :=
  ∃ v, Arrives s p t fr fcs i z v ∧ z.reliable = true ∧ z.offset = 0 ∧ z.total = z.data.length ∧ z.seq = (v.dev.peerSeq i).relIn
    ∧ (v.dev.peerSeq i).held = [] ∧ v.dev.fab.inbox = [] ∧ (∀ q ∈ v.dev.fab.partials, ¬ (q.peer = i ∧ q.type = z.type ∧ q.msg = z.msg))
    ∧ u = v.onDev fun d => d.setPeer { d.peerSeq i with relIn := z.seq + 1 }

/-- The steps that take frames of reliable messages, with the frames they take. -/
def reliableSteps (pl : Place) : List ((Nat → Nat → List Byte → Bool → Instr) × (Zft → Bool)) :=
  [(.queryMessage, Zft.isMsg tyQuery), (.reply, Zft.isMsg tyReply), (fun p t fr fcs => .bulk (.frame p t fr fcs) pl, Zft.isMsg tyBulk),
   (.mapAnnounce, Zft.isCoord kdAnnounce), (.stateProbe, Zft.isCoord kdProbe), (.stateHandoff, Zft.isCoord kdHandoff), (.heartbeat, Zft.isCoord kdHeartbeat),
   (.heartbeatSet, Zft.isCoord kdSet), (.downMessage, Zft.isCoord kdDown), (.tagsMessage, Zft.isCoord kdTags)]

/-! ### The host's entries and accesses -/

/-- The commands that fetch a ring entry of an opcode, with the bytes they move beside it. -/
def HostEntry (c : Instr) (op fn ring : Nat) (entry : List Byte) (len : Nat) (x : Dma) : Prop :=
  (∃ b, c = .hostQuery fn ring entry b x ∧ op = opQuery ∧ len = fieldAt entry 4 4)
  ∨ (∃ b, c = .hostOperation fn ring entry b x ∧ op = opOperation ∧ len = fieldAt entry 4 4)
  ∨ (∃ l b p, c = .bulkLoad fn ring entry l b x p ∧ op = opBulk ∧ len = l.length + b.length)
  ∨ (∃ l b, c = .planSupply fn ring entry l b x ∧ op = opPlan ∧ len = l.length + b.length)
  ∨ (∃ t l b bad, c = .imageSupply fn ring t entry l b x bad ∧ op = opImage ∧ len = l.length + b.length)

/-- Where the head entry of a ring lies in host memory. -/
def entryAt (s : State) (fn ring : Nat) : Nat := s.dev.rd (Reg.sqBase fn ring) + 64 * s.dev.rd (Reg.ringPtrsSqHead fn ring)

/-- A ring's head entry is fetched and passes the tests of state, class and tenant (R400, R403, R411); `e` names it, and `u` is the state once its
bytes are counted. -/
def Fetches (s : State) (op fn ring : Nat) (entry : List Byte) (len : Nat) (x : Dma) (e : HostRef) (late : Bool) (u : State) : Prop :=
  fieldAt entry 0 1 = op ∧ s.dev.dmaFails x (entryAt s fn ring) = none ∧ e = Dev.entryRef fn ring entry ∧
    ∃ d, s.dev.takeEntry fn ring = some (d, late) ∧ u = { s with dev := d.dmaBytes fn e.tenant true (64 + len) }
      ∧ hostAccepts (d.rd Reg.glbState) (d.rd (Reg.ringCtrlClass fn ring)) op fn = true ∧ d.rd (Reg.ringCtrlClass fn ring) = opClass op
      ∧ (opClass op = 2 → fn = 0) ∧ (opClass op ≠ 2 → fieldAt entry 1 1 < 64) ∧ d.tenantOk fn e.tenant = true

/-- A bulk load reaches its content: from a ring, or as a message of the fabric that was waiting; `listed` says that the content is as the entry
declares it. -/
def BulkStarts (c : Instr) (s : State) (entry content : List Byte) (listed : Bool) (p : Place) (e : HostRef) (u : State) : Prop :=
  (∃ fn ring list x late, c = .bulkLoad fn ring entry list content x p ∧ listed = Dev.listOk entry list content
    ∧ Fetches s opBulk fn ring entry (list.length + content.length) x e late u)
  ∨ (∃ m, c = .bulk .waiting p ∧ (s.dev.fab.inbox.find? fun m => m.type = tyBulk) = some m ∧ entry = padTo 64 (m.data.take 64) ∧ content = m.data.drop 64
    ∧ e = { fn := Dev.fabricFn, ring := 0, seq := fieldAt entry 8 8, tenant := fieldAt entry 1 1 % 64 }
    ∧ listed = (fieldAt entry 0 1 = opBulk && decide (64 ≤ m.data.length) && decide (fieldAt entry 1 1 < 64) && content.length = fieldAt entry 40 8)
    ∧ u = (s.onDev fun d => { d with fab := { d.fab with inbox := d.fab.inbox.erase m } }) ∧ hostAccepts (u.dev.rd Reg.glbState) 1 opBulk 0 = true)

/-- A register whose write is that of its fields and nothing else, reached by an access of its size (R503, R504). -/
def PlainReg (off size : Nat) : Prop :=
  Reg.listed off = true ∧ Reg.inDebug off = false ∧ Reg.inHeaders off = false ∧ ((Reg.fieldsAt off).map Field.key).Nodup
    ∧ (∀ f ∈ Reg.fieldsAt off, Dev.ownWrite f = false ∧ f.lsb + f.width ≤ 64) ∧ off ∉ [0x10000, 0x20000, 0x20004, 0x3000, 0xC0000] ∧ off < 0x4000000
    ∧ ¬ (0x110000 ≤ off ∧ off < 0x130000 ∧ off % 0x40 = 0 ∧ off % 0x1000 < 0x400) ∧ modeKey (off * 64) = false
    ∧ ((size = 4 ∧ off % 4 = 0 ∧ Reg.wide off = false ∧ ¬ (4 ≤ off ∧ Reg.wide (off - 4) = true)) ∨ (size = 8 ∧ off % 8 = 0 ∧ Reg.wide off = true))

/-- The registers an apply point writes itself, beside the values it puts into effect. -/
def applyFields : List Field :=
  [Reg.epcTime, Reg.fltLogRead, Reg.pwrStatusStepping, Reg.epcStatusCouplePending, Reg.idxStatusCouplePending, Reg.tierStatusCouplePending]
    ++ (List.range 12).map Reg.stkStatusCouplePending ++ [Reg.flsStatusCouplePending, Reg.cvuStatusCouplePending, Reg.fabStatusCouplePending,
      Reg.egsStatusCouplePending, Reg.tntStatusCouplePending, Reg.pwrStatusCouplePending, Reg.fltStatusCouplePending, Reg.tierStatusMoveBusy] ++ faultFields

/-! ### The monitor and SPDM -/

/-- A monitor line with a keyword and arguments that the monitor hears (R492). -/
def MonLine (s : State) (line kw : List Char) (args : List (List Char)) : Prop :=
  (∃ w, words line = w :: args ∧ w.map upper = kw) ∧ s.listening (kw = ['W', 'R']) = true ∧ line.length ≤ 255
    ∧ ∀ c ∈ line, 0x20 ≤ c.toNat ∧ c.toNat ≤ 0x7E

/-- The monitor has sent these lines and the prompt, and nothing else has gone out (R492). -/
def Says (s t : State) (lines : List String) : Prop := t.dev.out = s.dev.out ++ (lines ++ ["> "]).map Output.line

/-- Nothing but what goes out has changed. -/
def OutOnly (s t : State) : Prop := t.dev = { s.settle.dev with out := t.dev.out } ∧ t.mem = s.settle.mem

/-- An SPDM request of a code is served: `q` is how it came in, with its session and bytes, and `u` the state once it is counted (R486). -/
def SpdmServed (s : State) (code : Nat) (v : Via) (opened : Option (List Byte)) (q : Req) (u : State) : Prop :=
  s.dev.inState stSleep = false ∧ State.spdmIs code q.msg = true ∧ ∃ (secured : Bool) (b : List Byte) (after : State),
    ((∃ object n, v = .doe object ∧ s.dev.configured = true ∧ doeParse object = some (n, b) ∧ (n = 1 ∨ n = 2) ∧ secured = decide (n = 2)
        ∧ q.transport = 0 ∧ after = s)
      ∨ (∃ m, v = .fabric .waiting
        ∧ (s.dev.fab.inbox.find? fun m => m.type = tyMgmt && fieldAt m.data 0 1 = mgSpdm && decide (m.data.length ≤ 65544)) = some m
        ∧ b = m.data.drop 8 ∧ secured = bit (fieldAt m.data 1 1) 0 ∧ q.transport = s.dev.val (Reg.peerCfgNode m.peer) + 1
        ∧ after = s.onDev fun d => { d with fab := { d.fab with inbox := d.fab.inbox.erase m } }))
    ∧ (secured = false → q.session = none ∧ q.msg = b)
    ∧ (secured = true → ∃ x, (s.dev.spdm.sessions.find? fun x => x.transport = q.transport && x.id = fieldAt b 0 4) = some x
        ∧ q.session = some x ∧ opened = some q.msg)
    ∧ u = after.onDev (·.bump Ctr.btSpdmRequests)

/-- The request is of version 1.3 and comes after the connection has come to a stage; in a session, that is established. -/
def Connected (s : State) (q : Req) (stage : Nat) : Prop :=
  fieldAt q.msg 0 1 = 0x13 ∧ stage ≤ s.dev.spdmStage q.transport ∧ ∀ x, q.session = some x → x.finished = true

/-- The response that goes out to a request of the DOE: as it stands, or sealed in its session. -/
def Answered (q : Req) (bs : List Byte) (s t : State) : Prop :=
  q.transport = 0 →
    (q.session = none → t.dev.out = s.dev.out ++ [.object 0 (doeObject 1 bs)])
    ∧ (∀ x, q.session = some x → ∃ n, t.dev.out = s.dev.out
        ++ [.object 0 (doeObject 2 (leBytes 4 x.id ++ leBytes 2 (Config.spdmSealed n bs).length ++ Config.spdmSealed n bs))])

/-- The commands that bring an SPDM request, with its code. -/
def spdmSteps : List (Nat × (Via → Option (List Byte) → Instr)) :=
  [(0x84, .getVersion), (0xE1, .getCapabilities), (0xE3, .negotiateAlgorithms), (0x81, .getDigests), (0x82, .getCertificate), (0x83, .challenge),
   (0xE0, .getMeasurements), (0xE4, .keyExchange), (0xE5, fun v o => .finish v o true), (0xE8, .spdmHeartbeat), (0xE9, .keyUpdate),
   (0xEC, .endSession)]

end Sys2Proof
end

