-- ==== Sys2Proof/Certificates/Slice0/Obligations.lean ====
section
/-! DEFINITION. The statements for the provers. Each says what a command or the block does, for every state and operands that meet its
hypotheses; OBLIGATIONS.json lists them with the rules they rest on. -/

open Sys2Proof Sys2Proof.Machine


/-! ### Rails, starts and states -/

/-- R520, R521: input power starts the rail sequence, and each row switches on its rails and leaves on those that are. R441, R522, R523, R436: a rail that misses or loses power-good, REFCLK lost, and a VIN trip without recovery stop the module in SLEEP with
the cause in AON_STATUS, and the contents of the strata and stacks are lost.
The model's own readings here: log entries 100, 101. -/
def Obligations.RailsComeUpAndFail : Prop :=
  ((∀ s : State, s.dev.inState stSleep = true → s.dev.aon.seq = none → s.dev.aon.up = false →
      Ends .inputValid s fun t => t.dev.aon.seq = some 0 ∧ t.dev.rd Reg.aonStatusWakeCause = 0)
    ∧ (∀ (s : State) (k : Nat), s.dev.aon.seq = some k → k ≤ 6 →
      Ends .railSequenceStep s fun t => t.dev.aon.seq = some (k + 1) ∧ t.dev.aon.up = true ∧
        (∀ r ∈ railRow k, bit (t.dev.rd Reg.pwrRailsGood) r = true) ∧
        (∀ r, r < 11 → bit (s.dev.rd Reg.pwrRailsGood) r = true → bit (t.dev.rd Reg.pwrRailsGood) r = true)))
  ∧ ((∀ (s : State) (rail : Nat), s.dev.aon.seq.isSome = true →
      Ends (.railPowerGoodMiss rail) s fun t =>
        t.dev.rd Reg.glbState = 0 ∧ t.dev.rd Reg.aonStatusSleepCause = 6 ∧ t.dev.aon.rail = some rail ∧ t.dev.aon.seq = none ∧ DramLost t)
    ∧ (∀ (s : State) (rail : Nat), s.dev.inState stSleep = false → s.dev.flag Reg.pwrStatusStepping = false →
      Ends (.railPowerGoodLoss rail) s fun t =>
        t.dev.rd Reg.glbState = 0 ∧ t.dev.rd Reg.aonStatusSleepCause = 6 ∧ t.dev.aon.rail = some rail ∧ DramLost t)
    ∧ (∀ s : State, s.dev.inState stSleep = false →
      Ends .refclkLoss s fun t =>
        t.dev.rd Reg.glbState = 0 ∧ t.dev.rd Reg.aonStatusSleepCause = 6 ∧ t.dev.aon.rail = some 0xFF ∧ DramLost t)
    ∧ (∀ s : State, s.dev.aon.vinAt.isSome = true →
      Ends .vinRecoveryTimeout s fun t =>
        t.dev.rd Reg.glbState = 0 ∧ t.dev.rd Reg.aonStatusSleepCause = 2 ∧ t.dev.aon.vinAt = none ∧ DramLost t))

/-- R463, R464, R489: a reset release counts a BOOT and runs the boot sequence of the mask ROM from where the always-on domain left TIME; without
a NOR device of 64 to 512 MiB the sequence ends in RECOVERY at step 2; one that stops for good in step 1 waits in BOOT, and the 5 s timer then ends it in RECOVERY.
The model's own readings here: log entries 19, 109. -/
def Obligations.ResetReleaseRunsTheBootSequence : Prop :=
  (∀ (s : State) (b : BootEnv) (rtc t : Nat), s.dev.inState stBoot = true → s.dev.boot.ran = false →
    Ends (.resetRelease b rtc t) s fun u =>
      (∃ r : State, u = (r.bootSequence b).settle ∧ r.dev.boot = { ran := true } ∧ r.mem = s.mem ∧ Counted Ctr.btBoots 1 s r
        ∧ SameRegsBut [Reg.epcTime] s r)
      ∧ ((b.size = none ∨ ∃ n, b.size = some n ∧ (n < 26 ∨ 29 < n)) → b.hang ≠ some 1 → b.hang ≠ some 2 →
        u.dev.rd Reg.glbState = 2 ∧ u.dev.rd Reg.btFailStep = 2 ∧ Recorded .bootNvmFail u)
      ∧ (b.hang = some 1 → u.dev.rd Reg.glbState = 1 ∧ u.dev.boot.hungAt = some 1))
  ∧ (∀ (s : State) (b : BootEnv) (rtc t : Nat), s.dev.inState stSleep = true → s.dev.aon.seq = some 7 →
    Ends (.resetRelease b rtc t) s fun u =>
      ∃ r : State, u = (r.bootSequence b).settle ∧ r.dev.rd Reg.glbState = 1 ∧ r.dev.rd Reg.glbStatePrevious = 0 ∧ r.dev.boot = { ran := true })
  ∧ (∀ (s : State) (k : Nat), s.dev.inState stBoot = true → s.dev.boot.hungAt = some k →
    Ends .bootTimeout s fun u => u.dev.rd Reg.glbState = 2 ∧ u.dev.rd Reg.glbStatePrevious = 1 ∧ u.dev.rd Reg.btFailStep = k % 16
      ∧ Recorded .bootNvmFail u ∧ Counted Ctr.btRecoveries 1 s u ∧ u.dev.boot.hungAt = none)

/-- R480: TRAINING ends in READY, when every unit has finished or the timer has run out; untrained channels then count as offline. R480: each state command makes the move of its row, in a state that permits it and while neither a monitor step nor a transition into or out of
ACTIVE is under way; the end of a drain commits the stop.
The model's own readings here: log entries 104, 126. -/
def Obligations.TrainingAndStateCommands : Prop :=
  ((∀ (s : State) (failed : List Nat), s.dev.inState stTraining = true → s.trained = true →
      Ends (.trainingComplete failed) s fun t => t.dev.rd Reg.glbState = 4 ∧
        (∀ st, st < 12 → t.dev.flag (Reg.stkStatusTrained st) = !failed.contains st))
    ∧ (∀ (s : State) (failed : List Nat), s.dev.inState stTraining = true →
      Ends (.trainingTimeout failed) s fun t => t.dev.rd Reg.glbState = 4 ∧
        (∀ ch, ch < 32 → t.dev.flag (Reg.chStatusTrained ch) = true ∨ t.dev.flag (Reg.chStatusOffline ch) = true)))
  ∧ ((∀ s : State, s.dev.commandable = true → s.dev.inState stActive = true →
      Ends .drainCmd s fun t => t.dev.rd Reg.glbState = 6 ∧ t.dev.rd Reg.glbStatePrevious = 5 ∧ t.mem = s.settle.mem)
    ∧ (∀ s : State, s.dev.commandable = true → s.dev.inState stReady = true → s.dev.running = false →
      Ends .retainCmd s fun t => t.dev.rd Reg.glbState = 7 ∧ t.dev.lutDir = [] ∧ t.dev.flag Reg.flsStatusReady = false)
    ∧ (∀ (s : State) (e : Training) (lost : List Nat), s.dev.commandable = true → s.dev.inState stRetain = true →
      Ends (.resumeCmd e lost) s fun t => t.dev.rd Reg.glbState = 3 ∧ t.dev.boot.resumed = true ∧ t.dev.flag Reg.flsStatusReady = true)
    ∧ (∀ s : State, s.dev.commandable = true → s.dev.running = false →
        (s.dev.inState stReady = true ∨ s.dev.inState stRetain = true ∨ s.dev.inState stRecovery = true) →
      Ends .sleepCmd s fun t => t.dev.rd Reg.glbState = 0 ∧ t.dev.rd Reg.aonStatusSleepCause = 1 ∧ DramLost t)
    ∧ (∀ s : State, s.dev.commandable = true → s.dev.inState stSleep = false →
      Ends .resetCmd s fun t => t.dev.rd Reg.glbState = 1 ∧ t.dev.boot = {} ∧ t.dev.rd Reg.btStatusFromStaging = 0)
    ∧ (∀ s : State, s.dev.inState stDrain = true → s.dev.ingress.cohorts = [] →
      Ends .drainComplete s fun t => t.dev.epc.stopPending = true ∧ t.dev.rd Reg.epcCtrlEnable = 0 ∧ t.dev.rd Reg.glbStateChanging = 1
        ∧ t.dev.rd Reg.glbState = 6 ∧ SameRegsBut [Reg.epcCtrlEnable, Reg.glbStateChanging] s t))

/-- R481: the codes of BT_STATE_CMD, and a refusal: a command that R480 does not permit in the present state, or a reserved code, changes no state: it sets
STATE_REFUSED, raises BOOT_STATE_REFUSED and counts in STATE_REFUSALS. -/
def Obligations.RefusedStateCommandsChangeNoState : Prop :=
  (∀ (s : State) (c : Instr), s.dev.commandable = true → s.dev.inState stSleep = false →
    ((c = .drainCmd ∧ s.dev.inState stActive = false) ∨ (c = .retainCmd ∧ (s.dev.inState stReady = false ∨ s.dev.running = true))
      ∨ (∃ e lost, c = .resumeCmd e lost ∧ s.dev.inState stRetain = false)
      ∨ (c = .sleepCmd ∧ (s.dev.running = true
          ∨ (s.dev.inState stReady = false ∧ s.dev.inState stRetain = false ∧ s.dev.inState stRecovery = false)))
      ∨ (∃ v e, c = .registerWrite Reg.btStateCmd.off 4 v e ∧ 6 ≤ v % 16 ∧ e.t ≤ s.dev.now)) →
    Ends c s fun t => t.dev.rd Reg.glbState = s.dev.rd Reg.glbState ∧ t.dev.rd Reg.btStatusStateRefused = 1
      ∧ Counted Ctr.btStateRefusals 1 s t ∧ Recorded .bootStateRefused t
      ∧ t.dev.epc = s.dev.epc ∧ t.dev.seq = s.dev.seq ∧ t.dev.ingress = s.dev.ingress ∧ t.dev.power = s.dev.power)
  ∧ (∀ (s : State) (v : Nat) (e : WriteEnv), s.dev.inState stSleep = false → e.t ≤ s.dev.now →
      let write := exec (.registerWrite Reg.btStateCmd.off 4 v e) s
      (v % 16 = 0 → s.dev.commandable = true → write = .next s.settle) ∧ (v % 16 = 1 → write = exec .drainCmd s) ∧ (v % 16 = 2 → write = exec .retainCmd s)
      ∧ (v % 16 = 3 → write = exec (.resumeCmd e.train e.lost) s) ∧ (v % 16 = 4 → write = exec .sleepCmd s) ∧ (v % 16 = 5 → write = exec .resetCmd s))

/-- R436, R526: a wake source whose WAKE bit is set starts the rail sequence, if no comparator is still tripped, and leaves its cause. R435, R436, R520, R521: what the always-on comparators, the crystal and the loss of VAON do. -/
def Obligations.AlwaysOnEventsAndWakes : Prop :=
  ((∀ (s : State) (perst : Bool) (rtc : Nat), s.dev.inState stSleep = true → s.dev.aon.up = true → s.dev.aon.seq = none →
        bit (s.dev.rd Reg.aonCtrlWake) 4 = true → s.dev.rd Reg.aonStatusTripped = 0 →
      Ends (.wakeNWake perst rtc) s fun t => t.dev.aon.seq = some 1 ∧
        t.dev.rd Reg.aonStatusWakeCause = (if perst = true ∧ bit (s.dev.rd Reg.aonCtrlWake) 3 = true then 4 else 5))
    ∧ (∀ (s : State) (rtc : Nat), s.dev.inState stSleep = true → s.dev.aon.up = true → s.dev.aon.seq = none →
        bit (s.dev.rd Reg.aonCtrlWake) 3 = true → s.dev.rd Reg.aonStatusTripped = 0 →
      Ends (.perstNWake rtc) s fun t => t.dev.aon.seq = some 1 ∧ t.dev.rd Reg.aonStatusWakeCause = 4)
    ∧ (∀ (s : State) (k rtc : Nat), k < 3 → s.dev.inState stSleep = true → s.dev.aon.up = true → s.dev.aon.seq = none →
        bit (s.dev.rd Reg.aonCtrlWake) k = true → s.dev.rd Reg.aonStatusTripped = 2 ^ k →
      Ends (.comparatorWake k rtc) s fun t => t.dev.aon.seq = some 1 ∧ t.dev.rd Reg.aonStatusWakeCause = k + 1
        ∧ t.dev.rd Reg.aonStatusTripped = 0))
  ∧ ((∀ (s : State) (vin t : Nat), s.dev.inState stSleep = false → s.dev.aon.vinAt = none →
      Ends (.aonCmpVinTrip vin t) s fun u => u.dev.rd Reg.pwrGateG = 63 ∧ u.dev.power.g = 63 ∧ bit (u.dev.rd Reg.aonStatusTripped) 0 = true
        ∧ u.dev.aon.vinAt = some (max s.dev.now t % 2 ^ 64) ∧ Recorded .pwrVinLow u)
    ∧ (∀ (s : State) (temp : Nat), s.dev.inState stSleep = false →
      Ends (.aonCmpTempTrip temp) s fun u => bit (u.dev.rd Reg.aonStatusTripped) 1 = true ∧
        (if s.dev.flag Reg.aonCtrlTripTemp then u.dev.rd Reg.glbState = 0 ∧ u.dev.rd Reg.aonStatusSleepCause = 3 ∧ DramLost u
         else u.dev.rd Reg.glbState = s.dev.rd Reg.glbState ∧ Recorded .pwrAuxEvent u))
    ∧ (∀ (s : State) (level : Nat), s.dev.inState stSleep = false →
      Ends (.aonCmpAuxTrip level) s fun u => bit (u.dev.rd Reg.aonStatusTripped) 2 = true ∧
        (if s.dev.flag Reg.aonCtrlTripAux then u.dev.rd Reg.glbState = 0 ∧ u.dev.rd Reg.aonStatusSleepCause = 4 ∧ DramLost u
         else u.dev.rd Reg.glbState = s.dev.rd Reg.glbState ∧ Recorded .pwrAuxEvent u))
    ∧ (∀ (s : State) (k t : Nat), k < 3 → s.dev.inState stSleep = false →
      Ends (.comparatorRelease k t) s fun u => bit (u.dev.rd Reg.aonStatusTripped) k = false ∧ (k = 0 → u.dev.aon.vinAt = none)
        ∧ SameRegsBut [Reg.aonStatusTripped, Reg.epcTime] s u)
    ∧ (∀ s : State, s.dev.aon.up = true → Ends .crystalStable s fun u => u.dev.aon.crystal = true ∧ u.dev.regs = s.dev.regs)
    ∧ (∀ s : State, Ends .vaonFail s fun u => u.dev.rd Reg.glbState = 0 ∧ u.dev.aon = { up := false } ∧ u.dev.count Ctr.btBoots = 0 ∧ DramLost u))

/-- R417, R422, R424, R431, R437: the samples of power and temperature show in their registers, more than 39 A sets OVERCURRENT and the gate
level to 63, and a droop trip stretches the CORE clock until its detectors have been clear. R419, R421, R426: the end of an operating-point step.
The model's own readings here: log entries 98, 100. -/
def Obligations.PowerSamplesAndSteps : Prop :=
  ((∀ (s : State) (x : PowerIn), s.dev.inState stSleep = false →
      Ends (.powerSample x) s fun t => t.dev.rd Reg.pwrInputVinMv = x.vin % 2 ^ Reg.pwrInputVinMv.width
        ∧ t.dev.rd Reg.pwrInputIinCa = x.iin % 2 ^ Reg.pwrInputIinCa.width
        ∧ t.dev.power.iLast = x.iin
        ∧ (3900 < x.iin → t.dev.rd Reg.pwrStatusOvercurrent = 1 ∧ t.dev.power.g = 63 ∧ t.dev.power.filler = {}
            ∧ Counted Ctr.pwrOvercurrentEvents 1 s t))
    ∧ (∀ (s : State) (j st r : List Int) (stuck : List (Nat × Nat)), s.dev.inState stSleep = false →
      Ends (.thermalSample j st r stuck) s fun t =>
        (t.dev.rd Reg.glbState = 0 ∧ t.dev.rd Reg.aonStatusSleepCause = 5 ∧ t.dev.aon.trip.isSome = true ∧ DramLost t)
        ∨ (t.dev.rd Reg.glbState = s.dev.rd Reg.glbState
            ∧ (∀ i, i < 8 → t.dev.rd (Reg.pwrTempJ i) = Dev.tempWord j i % 2 ^ 32) ∧ (∀ i, i < 4 → t.dev.rd (Reg.pwrTempS i) = Dev.tempWord st i % 2 ^ 32)
            ∧ (t.dev.flag Reg.pwrStatusThermalWarn = true ↔ t.dev.power.warm ≠ [])))
    ∧ (∀ s : State, s.dev.inState stSleep = false → s.dev.power.stretched = false →
      Ends .droopTrip s fun t => t.dev.power.stretched = true ∧ Counted Ctr.pwrStretchEvents 1 s t ∧ t.dev.regs = s.dev.regs)
    ∧ (∀ (s : State) (edges : Nat), s.dev.power.stretched = true → 16 ≤ edges →
      Ends (.stretchEnd edges) s fun t => t.dev.power.stretched = false ∧ Counted Ctr.pwrStretchCycles edges s t ∧ t.dev.regs = s.dev.regs))
  ∧ ((∀ (s : State) (stuck : Option Nat) (n t0 : Nat), s.dev.power.step = some (n, t0) → s.dev.rd Reg.pwrStatusOpp < n → n < 8 →
      Ends (.oppStepDownComplete stuck) s fun t => t.dev.rd Reg.pwrStatusOpp = n ∧ t.dev.rd Reg.pwrStatusStepReq = 0
        ∧ Counted Ctr.pwrOppSteps 1 s t ∧ (stuck.isSome = true → Recorded .pwrStepFail t))
    ∧ (∀ (s : State) (n t0 : Nat), s.dev.power.step = some (n, t0) → n < s.dev.rd Reg.pwrStatusOpp →
      Ends .oppStepUpPowerGood s fun t => t.dev.rd Reg.pwrStatusOpp = n ∧ t.dev.rd Reg.pwrStatusStepReq = 0 ∧ Counted Ctr.pwrOppSteps 1 s t)
    ∧ (∀ (s : State) (rail n t0 : Nat), s.dev.power.step = some (n, t0) → n < s.dev.rd Reg.pwrStatusOpp →
      Ends (.oppStepUpAbandon rail) s fun t => t.dev.rd Reg.pwrStatusOpp = s.dev.rd Reg.pwrStatusOpp ∧ t.dev.power.step = none
        ∧ t.dev.rd Reg.pwrStatusStepping = 0 ∧ Counted Ctr.pwrStepFails 1 s t ∧ Recorded .pwrStepFail t))

/-! ### Epochs, plans and sequencers -/

/-- R534, R480: writing 1 to ENABLE in READY starts the generator with a filler ramp; writing 0 commits a stop at the next boundary, or calls
off a start before the first one.
The model's own readings here: log entries 33, 99. -/
def Obligations.TheGeneratorStartsAndStops : Prop :=
  (∀ (s : State) (t : Nat), s.dev.epc.monStep = 0 → s.mayStart = true → s.dev.epc.startPending = false →
    Ends (.startGenerator t) s fun u => u.dev.epc.startPending = true ∧ u.dev.rd Reg.epcCtrlEnable = 1 ∧ u.dev.rd Reg.glbStateChanging = 1
      ∧ u.dev.power.ramp.isSome = true ∧ (u.dev.epc.firstAt = none ↔ s.dev.flag Reg.epcCtrlStartOnSync = true)
      ∧ SameRegsBut [Reg.epcCtrlEnable, Reg.glbStateChanging, Reg.epcTime] s u)
  ∧ (∀ s : State, s.dev.epc.monStep = 0 → s.dev.epc.startPending = false → s.dev.running = true →
    Ends .stopGenerator s fun u => u.dev.epc.stopPending = true ∧ u.dev.rd Reg.epcCtrlEnable = 0 ∧ u.dev.rd Reg.glbStateChanging = 1
      ∧ u.dev.running = true ∧ u.dev.seq = s.dev.seq)
  ∧ (∀ s : State, s.dev.epc.monStep = 0 → s.dev.epc.startPending = true → s.dev.epc.heldWrites = [] →
    Ends .stopGenerator s fun u => u.dev.epc.startPending = false ∧ u.dev.epc.firstAt = none ∧ u.dev.rd Reg.epcCtrlEnable = 0
      ∧ u.dev.rd Reg.glbStateChanging = 0 ∧ u.dev.power.ramp = none
      ∧ SameRegsBut [Reg.epcCtrlEnable, Reg.glbStateChanging] s u)

/-- R34, R36: at a boundary that neither starts nor ends a run, the epoch number goes up by one, EPC_BOUNDARY takes the boundary's TIME, which lies
one epoch length after the last, and no slot runs yet. R37: a cairn that overruns is recorded as CAIRN_OVERRUN and its epoch counted once in LATE_EPOCHS, slot 0 starts late by the excess, and the
boundary itself does not move. -/
def Obligations.BoundariesAndOverruns : Prop :=
  (∀ (s : State) (x : CairnIn), s.dev.running = true → s.dev.epc.stopPending = false → s.dev.epc.monStep ≠ 1 →
      Ends (.epochBoundary x) s fun t => t.dev.rd Reg.epcNumber = (s.dev.rd Reg.epcNumber + 1) % 2 ^ 64
        ∧ t.dev.rd Reg.epcBoundary = (s.dev.rd Reg.epcBoundary + s.dev.epc.lenNs) % 2 ^ 64
        ∧ t.dev.epc.slot = none ∧ t.dev.running = true)
  ∧ (∀ (s : State) (excess : Nat), s.dev.running = true → s.dev.epc.slot = none → s.dev.epc.slotLate = none →
      Ends (.cairnOverrun excess) s fun t => t.slotStart 0 = s.slotStart 0 + excess ∧ Recorded .cairnOverrun t
        ∧ (s.dev.flag Reg.epcStatusLate = false → Counted Ctr.epcLateEpochs 1 s t)
        ∧ t.dev.rd Reg.epcBoundary = s.dev.rd Reg.epcBoundary ∧ t.dev.epc.lenNs = s.dev.epc.lenNs)

/-- R49, R63, R51, R101: a slot that is due starts; the cut-off of its slot closes the epoch's ingress once; a step that completes counts its bank waits
and fallback candidates; a unit that does not stop has its chamber reset at the next cairn. R59, R34, R38, R483, R54: the first edge fixes the first boundary of a start on the sync input; a snapshot point gives every counter register its
live value; at a cairn no sump entry past its EXPIRY stays.
The model's own readings here: log entries 33, 40, 41. -/
def Obligations.SlotsStepsAndEdges : Prop :=
  ((∀ (s : State) (m t : Nat) (work : IndexWork), s.dev.running = true → s.nextSlot = some m → s.slotStart m ≤ t →
      Ends (.slotStart m t work) s fun u => u.dev.epc.slot = some m ∧ u.dev.epc.inCairn = false ∧ u.dev.now = max s.dev.now t % 2 ^ 64)
    ∧ (∀ (s : State) (sample : Bool) (plan : CutoffPlan), s.dev.running = true → s.dev.rd Reg.glbState ≠ 4 →
        s.dev.epc.slot = some s.cutoffSlot → s.dev.ingress.cutAt ≠ some s.dev.epoch →
      Ends (.ingressCutoff sample plan) s fun u => u.dev.ingress.arriving = [] ∧ u.dev.ingress.arrivingOps = []
        ∧ u.dev.ingress.cutAt = some s.dev.epoch
        ∧ (s.dev.draining = false → ∃ qs, u.dev.ingress.cohorts = s.dev.ingress.cohorts ++ [⟨s.dev.epoch, qs, Dev.dealTokens plan.groups (Dev.tokensOf qs)⟩]
            ∧ qs.length ≤ s.ingressCap))
    ∧ (∀ (s : State) (c idx origin : Nat) (e : StepEnd) (f : InFlight), c < 256 →
        (s.dev.seq.inflight.find? fun f => f.chamber = c && f.step.hdr.index = idx && f.origin = origin && f.issued && f.executed) = some f →
        (s.onDev (·.clock e.t)).dev.settled c idx origin = true →
      Ends (.stepComplete c idx origin e) s fun u => Counted (Ctr.chBankWait c) e.wait s u ∧ Counted Ctr.tierEstimatedSq8 e.sq8 s u
        ∧ Counted Ctr.tierEstimatedPq e.pq s u ∧ Counted Ctr.poolFallbackCandidates e.fallback s u)
    ∧ (∀ (s : State) (c u idx : Nat), c < 256 →
      Ends (.seqTimeout c u idx) s fun t => c ∈ t.dev.seq.resetDue ∧ Recorded .seqTimeout t ∧ t.dev.lutDir = s.dev.lutDir))
  ∧ ((∀ (s : State) (t : Nat) (rising : Bool), (s.dev.on Reg.epcCtrlSyncEdge = !rising) → s.dev.epc.startPending = true → s.dev.epc.firstAt = none →
      Ends (.epochSyncEdge t rising) s fun u => u.dev.epc.firstAt = some t ∧ u.dev.epc.startPending = true)
    ∧ (∀ (s : State) (t : Nat), s.dev.running = false → s.dev.inState stSleep = false →
      Ends (.snapshotPoint t) s fun u => ∀ c, u.dev.counted c = s.dev.count c)
    ∧ (∀ (s : State) (bg : List (Nat × Nat × Nat)), s.dev.epc.inCairn = true →
      Ends (.sumpEntryExpire bg) s fun u => ∀ e ∈ u.dev.seq.sump, e.chamber < 256 → s.dev.epoch ≤ e.origin + e.step.hdr.expiry))

/-- R42, R43, R70: VERIFY of the inactive bank clears its status bits and sets VERIFYING; its end leaves VERIFYING clear and VALID set exactly when the
four checks pass; INVALIDATE and any write to the bank clear VALID; a write to the active bank is discarded and recorded. R43, R36: an armed switch whose bank is VALID and whose length pair agrees is made within the first 0.500 µs of a cairn: the other bank is active,
ARM clears and PLAN_SWITCHES counts; one whose bank is not VALID, or that was armed in this epoch for an earlier one, is not made.
The model's own readings here: log entries 31, 42. -/
def Obligations.PlanBanksAreVerifiedAndSwitched : Prop :=
  ((∀ (s : State) (bank : Nat), bank < 2 → bank ≠ s.dev.activeBank →
      Ends (.verify bank) s fun t => t.dev.rd (Reg.plnStatusVerifying bank) = 1 ∧ t.dev.rd (Reg.plnStatusHdrFail bank) = 0
        ∧ t.dev.rd (Reg.plnStatusStepFail bank) = 0 ∧ t.dev.rd (Reg.plnStatusDigestFail bank) = 0 ∧ t.dev.rd (Reg.plnStatusSigFail bank) = 0
        ∧ (s.dev.flt.ring = [] → t.mem = s.mem))
    ∧ (∀ (s : State) (bank : Nat), bank < 2 → s.dev.flag (Reg.plnStatusVerifying bank) = true →
      Ends (.planVerifyComplete bank) s fun t => t.dev.flag (Reg.plnStatusVerifying bank) = false
        ∧ (t.dev.flag (Reg.plnStatusValid bank) = true ↔
            headerBad (s.hdrBytes bank) = none ∧ s.stepsBad bank = none ∧ s.digestOk bank = true ∧ s.bankSigOk bank = true))
    ∧ (∀ (s : State) (bank : Nat), bank < 2 → bank ≠ s.dev.activeBank →
      Ends (.invalidate bank) s fun t => t.dev.flag (Reg.plnStatusValid bank) = false ∧ SameRegsBut [Reg.plnStatusValid bank] s t)
    ∧ (∀ (s : State) (v : Bool), Ends (.planArm v) s fun t => t.dev.flag Reg.plnCtrlArm = v ∧ SameRegsBut [Reg.plnCtrlArm] s t)
    ∧ (∀ (s : State) (bank off : Nat) (bs : List Byte) (p : Bool), s.mem.wf = true → s.dev.flt.ring = [] → bank < 2 → bank ≠ s.dev.activeBank →
        off + bs.length ≤ 512 →
      Ends (.planBankWrite bank none off bs p) s fun t => t.dev.flag (Reg.plnStatusValid bank) = false
        ∧ t.mem.read .hdr (bank * 512 + off) bs.length = bs
        ∧ (∀ a, (a < bank * 512 + off ∨ bank * 512 + off + bs.length ≤ a) → t.mem.get .hdr a = s.mem.get .hdr a)
        ∧ (∀ a, a < 2 ^ 56 → t.mem.get .dram a = s.mem.get .dram a))
    ∧ (∀ (s : State) (off : Nat) (bs : List Byte) (p : Bool), s.dev.activeBank < 2 → off + bs.length ≤ 512 →
      Ends (.planBankWrite s.dev.activeBank none off bs p) s fun t => Recorded .planWriteActive t
        ∧ t.dev.flag (Reg.plnStatusValid s.dev.activeBank) = s.dev.flag (Reg.plnStatusValid s.dev.activeBank)))
  ∧ ((∀ s : State, s.dev.epc.inCairn = true → s.dev.now ≤ s.dev.rd Reg.epcBoundary + 500 →
        s.dev.epc.switchedAt ≠ some s.dev.epoch → s.dev.flag Reg.plnCtrlArm = true → s.dev.rd Reg.plnSwitchEpoch ≤ s.dev.epoch →
        s.dev.epc.armedIn.getD 0 ≤ s.dev.rd Reg.plnSwitchEpoch →
        s.dev.flag (Reg.plnStatusValid s.dev.idleBank) = true → s.agrees (s.hdrField s.dev.idleBank 8 2) .epcLen = true →
      Ends .planBankSwitch s fun t => t.dev.activeBank = s.dev.idleBank ∧ t.dev.rd Reg.plnCtrlArm = 0 ∧ Counted Ctr.epcPlanSwitches 1 s t
        ∧ t.dev.epc.switchedAt = some s.dev.epoch)
    ∧ (∀ s : State, s.dev.flag (Reg.plnStatusValid s.dev.idleBank) = false →
      Ends .planBankSwitch s fun t => t.dev.activeBank = s.dev.activeBank ∧ t.dev.rd Reg.plnCtrlArm = s.dev.rd Reg.plnCtrlArm
        ∧ t.dev.count Ctr.epcPlanSwitches = s.dev.count Ctr.epcPlanSwitches)
    ∧ (∀ s : State, s.dev.epc.armedIn = some s.dev.epoch → s.dev.rd Reg.plnSwitchEpoch < s.dev.epoch →
      Ends .planBankSwitch s fun t => t.dev.activeBank = s.dev.activeBank ∧ t.dev.rd Reg.plnCtrlArm = s.dev.rd Reg.plnCtrlArm))

/-! ### Steps: the vector and matrix units -/

/-- R90, R91, R89: the arithmetic VECOPs. An INT32 result is the exact one, saturated; an FP32 result is the sum, difference, product, fused
product or extreme of R80 and R89. R90, R91: the bitwise, shifting, one-operand and choosing VECOPs. The result of ABS and NEG on -2^31 in INT32, which no rule states, is a
free value (log entry 13). -/
def Obligations.VecopElements : Prop :=
  (VecRuns .vecopAdd .vAdd (fun p a b _ => if p.etype = 1 then clamped (toSigned 32 a + toSigned 32 b) else Fp.fadd a b)
    ∧ VecRuns .vecopSub .vSub (fun p a b _ => if p.etype = 1 then clamped (toSigned 32 a - toSigned 32 b) else Fp.fsub a b)
    ∧ VecRuns .vecopMul .vMul (fun p a b _ => if p.etype = 1 then clamped (toSigned 32 a * toSigned 32 b) else Fp.fmul a b)
    ∧ VecRuns .vecopFma .vFma (fun p a b c => if p.etype = 1 then clamped (toSigned 32 a * toSigned 32 b + toSigned 32 c) else Fp.ffma a b c)
    ∧ VecRuns .vecopFmas .vFmas (fun p a b _ => if p.etype = 1 then clamped (toSigned 32 a * toSigned 32 p.scalar + toSigned 32 b) else Fp.ffma a p.scalar b)
    ∧ VecRuns .vecopMax .vMax (fun p a b _ => if p.etype = 1 then ofSigned 32 (max (toSigned 32 a) (toSigned 32 b)) else Fp.fmax a b)
    ∧ VecRuns .vecopMin .vMin (fun p a b _ => if p.etype = 1 then ofSigned 32 (min (toSigned 32 a) (toSigned 32 b)) else Fp.fmin a b))
  ∧ (VecRuns .vecopAnd .vAnd (fun _ a b _ => a &&& b)
    ∧ VecRuns .vecopOr .vOr (fun _ a b _ => a ||| b)
    ∧ VecRuns .vecopXor .vXor (fun _ a b _ => a ^^^ b)
    ∧ VecRuns .vecopShl .vShl (fun _ a b _ => a <<< (b % 32))
    ∧ VecRuns .vecopShra .vShra (fun _ a b _ => ofSigned 32 (toSigned 32 a >>> (b % 32)))
    ∧ VecRuns .vecopAbs .vAbs (fun p a _ _ =>
        if p.etype = 1 then (if a = 2 ^ 31 then (Config.intNegMin false).toNat else (toSigned 32 a).natAbs)
        else if Fp.isNan32 a then Fp.nan32 else a % 2 ^ 31)
    ∧ VecRuns .vecopNeg .vNeg (fun p a _ _ =>
        if p.etype = 1 then (if a = 2 ^ 31 then (Config.intNegMin true).toNat else ofSigned 32 (-toSigned 32 a))
        else if Fp.isNan32 a then Fp.nan32 else a ^^^ 2 ^ 31)
    ∧ VecRuns .vecopBroadcast .vBroadcast (fun p _ _ _ => if p.etype = 0 ∧ Fp.isNan32 p.scalar = true then Fp.nan32 else p.scalar)
    ∧ VecRuns .vecopCmpgt .vCmpgt (fun p a b _ =>
        if p.etype = 1 then (if toSigned 32 b < toSigned 32 a then 1 else 0) else if 0 < Fp.cmp (Fp.f32 a) (Fp.f32 b) then 1 else 0)
    ∧ VecRuns .vecopSelect .vSelect (fun p a b c =>
        let v := if c = 0 then a else b
        if p.etype = 0 ∧ Fp.isNan32 v = true then Fp.nan32 else v))

/-- R98, R99: every INT32 result of ADD, SUB and MUL that saturates is counted in INT_SAT and sets ARITH_STATUS.INT_SAT; every FP32 result of ADD that
is NaN is counted in NAN_OUT and sets NAN_OUT. -/
def Obligations.SaturationsAndNansAreCounted : Prop :=
  (∀ (s : State) (c : Nat) (h : Hdr) (p : VecopP) (us : List Upset) (cmd : Nat → Hdr → VecopP → List Upset → Instr) (op : VecOp) (f : Int → Int → Int),
      ((cmd = .vecopAdd ∧ op = .vAdd ∧ f = (· + ·)) ∨ (cmd = .vecopSub ∧ op = .vSub ∧ f = (· - ·)) ∨ (cmd = .vecopMul ∧ op = .vMul ∧ f = (· * ·))) →
      MemorySafe s → Accepted s (cmd c h p us) h (.vecop op p) → p.etype = 1 →
    Ends (cmd c h p us) s fun t =>
      let out := (List.range p.count).countP fun k =>
        let v := f (toSigned 32 (s.vget c p.srcA k)) (toSigned 32 (s.vget c p.srcB k))
        decide (v < -2147483648) || decide (2147483647 < v)
      Counted (Ctr.chIntSat c) out s t ∧ (0 < out → t.dev.rd (Reg.arithStatusIntSat c) = 1)
        ∧ (out = 0 → t.dev.rd (Reg.arithStatusIntSat c) = s.dev.rd (Reg.arithStatusIntSat c)))
  ∧ (∀ (s : State) (c : Nat) (h : Hdr) (p : VecopP) (us : List Upset), MemorySafe s → Accepted s (.vecopAdd c h p us) h (.vecop .vAdd p) → p.etype = 0 →
    Ends (.vecopAdd c h p us) s fun t =>
      let nans := (List.range p.count).countP fun k => Fp.isNan32 (Fp.fadd (s.vget c p.srcA k) (s.vget c p.srcB k))
      Counted (Ctr.chNanOut c) nans s t ∧ (0 < nans → t.dev.rd (Reg.arithStatusNanOut c) = 1))

/-- R89, R91: the reductions put their result into element 0 of DST_REG and leave the other elements; LOAD and STORE move 4-byte elements, the lowest
byte first. -/
def Obligations.VecopReductionsAndTransfers : Prop :=
  (∀ (s : State) (c : Nat) (h : Hdr) (p : VecopP) (us : List Upset), MemorySafe s → Accepted s (.vecopSumr c h p us) h (.vecop .vSumr p) →
    Ends (.vecopSumr c h p us) s fun t =>
      t.vget c p.dst 0 = (if p.etype = 1 then clamped (((List.range p.count).map fun k => toSigned 32 (s.vget c p.srcA k)).sum)
        else quiet (Fp.treeSum ((List.range p.count).map (s.vget c p.srcA)))) % 2 ^ 32
      ∧ (us = [] → Quiet s → Only (InRegister c p.dst 1) (arithFields c) (arithCounters c) s t))
  ∧ (∀ (s : State) (c : Nat) (h : Hdr) (p : VecopP) (us : List Upset), MemorySafe s → Accepted s (.vecopMaxr c h p us) h (.vecop .vMaxr p) →
    Ends (.vecopMaxr c h p us) s fun t =>
      (p.etype = 1 → (∃ k, k < p.count ∧ t.vget c p.dst 0 = s.vget c p.srcA k)
        ∧ ∀ k, k < p.count → toSigned 32 (s.vget c p.srcA k) ≤ toSigned 32 (t.vget c p.dst 0))
      ∧ Counted (Ctr.chVectorBusy c) (ceilDiv p.count 128 + 14) s t
      ∧ (us = [] → Quiet s → Only (InRegister c p.dst 1) (arithFields c) (arithCounters c) s t))
  ∧ (∀ (s : State) (c : Nat) (h : Hdr) (p : VecopP) (us : List Upset), MemorySafe s → Accepted s (.vecopMinr c h p us) h (.vecop .vMinr p) →
    Ends (.vecopMinr c h p us) s fun t =>
      (p.etype = 1 → (∃ k, k < p.count ∧ t.vget c p.dst 0 = s.vget c p.srcA k)
        ∧ ∀ k, k < p.count → toSigned 32 (t.vget c p.dst 0) ≤ toSigned 32 (s.vget c p.srcA k))
      ∧ Counted (Ctr.chVectorBusy c) (ceilDiv p.count 128 + 14) s t
      ∧ (us = [] → Quiet s → Only (InRegister c p.dst 1) (arithFields c) (arithCounters c) s t))
  ∧ (∀ (s : State) (c : Nat) (h : Hdr) (p : VecopP) (us : List Upset), MemorySafe s → Accepted s (.vecopLoad c h p us) h (.vecop .vLoad p) →
    Ends (.vecopLoad c h p us) s fun t =>
      (∀ k, k < p.count → t.vget c p.dst k = fieldAt ((s.upsets c h.index us).locRead c (locOf c p.addr) (4 * p.count)).1 (4 * k) 4)
      ∧ (us = [] → Quiet s → Only (InRegister c p.dst p.count) (arithFields c) (arithCounters c) s t))
  ∧ (∀ (s : State) (c : Nat) (h : Hdr) (p : VecopP) (us : List Upset), MemorySafe s → Accepted s (.vecopStore c h p us) h (.vecop .vStore p) →
      (bit p.addr 31 = true → us = [] ∧ Quiet s ∧ OnePlace s c p.addr (4 * p.count)) →
    Ends (.vecopStore c h p us) s fun t =>
      Holds t c p.addr ((List.range p.count).flatMap fun k => leBytes 4 (s.vget c p.srcA k))
      ∧ (us = [] → Quiet s → Only (InOperand s c p.addr (4 * p.count)) (arithFields c) (arithCounters c) s t))

/-- R92: each ACTIVATE applies its function to the first COUNT elements of SRC_REG. -/
def Obligations.ActivateFunctions : Prop :=
  ActRuns .activateRelu .relu 128 (fun _ a => Fp.relu a)
  ∧ ActRuns .activateClamp .clamp 128 (fun p a => Fp.clamp p.p0 p.p1 a)
  ∧ ActRuns .activateSign .sign 128 (fun _ a => Fp.sign a)
  ∧ ActRuns .activateGelu .gelu 64 (fun _ a => Fp.gelu a)
  ∧ ActRuns .activateSilu .silu 64 (fun _ a => Fp.silu a)
  ∧ ActRuns .activateSigmoid .sigmoid 64 (fun _ a => Fp.sigmoid a)
  ∧ ActRuns .activateTanh .tanh 64 (fun _ a => Fp.tanh a)
  ∧ ActRuns .activateExp .exp 64 (fun _ a => Fp.exp a)
  ∧ ActRuns .activateRecip .recip 64 (fun _ a => Fp.recip a)
  ∧ ActRuns .activateRsqrt .rsqrt 64 (fun _ a => Fp.rsqrt a)

/-- R84, R86, R87, R93: MATMUL writes C, and its scales for FP4, in the chamber's store; with INT8 operands and at most 32 columns each element of an INT32
C is the saturated exact sum of products. CONVERT saturates INT32 register elements to INT8 (R50: as many units of 4,096 elements as BUDGET holds, and at
least one; what is left of a SUMPABLE step becomes a sump entry that resumes at the first unconverted element). -/
def Obligations.MatmulAndConvert : Prop :=
  (∀ (s : State) (c : Nat) (h : Hdr) (p : MatmulP) (us : List Upset), MemorySafe s → Accepted s (.matmul c h p us) h (.matmul p) →
    Ends (.matmul c h p us) s fun t => Counted (Ctr.chMatrixBusy c) (matmulCycles p) s t
      ∧ Counted (Ctr.chResidueRetry c) (us.countP fun u => match u with | .tileBad _ _ => true | _ => false) s t
      ∧ (us = [] → Quiet s → Only (fun sp a => InStore c p.cAddr (p.m * rowBytes p.fmtOut p.n) sp a
            ∨ (p.fmtOut = 5 ∧ InStore c (32 * p.outScaleAddr) (p.m * ceilDiv p.n 32) sp a))
          (arithFields c) (arithCounters c ++ [Ctr.mtrMatrixOps h.tenant]) s t)
      ∧ (p.fmtA = 6 → p.fmtB = 6 → p.fmtOut = 9 → p.flags = 0 → p.k ≤ 32 → ∀ i j, i < p.m → j < p.n →
          let r := s.upsets c h.index us
          let a (x : Nat) : Int := toSigned 8 ((r.locRead c (locOf c p.aAddr) (p.m * p.k)).1.getD (i * p.k + x) 0).toNat
          let b (x : Nat) : Int := toSigned 8 ((r.locRead c (locOf c p.bAddr) (p.k * p.n)).1.getD (x * p.n + j) 0).toNat
          leNat (t.mem.read .store (c * 0x200000 + p.cAddr + 4 * (i * p.n + j)) 4) = clamped (((List.range p.k).map fun x => a x * b x).sum)))
  ∧ (∀ (s : State) (c : Nat) (h : Hdr) (p : ConvertP) (us : List Upset), MemorySafe s → Accepted s (.convert c h p us) h (.convert p) →
      (s.dev.stepCtx c h).resume = [] → 16 + 16 * ceilDiv p.count 4096 ≤ h.budget →
    Ends (.convert c h p us) s fun t =>
      Counted (Ctr.chVectorBusy c) (ceilDiv p.count 256 + 16) s t
      ∧ (us = [] → Quiet s → Only (fun sp a =>
            if bit p.flags 1 then InRegister c p.reg p.count sp a
            else InOperand s c p.dstAddr (flatBytes p.fmtDst p.count) sp a ∨ (p.fmtDst = 5 ∧ InOperand s c p.dstScale (ceilDiv p.count 32) sp a))
          (arithFields c) (arithCounters c) s t)
      ∧ (p.flags = 1 → p.fmtSrc = 9 → p.fmtDst = 6 → p.preScale = 0x3F800000 → bit p.dstAddr 31 = false → ∀ k, k < p.count →
          t.mem.get .store (c * 0x200000 + bits p.dstAddr 0 26 + k) =
            BitVec.ofNat 8 (ofSigned 8 (clampInt (-128) 127 (toSigned 32 (s.vget c p.reg k))))))
  ∧ (∀ (s : State) (c : Nat) (h : Hdr) (p : ConvertP) (us : List Upset), Accepted s (.convert c h p us) h (.convert p) → h.sumpable = true →
      (∀ f ∈ s.dev.seq.inflight, f.chamber ≠ c) → (s.dev.sumpOf c).length < 4096 → h.budget < 32 → 4096 < p.count →
    Ends (.convert c h p us) s fun t => Counted (Ctr.chVectorBusy c) 32 s t ∧ Counted (Ctr.chSumpIn c) 1 s t
      ∧ ∃ e ∈ t.dev.seq.sump, e.chamber = c ∧ e.step = ⟨h, .convert p⟩ ∧ e.origin = s.dev.epoch ∧ e.resume = [4096])

/-! ### Steps: lookup, scan and selection -/

/-- R134 to R138: BUILD sets one directory entry per table; SCORE writes one record per code; SAVE writes the table's image; LOAD sets the entry the
image describes; a SCORE without its table is abandoned with LOOKUP_NO_TABLE. -/
def Obligations.LookupSteps : Prop :=
  (∀ (s : State) (c : Nat) (h : Hdr) (p : BuildP) (us : List Upset), Accepted s (.lookupBuild c h p us) h (.build p) →
      let r := s.upsets c h.index us
      let b := (r.devRead (columnBase c + p.quantAddr) 64).1
      let q := quantParse b
      (quantField (columnBase c + p.quantAddr) b = none ∧ quantTest q p (words32 (r.devRead (columnBase c + q.scaleAddr) (4 * q.d)).1) = none →
        Ends (.lookupBuild c h p us) s fun t => Counted (Ctr.chTablesBuilt c) p.ntables s t ∧ t.dev.rd (Reg.ldeScalesId c) = q.quantId % 2 ^ 64
          ∧ ∀ i, i < p.ntables → ∃ e, t.dev.table c (p.tidFirst + i) = some e ∧ e.fmt = q.fmt ∧ e.metric = p.metric ∧ e.width = p.width
              ∧ e.first = p.pageFirst + i * tablePages q.t q.v p.width ∧ e.quantId = q.quantId)
      ∧ ((quantField (columnBase c + p.quantAddr) b).isSome = true →
        Ends (.lookupBuild c h p us) s fun t => Recorded .lookupBadQuant t ∧ ∀ i, i < p.ntables → t.dev.table c (p.tidFirst + i) = none))
  ∧ (∀ (s : State) (c : Nat) (h : Hdr) (p : ScoreP) (us : List Upset) (e : LutEntry), MemorySafe s → Accepted s (.lookupScore c h p us) h (.score p) →
      s.dev.table c p.tid = some e →
    Ends (.lookupScore c h p us) s fun t => Counted (Ctr.chLookups c) (p.count * e.t) s t ∧ Counted (Ctr.chRecordsOut c) p.count s t
      ∧ ∀ i, i < p.count →
          let r := s.upsets c h.index us
          let code := (((r.locRead c (locOf c p.codeAddr) (p.count * codeLen e.fmt e.t)).1.drop (i * codeLen e.fmt e.t)).take (codeLen e.fmt e.t))
          t.mem.read .store (c * 0x200000 + p.outAddr + 16 * i) 16
            = recordOf (fieldAt (r.locRead c (locOf c p.idAddr) (8 * p.count)).1 (8 * i) 8) (scoreOf e (lookCode r c e [] code).sum) 0 p.aux)
  ∧ (∀ (s : State) (c : Nat) (h : Hdr) (p : ScoreP) (us : List Upset), Accepted s (.lookupScore c h p us) h (.score p) → s.dev.table c p.tid = none →
    Ends (.lookupScore c h p us) s fun t => Recorded .lookupNoTable t ∧ t.dev.rd (Reg.ldeStatusNoTable c) = 1 ∧ (s.dev.stepCtx c h).cohort ∈ t.dev.seq.missing)
  ∧ (∀ (s : State) (c : Nat) (h : Hdr) (p : SaveP) (e : LutEntry), MemorySafe s → Quiet s → Accepted s (.lookupSave c h p []) h (.save p) →
      s.dev.table c p.tid = some e → p.imgAddr + 64 + e.bytes ≤ columnEnd → OnePlace s c (2 ^ 31 + p.imgAddr) (64 + e.bytes) →
    Ends (.lookupSave c h p []) s fun t =>
      let entries := s.mem.read .lut (lutAddr c (e.first * 4096)) e.bytes
      Holds t c (2 ^ 31 + p.imgAddr) (imageHead e ++ leBytes 4 (Crypto.check32c (columnBase c + p.imgAddr) (imageHead e ++ entries)) ++ entries)
      ∧ Only (InOperand s c (2 ^ 31 + p.imgAddr) (64 + e.bytes)) [] [] s t)
  ∧ (∀ (s : State) (c : Nat) (h : Hdr) (p : LoadP) (us : List Upset) (e : LutEntry), Accepted s (.lookupLoad c h p us) h (.load p) →
      let r := s.upsets c h.index us
      let a := columnBase c + p.imgAddr
      let head := (r.devRead a 64).1
      imageEntry head p.pageFirst = some e → fieldAt head 60 4 = Crypto.check32c a (head.take 60 ++ (r.devRead (a + 64) e.bytes).1) →
    Ends (.lookupLoad c h p us) s fun t => t.dev.table c p.tid = some e ∧ Counted (Ctr.chTableLoads c) 1 s t)

/-- R139, R141, R142: a SCAN of one probe over the side entries of its list, where nothing is amiss, writes one record for every visible side entry and one
run that names the probe, part 0xFFFF and the records. A probe list whose header is bad is reported and its step abandoned. -/
def Obligations.ScanWritesRecordsAndRuns : Prop :=
  (∀ (s : State) (c : Nat) (h : Hdr) (p : ScanP) (m : Probe) (e : LutEntry) (hd : ListHead) (dirty : Bool), MemorySafe s → Quiet s →
      Accepted s (.scan c h p []) h (.scan p) → (s.dev.stepCtx c h).resume = [] → p.probeFirst = 0 → p.parts = 2 →
      let x := s.dev.stepCtx c h
      let (hb, hbad) := s.devRead (columnBase c + p.probeAddr) 16
      fieldAt hb 0 4 = 1 → fieldAt hb 4 4 = 0 → p.probeAddr + 32 ≤ columnEnd → readProbes s x p hbad 0 1 none = .ok [m] → m.filtered = false →
      s.dev.table c m.tid = some e → e.fmt = p.fmt → e.metric = p.metric → s.readHead m.list = .ok (hd, dirty) → hd.tenant = m.tenant →
      0 < sideCount hd → sideCount hd ≤ p.recCap →
    Ends (.scan c h p []) s fun t =>
      let n := (sidePositions s hd (fieldAt hb 8 8)).countP (·.visible)
      Counted (Ctr.chRecordsOut c) n s t ∧ Counted (Ctr.chCodesScanned c) (sideCount hd) s t ∧ Counted (Ctr.chLookups c) (sideCount hd * e.t) s t
      ∧ t.mem.read .store (c * 0x200000 + p.runAddr) 16
          = leBytes 2 m.i ++ leBytes 2 0xFFFF ++ leBytes 4 0 ++ leBytes 4 n ++ leBytes 1 0 ++ leBytes 1 (boolNat m.widened) ++ leBytes 2 0
      ∧ SameBytesBut (fun sp a => InStore c p.recAddr (16 * n) sp a ∨ InStore c p.runAddr 16 sp a) s t)
  ∧ (∀ (s : State) (c : Nat) (h : Hdr) (p : ScanP) (us : List Upset), Accepted s (.scan c h p us) h (.scan p) →
      fieldAt ((s.upsets c h.index us).devRead (columnBase c + p.probeAddr) 16).1 4 4 ≠ 0 →
    Ends (.scan c h p us) s fun t => Recorded .lookupProbeBad t ∧ (s.dev.stepCtx c h).cohort ∈ t.dev.seq.missing)

/-- R152, R155, R157, R160 to R165: a SELECT writes a list of the first K candidates with distinct ids, led by one that no other precedes; over runs it
writes one list per query in ascending QORD, as many as BUDGET holds and at least one, and counts a continuation for the rest; a MERGE does the same over its present inputs.
The model's own readings here: log entry 14. -/
def Obligations.SelectAndMergeFormLists : Prop :=
  (∀ (s : State) (c : Nat) (h : Hdr) (p : SelectP) (us : List Upset), MemorySafe s → Accepted s (.selectRecords c h p us) h (.selectRecords p) →
      (s.dev.stepCtx c h).resume = [] → bit p.outAddr 31 = false →
    Ends (.selectRecords c h p us) s fun t =>
      let raw := ((s.upsets c h.index us).locRead c (locOf c p.inAddr) (16 * p.inCount)).1
      let recs := (List.range p.inCount).map fun i => recParse i false ((raw.drop (16 * i)).take 16)
      let cs := recs.filterMap Rec.toCand
      let out := t.mem.read .store (c * 0x200000 + bits p.outAddr 0 26) (32 + 16 * p.k)
      fieldAt out 0 4 = min p.k (distinctIds cs) ∧ fieldAt out 4 4 = p.k
      ∧ Counted (Ctr.chListsOut c) 1 s t ∧ Counted (Ctr.chCandidatesIn c) cs.length s t ∧ Counted (Ctr.chNanExcluded c) (recs.countP (· = .nan)) s t
      ∧ (cs ≠ [] → ∃ f ∈ cs, (∀ g ∈ cs, candBefore g f = false) ∧ fieldAt out 32 8 = f.id))
  ∧ (∀ (s : State) (c : Nat) (h : Hdr) (p : SelectP) (us : List Upset) (gs : List Group) (missed : Bool), MemorySafe s →
      Accepted s (.selectRuns c h p us) h (.selectRuns p) → (s.dev.stepCtx c h).resume = [] → bit p.outAddr 31 = false →
      let r := s.upsets c h.index us
      let probe := columnBase c + p.probeAddr
      takeRuns p (fieldAt (r.devRead probe 16).1 0 4) (fun i => r.devNat (probe + 20 + 16 * i) 2) (chunks 16 (r.locRead c (.store p.runAddr) (16 * p.runCount)).1)
        0 ([], false) = .ok (gs, missed) →
    Ends (.selectRuns c h p us) s fun t => ∃ n, n ≤ gs.length ∧ (0 < gs.length → 0 < n) ∧ Counted (Ctr.chListsOut c) n s t
      ∧ Counted (Ctr.chSelectContinuations c) (if n < gs.length then 1 else 0) s t
      ∧ ∀ q, q < n → fieldAt (t.mem.read .store (c * 0x200000 + bits p.outAddr 0 26 + q * (32 + 16 * p.k)) 32) 20 2 = (gs.getD q ⟨0, []⟩).qord % 65536)
  ∧ (∀ (s : State) (c : Nat) (h : Hdr) (p : MergeP) (us : List Upset), MemorySafe s → Accepted s (.merge c h p us) h (.merge p) →
      (s.dev.stepCtx c h).resume = [] → p.qcount = 1 → bit p.outAddr 31 = false →
      let r := s.upsets c h.index us
      let tab := (r.locRead c (.store p.tableAddr) (8 * p.nin)).1
      let es := (List.range p.nin).map fun i => (readEntry p (s.dev.stepCtx c h) ((tab.drop (8 * i)).take 8) i r).2
      let ins := es.filterMap fun e => match e with | .present i => some i | _ => none
      (ins.map (·.n)).sum ≤ p.scratchCap →
    Ends (.merge c h p us) s fun t =>
      let cs := ins.flatMap fun i => i.recs.filterMap Rec.toCand
      let out := t.mem.read .store (c * 0x200000 + bits p.outAddr 0 26) (32 + 16 * p.k)
      fieldAt out 0 4 = min p.k (distinctIds cs) ∧ fieldAt out 4 4 = p.k ∧ Counted (Ctr.chListsOut c) 1 s t
      ∧ Counted (Ctr.chInputsAbsent c) (p.nin - ins.length) s t)

/-- Log entry 11: a step command for a chamber that does not exist, or whose step the plan block would not accept (R47), is reported as PLAN_BAD_STEP and
does nothing else: the model's choice, since verification lets no such step reach a sequencer. -/
def Obligations.BadStepsAreReportedOnly : Prop :=
  ∀ (s : State) (i : Instr) (c : Nat) (h : Hdr) (p : Params), MemorySafe s → Quiet s → stepOf i = some (c, h, p) → ((256 ≤ c) ∨ stepOk ⟨h, p⟩ = false) →
    Ends i s fun t => Recorded .planBadStep t ∧ Only NoByte [] [] s t ∧ t.dev.seq = s.dev.seq ∧ t.dev.lutDir = s.dev.lutDir ∧ t.dev.fab = s.dev.fab

/-! ### Steps: rows, transfers, stacks, flash, checks, notes and the sump -/

/-- R209, R210, R214, R217, R218: GATHER FETCH and SPLIT of one index: the pad index reads zeros with status PAD and is not counted; an index outside the table
reads zeros with INVALID and is counted; a row at home is copied with FOUND. -/
def Obligations.GatherReadsOneRow : Prop :=
  ∀ (s : State) (c : Nat) (h : Hdr) (p : GatherP) (us : List Upset) (cmd : Nat → Hdr → GatherP → List Upset → Instr) (op : GatherOp) (tb : RowTable),
      ((cmd = .gatherFetch ∧ op = .fetch) ∨ (cmd = .gatherSplit ∧ op = .split)) → MemorySafe s → Accepted s (cmd c h p us) h (.gather op p) →
      (s.dev.stepCtx c h).resume = [] → p.count = 1 → p.mode = 0 → bit p.outAddr 31 = false → bit p.statusAddr 31 = false →
      let r := s.upsets c h.index us
      r.tableFor p.table h.tenant p.rowUnits = .ok tb →
      let v := leNat (r.locRead c (locOf c p.idxAddr) 8).1
      let snap := r.devNat (columnBase c + p.snapAddr) 8
      let row (t : State) : List Byte := t.mem.read .store (c * 0x200000 + bits p.outAddr 0 26) tb.rowBytes
      let status (t : State) : Byte := t.mem.get .store (c * 0x200000 + bits p.statusAddr 0 26)
      (v = padIndex → Ends (cmd c h p us) s fun t => status t = 1 ∧ row t = List.replicate tb.rowBytes 0 ∧ Counted Ctr.rowGatherIndices 0 s t)
      ∧ (v ≠ padIndex → localRow tb v = none → Ends (cmd c h p us) s fun t => status t = 2 ∧ row t = List.replicate tb.rowBytes 0
          ∧ Counted Ctr.rowGatherIndices 1 s t ∧ Counted (Ctr.tabInvalid p.table) 1 s t ∧ Counted (Ctr.rowTntInvalid h.tenant) 1 s t)
      ∧ (∀ a, rowRead r tb (minesOf r (s.dev.stepCtx c h).cohort) v (snap % 2 ^ 32) = (rsFound, some (.home a)) →
          Ends (cmd c h p us) s fun t => status t = 0 ∧ row t = (r.devRead a tb.rowBytes).1 ∧ Counted Ctr.rowGatherIndices 1 s t
            ∧ Counted Ctr.rowHomeReads 1 s t ∧ Counted (Ctr.tabReads p.table) 1 s t)

/-- R220, R222 to R224: SERVE forms the reply to a request that has come whole and is sound; FILL takes the batch a sound reply answers off the list; SCATTER puts
a row into a free spill row and stages it for its commit epoch.
The model's own readings here: log entry 59. -/
def Obligations.ServeFillAndScatter : Prop :=
  (∀ (s : State) (c : Nat) (h : Hdr) (p : GatherP) (us : List Upset) (tb : RowTable) (m : SiphonIn), MemorySafe s →
      Accepted s (.gatherServe c h p us) h (.gather .serve p) →
      let r := s.upsets c h.index us
      r.tableFor p.table h.tenant p.rowUnits = .ok tb → r.inboxAt c p.idxAddr = some m →
      let b := (r.locRead c (locOf c p.idxAddr) 32).1
      let n := fieldAt b 4 2
      let body := (r.locRead c ((locOf c p.idxAddr).plus 32) (8 * n)).1
      (m.complete = true → batchField 1 p.table p.rowUnits m.seq b body = none → bit p.outAddr 31 = false →
          bits p.outAddr 0 26 + 32 + roundUp n 64 + n * tb.rowBytes ≤ 0x4000000 →
        Ends (.gatherServe c h p us) s fun t => (c, p.outAddr) ∉ t.dev.rows.noReply
          ∧ t.mem.read .store (c * 0x200000 + bits p.outAddr 0 26) 6 = leBytes 1 2 ++ leBytes 1 p.table ++ leBytes 1 (fieldAt b 2 1) ++ [0] ++ leBytes 2 n)
      ∧ (m.complete = false → Ends (.gatherServe c h p us) s fun t => (c, p.outAddr) ∈ t.dev.rows.noReply ∧ t.mem.get .store = r.mem.get .store))
  ∧ (∀ (s : State) (c : Nat) (h : Hdr) (p : GatherP) (us : List Upset) (tb : RowTable) (m : SiphonIn) (q : SplitBatch), MemorySafe s →
      Accepted s (.gatherFill c h p us) h (.gather .fill p) →
      let r := s.upsets c h.index us
      let box := locOf c (2 ^ 31 + p.boxAddr)
      let b := (r.locRead c box 32).1
      let n := fieldAt b 4 2
      let body := (r.locRead c (box.plus 32) (roundUp n 64 + n * tb.rowBytes)).1
      r.tableFor p.table h.tenant p.rowUnits = .ok tb → r.inboxAt c (2 ^ 31 + p.boxAddr) = some m → m.complete = true →
      gatherCost p.count 0 (p.count * (tb.rowBytes + 1)) tb.rowBytes ≤ h.budget →
      batchField 2 p.table p.rowUnits m.seq b body = none → q ∈ r.dev.rows.splits → q.chamber = c → q.table = p.table → q.idxAddr = p.idxAddr →
      q.outAddr = p.outAddr → q.statusAddr = p.statusAddr → q.owner = m.peer → q.round = fieldAt b 2 1 → n = q.indices.length →
      (∀ q' ∈ r.dev.rows.splits, q'.chamber = c → q'.table = p.table → q'.idxAddr = p.idxAddr → q'.owner = m.peer → q'.round = q.round → q' = q) →
    Ends (.gatherFill c h p us) s fun t => q ∉ t.dev.rows.splits
      ∧ Counted Ctr.rowSiphonLostRows ((List.range n).countP fun k => body.getD k 0 = 7) s t
      ∧ Counted Ctr.rowRowsLate ((List.range n).countP fun k => body.getD k 0 = 4) s t)
  ∧ (∀ (s : State) (c : Nat) (h : Hdr) (p : ScatterP) (tb : RowTable) (row k : Nat), MemorySafe s → Quiet s → Accepted s (.scatter c h p []) h (.scatter p) →
      s.tableFor p.table h.tenant p.rowUnits = .ok tb → tb.mutable' = true → p.count = 1 →
      let v := leNat (s.locRead c (locOf c p.idxAddr) 8).1
      let commit := ((s.dev.stepCtx c h).cohort + 2) % 2 ^ 32
      v ≠ padIndex → localRow tb v = some (row, none) → (∀ e ∈ s.dev.rows.staged, ¬ (e.table = tb.t ∧ e.row = row ∧ e.commit = commit)) →
      (s.bucketEntries tb (rowBucket row tb.rdrLog)).countP (·.used)
        + (s.dev.rows.staged.countP fun e => e.table = tb.t && rowBucket e.row tb.rdrLog = rowBucket row tb.rdrLog) < 8 →
      State.inTier (State.redirectAddr tb (rowBucket row tb.rdrLog) 0) 128 = true → s.dev.freeSpill tb = some k →
      State.inTier (State.spillAddr tb k) tb.rowBytes = true → PlainAt s (State.spillAddr tb k) tb.rowBytes →
    Ends (.scatter c h p []) s fun t => HoldsAt t (State.spillAddr tb k) (s.locRead c (locOf c p.srcAddr) tb.rowBytes).1
      ∧ t.dev.rows.spills = s.dev.rows.spills ++ [(tb.t, k)] ∧ Counted Ctr.rowScatterRows 1 s t
      ∧ ∃ e, t.dev.rows.staged = s.dev.rows.staged ++ [e] ∧ e.row = row ∧ e.spill = k ∧ e.commit = commit)

/-- R339 to R342: a SEND forms one frame for every 8,192 bytes, each with the next SEQUENCE of its peer; a RECV stands open and takes what waited for it; a message
that is whole ends its RECV with the bytes and a status in the result.
The model's own readings here: log entry 76. -/
def Obligations.TransfersBetweenChambers : Prop :=
  (∀ (s : State) (c : Nat) (h : Hdr) (p : SendP) (us : List Upset), Accepted s (.send c h p us) h (.send p) →
      (p.kind = tySiphon → (c, p.srcAddr) ∉ s.dev.rows.noReply) → (p.kind = tyPlan → p.peer ≠ galleryPeer → (s.dev.stepCtx c h).cohort ∉ s.dev.seq.missing) →
    Ends (.send c h p us) s fun t => Counted Ctr.fabTransfersSent 1 s t
      ∧ (p.peer ≠ galleryPeer → s.dev.on (Reg.peerCfgValid p.peer) = true →
          (t.dev.peerSeq p.peer).planOut = (s.dev.peerSeq p.peer).planOut + ceilDiv p.length 8192
          ∧ (t.dev.peerSeq p.peer).msgOut = (s.dev.peerSeq p.peer).msgOut + 1))
  ∧ (∀ (s : State) (c : Nat) (h : Hdr) (p : RecvP) (us : List Upset), Accepted s (.recv c h p us) h (.recv p) →
    Ends (.recv c h p us) s fun t =>
      (∃ q, t.recvSt c h.index = some q ∧ q.p = p ∧ q.completed = false ∧ q.deadline = h.deadline)
      ∧ (∀ f ∈ t.dev.fab.landing, ¬ (f.chamber = c ∧ f.peer = p.peer ∧ f.srcChamber = p.srcChamber ∧ f.tag = p.tag ∧ f.epoch = s.dev.epoch)))
  ∧ (∀ (s : State) (c idx : Nat) (cohort : Bool) (q : RecvSt) (n : Nat), MemorySafe s → c < 256 → s.recvSt c idx = some q → q.completed = false → q.lost = false →
      q.total = some n → coveredBytes q.got = n → q.p.entryAddr = 0 → q.p.resultAddr + 16 ≤ 0x200000 →
    Ends (.recvComplete c ⟨idx, cohort⟩) s fun t => t.recvSt c idx = some { q with completed := true }
      ∧ t.mem.read .store (c * 0x200000 + q.p.resultAddr) 16 = leBytes 4 n ++ leBytes 1 (if q.poison then 2 else 0) ++ List.replicate 11 0
      ∧ Counted Ctr.fabTransfersReceived 1 s t ∧ (Quiet s → SameBytesBut (InStore c q.p.resultAddr 16) s t))

/-- R270, R271, R274 to R279: a RUN that is sound joins its stack's queue, a held one joins it when there is room; a chunk is counted with its groups; a SEAL takes
the PIM stripes of its range to SEALING and a written one to OUTER; refreshes are issued or postponed; a temperature is shown; a mode write waits for the cairn.
The model's own readings here: log entries 68, 69. -/
def Obligations.StackPrograms : Prop :=
  (∀ (s : State) (c : Nat) (h : Hdr) (p : PimRunP) (us : List Upset), Accepted s (.pimRun c h p us) h (.pimRun p) → s.dev.running = true →
      s.dev.runWaits c h p = false → (s.dev.stepCtx c h).resume = [] →
      let r := s.upsets c h.index us
      let (prog, poison) := r.devRead (columnBase c + p.progAddr) 1024
      let rows := [p.row0, p.row1, p.row2, p.row3]
      r.dev.on (Reg.stkCtrlPimEn p.stack) = true → programBad (columnBase c + p.progAddr) prog poison = none →
      (∀ k ∈ pimOperands prog, pimEnd prog rows p.count k ≤ 0x6000000) → modeBad r.dev p.stack prog rows p.count = none →
      (r.dev.pim.queue.filter (·.stack = p.stack)).length < 16 → s.dev.pim.held.any (·.stack = p.stack) = false →
    Ends (.pimRun c h p us) s fun t => Counted (Ctr.stkPimPrograms p.stack) 1 s t
      ∧ (∃ q, t.dev.pim.queue = s.dev.pim.queue ++ [q] ∧ q.chamber = c ∧ q.idx = h.index ∧ q.stack = p.stack ∧ q.prog = prog ∧ q.until' = runNow r.dev h p prog p.count)
      ∧ t.dev.rd (Reg.stkQueueDepth p.stack) = (s.dev.pim.queue.filter (·.stack = p.stack)).length + 1)
  ∧ (∀ (s : State) (st : Nat) (q : PimRun), st < 12 → s.dev.running = true → s.dev.pim.held.find? (·.stack = st) = some q → (s.dev.pim.queue.filter (·.stack = st)).length < 16 →
    Ends (.pimQueueAdmit st) s fun t => t.dev.pim.queue = s.dev.pim.queue ++ [q] ∧ t.dev.pim.held = s.dev.pim.held.erase q
      ∧ Counted (Ctr.stkPimPrograms st) 1 s t)
  ∧ (∀ (s : State) (st die groups idle rate : Nat) (q : PimRun), st < 12 → die < 16 → s.dev.running = true →
      s.dev.dieRun st die = some q → s.dev.pim.chunks.find? (·.1 = st * 16 + die) = some (st * 16 + die, rate) →
      let n := min groups (min (chunkGroups q.prog rate) (q.until' - assocD q.until' die q.next))
      0 < n →
    Ends (.pimChunkEnd st die groups idle []) s fun t => Counted (Ctr.stkPimChunks st) 1 s t
      ∧ Counted (Ctr.stkPimGroups st) (n * ((List.range 32).filter (bit q.pairMask ·)).length) s t ∧ t.dev.postponed st die = 0)
  ∧ (∀ (s : State) (c : Nat) (h : Hdr) (p : PimSealP) (k : Nat), Accepted s (.pimSeal c h p []) h (.pimSeal p) → s.dev.running = true →
      (s.dev.stepCtx c h).resume = [] → (unitsNow h 64 2048 p.rowCount = p.rowCount ∨ (h.sumpable = true ∧ (s.dev.sumpOf c).length < 4096)) → s.dev.on (Reg.stkCtrlPimEn p.stack) = true → p.rowFirst ≤ k → k < p.rowFirst + p.rowCount →
      s.dev.stripeMode p.stack k = 1 → (∀ i, i < 16384 → s.devPoison (0x1000000000 + p.stack * 0xC00000000 + k * 0x100000 + 64 * i) 64 = false) →
    Ends (.pimSeal c h p []) s fun t => t.dev.stripeMode p.stack k = 2 ∧ ∃ m ∈ t.dev.pim.seals, m.stack = p.stack ∧ m.stripe = k
      ∧ m.written = if k < p.rowFirst + unitsNow h 64 2048 p.rowCount then some s.dev.epoch else none)
  ∧ (∀ (s : State) (st k w : Nat) (m : SealMark), st < 12 → k < 49152 → s.dev.epc.inCairn = true → m ∈ s.dev.pim.seals → m.stack = st →
      m.stripe = k → m.written = some w → w < s.dev.epoch →
    Ends (.sealStripeComplete st k) s fun t => t.dev.stripeMode st k = 0 ∧ Counted (Ctr.stkSealStripes st) 1 s t)
  ∧ (∀ (s : State) (st die : Nat), st < 12 → die < 16 →
    Ends (.stackRefreshDue st die false) s (fun t => Counted (Ctr.stkRefreshes st) 1 s t ∧ t.dev.regs = s.dev.regs)
    ∧ (s.dev.pim.chunks.any (·.1 = st * 16 + die) = true → s.dev.postponed st die < 8 →
        Ends (.stackRefreshDue st die true) s fun t => t.dev.postponed st die = s.dev.postponed st die + 1 ∧ Counted (Ctr.stkRefreshesPostponed st) 1 s t))
  ∧ (∀ (s : State) (st die : Nat) (temp : Int), st < 12 → die < 16 → -128 ≤ temp → temp < 128 →
    Ends (.dieTempSample st die temp) s fun t => t.dev.dieTemp st die = temp ∧ s.dev.dieRate st die ≤ t.dev.dieRate st die
      ∧ ((s.dev.val (Reg.stkThermalHaltC st) : Int) < temp → st * 16 + die ∉ s.dev.pim.halted →
          st * 16 + die ∈ t.dev.pim.halted ∧ Counted (Ctr.stkThermalHalts st) 1 s t ∧ Recorded .pimThermalHalt t))
  ∧ (∀ (s : State) (st j v : Nat), st < 12 → j < 3072 → v < 2 ^ 32 →
    Ends (.stkModeWrite st j v) s fun t =>
      (∀ i, i < 16 → bits v (2 * i) 2 = 1 → s.dev.stripeMode st (16 * j + i) = 0 → bits (t.dev.rd (Reg.stkMode st j)) (2 * i) 2 = 1)
      ∧ (∀ i, i < 16 → t.dev.stripeMode st (16 * j + i) = s.dev.stripeMode st (16 * j + i))
      ∧ ((∃ i, i < 16 ∧ bits v (2 * i) 2 ≠ s.dev.stripeMode st (16 * j + i) ∧ ¬ (bits v (2 * i) 2 = 1 ∧ s.dev.stripeMode st (16 * j + i) = 0)) →
          t.dev.rd (Reg.stkStatusModeReject st) = 1)
      ∧ SameRegsBut [Reg.stkMode st j, Reg.stkStatusModeReject st] s t)

/-- R300, R307 to R310: a FLASHREAD whose extents are sound queues one read for each, a FLASHWRITE one program for each page; reads past their DEADLINE slot are late;
a read, a program and an erase that complete leave their queue and are counted.
The model's own readings here: log entries 17, 71. -/
def Obligations.FlashStepsAndCompletions : Prop :=
  (∀ (s : State) (c : Nat) (h : Hdr) (p : FlashReadP) (us : List Upset), Accepted s (.flashread c h p us) h (.flashRead p) → (s.dev.stepCtx c h).resume = [] →
      let r := s.upsets c h.index us
      let es := (chunks 16 (r.locRead c (locOf c p.listAddr) (16 * p.count)).1).map extentParse
      (∀ e ∈ es, extentStatus r h.tenant p.dstCap e = 0) →
      let n := min p.count (State.fitCount (ceilDiv p.count 16 + 32) h.budget (es.map fun e => ceilDiv e.len 512))
    Ends (.flashread c h p us) s fun t => ∃ rs, t.dev.fls.reads = s.dev.fls.reads ++ rs ∧ rs.map (fun q => (q.lbn, q.off, q.len)) = (es.take n).map (fun e => (e.lbn, e.off, e.len))
      ∧ ∀ q ∈ rs, q.chamber = c ∧ q.idx = h.index ∧ q.late = false)
  ∧ (∀ (s : State) (c : Nat) (h : Hdr) (p : FlashWriteP) (us : List Upset), Accepted s (.flashwrite c h p us) h (.flashWrite p) → (s.dev.stepCtx c h).resume = [] → p.page + p.pages ≤ s.dev.lbPages → writeReason (s.upsets c h.index us) h.tenant p = none →
    Ends (.flashwrite c h p us) s fun t => ∃ qs, t.dev.fls.progs = s.dev.fls.progs ++ qs ∧ qs.map (·.page) = (List.range (unitsNow h 32 32 p.pages)).map (p.page + ·)
      ∧ ∀ q ∈ qs, q.lbn = p.lbn ∧ q.chamber = c)
  ∧ (∀ (s : State) (c idx : Nat), Ends (.flashreadDeadline c idx) s fun t => t.dev.fls.reads.length = s.dev.fls.reads.length
      ∧ (∀ q ∈ t.dev.fls.reads, q.chamber = c → q.idx = idx → q.deadline = true → q.late = true)
      ∧ Counted Ctr.rowRowsLate (s.dev.fls.reads.countP fun q => q.chamber = c && q.idx = idx && q.deadline && !q.late && q.row) s t)
  ∧ (∀ (s : State) (k : Nat) (cws : List Codeword) (q : FlashRead), s.dev.fls.reads[k]? = some q →
      (∀ g ∈ s.dev.fls.progs, g.lbn ≠ q.lbn) → 0 < q.len →
    Ends (.flashReadComplete k cws) s fun t => t.dev.fls.reads = s.dev.fls.reads.eraseIdx k
      ∧ Counted Ctr.flsCodewordsRead ((q.off + q.len - 1) / 4096 + 1 - q.off / 4096) s t)
  ∧ (∀ (s u : State) (k : Nat) (ok : Bool) (q : FlashProg), s.dev.fls.progs[k]? = some q → (∀ g ∈ s.dev.fls.progs, g.before q = false) →
      s.writePage q.lbn q.page q.data q.poison ok = some u →
    Ends (.flashProgramComplete k ok) s fun t => t.dev.fls.progs = s.dev.fls.progs.eraseIdx k ∧ Counted Ctr.flsPlanBytesWritten 16384 s t)
  ∧ (∀ (s : State) (ch pb : Nat), ch < 32 → pb < 2 ^ 20 → (ch, pb) ∈ s.dev.fls.erases →
      (s.dev.on Reg.flsCtrlBgEn = true ∨ (s.blocksIn ch bFree).length < s.dev.val Reg.flsGcGcLow) →
    Ends (.flashEraseComplete ch pb true) s fun t => t.dev.fls.erases = s.dev.fls.erases.erase (ch, pb) ∧ Counted Ctr.flsBlocksErased 1 s t
      ∧ assocD 0 (ch * 2 ^ 20 + pb) t.dev.fls.pbt = pbeEncode ⟨(s.pbe ch pb).erased + 1,
          if (s.pbe ch pb).state = bSlcBuffer ∨ (s.pbe ch pb).state = bLog then bSlcFree else bFree, 0, 0⟩)

/-- R293 to R301, R305: the background moves. A fold, a merge, a collection, a relocation or a wear move that finds its block rebuilds the logical block and is counted; a
checkpoint takes the journal in; none starts while the input has not recovered from a VIN trip or before
the map stands.
The model's own readings here: log entry 62. -/
def Obligations.FlashBackgroundMoves : Prop :=
  (∀ (s : State) (lbn fails : Nat) (bad : List (Nat × Nat)) (b : BufSet), s.dev.aon.vinAt = none → s.dev.flag Reg.flsStatusReady = true → s.setOf lbn = some b → s.dev.lbPages ≤ b.written →
      s.dev.on Reg.flsCtrlBgEn = true → s.readOnly (chanOf lbn) = false → s.offline (chanOf lbn) = false →
      (s.buildNative lbn false 6 (bad.filter fun x => x.1 < b.written) fails).isSome = true →
    Ends (.fold lbn fails bad) s fun t => t.setOf lbn = none ∧ Counted Ctr.flsFolds 1 s t)
  ∧ (∀ (s : State) (lbn fails : Nat) (bad : List (Nat × Nat)) (l : LogBlock), s.dev.aon.vinAt = none → s.dev.flag Reg.flsStatusReady = true → s.logOf lbn = some l → s.dev.slcPages ≤ l.pages.length →
      s.dev.on Reg.flsCtrlBgEn = true → s.readOnly (chanOf lbn) = false → s.offline (chanOf lbn) = false →
      (s.buildNative lbn false (s.mergeClass (chanOf lbn)) bad fails).isSome = true →
    Ends (.logMerge lbn fails bad) s fun t => t.logOf lbn = none ∧ t.setOf lbn = none ∧ Counted Ctr.flsLogMerges 1 s t)
  ∧ (∀ (s : State) (ch fails : Nat) (bad : List (Nat × Nat)) (l : LogBlock), s.dev.aon.vinAt = none → s.dev.flag Reg.flsStatusReady = true → (s.blocksIn ch bFree).length < s.dev.val Reg.flsGcGcLow →
      s.dev.on Reg.flsCtrlBgEn = true → s.readOnly ch = false → s.offline ch = false → s.victim ch = some l → (s.buildNative l.lbn false (s.mergeClass ch) bad fails).isSome = true →
    Ends (.gcMerge ch fails bad) s fun t => t.logOf l.lbn = none ∧ Counted Ctr.flsGcMerges 1 s t)
  ∧ (∀ (s : State) (lbn fails : Nat) (bad : List (Nat × Nat)), s.dev.aon.vinAt = none → s.dev.flag Reg.flsStatusReady = true → lbn ∈ s.dev.fls.relocate → s.dev.on Reg.flsCtrlBgEn = true →
      s.offline (chanOf lbn) = false → (s.mapEntry lbn).kind ≠ kUnmapped → (s.buildNative lbn false 8 bad fails).isSome = true →
    Ends (.relocation lbn fails bad) s fun t => lbn ∉ t.dev.fls.relocate ∧ Counted Ctr.flsRelocations 1 s t)
  ∧ (∀ s : State, s.dev.aon.vinAt = none → s.dev.flag Reg.flsStatusReady = true →
    Ends .mapCheckpoint s fun t => t.dev.fls.journal = [] ∧ t.dev.fls.ckptEpoch = s.dev.epoch
      ∧ t.dev.fls.ckpt = s.dev.fls.journal.foldl (fun m x => assocPut x.1 x.2 m) s.dev.fls.ckpt)
  ∧ (∀ (s : State) (ch pb : Nat), s.dev.aon.vinAt = none → s.dev.flag Reg.flsStatusReady = true → ch < 32 → (∀ k, k < 32 → k ≠ ch → s.offline k = true) → s.offline ch = false →
      s.dev.on Reg.flsCtrlBgEn = true →
      let ecs := (s.blocksIn ch bFree ++ s.blocksIn ch bData).map fun b => (s.pbe ch b).erased
      s.dev.val Reg.flsWearWearSpread < ecs.foldl max 0 - ecs.foldl min (ecs.headD 0) →
      s.pickBlock ch false ((s.blocksIn ch bData).filter fun b =>
        let e := s.mapEntry (s.pbe ch b).lbn
        e.kind = kData && e.pblock = b && !e.log) = some pb → chanOf (s.pbe ch pb).lbn = ch →
      (s.buildNative (s.pbe ch pb).lbn true 9 [] 0).isSome = true →
    Ends .wearCheck s fun t => Counted Ctr.flsWearMoves 1 s t)
  ∧ (∀ (s : State) (c : Instr), (s.dev.aon.vinAt.isSome = true ∨ s.dev.flag Reg.flsStatusReady = false) →
      ((∃ lbn fails bad, c = .fold lbn fails bad ∨ c = .logMerge lbn fails bad ∨ c = .relocation lbn fails bad ∨ c = .gcMerge lbn fails bad) ∨ c = .mapCheckpoint ∨ c = .wearCheck) →
    Ends c s fun t => t = s.settle)

/-- R318, R323, R324, R118: CHECK RANGE computes the check value of its bytes folded with their address, CHECK TAPVAL reads the newest entry of its tap and tag, and
CHECK WEIGHT tests the block; each writes value, status and reason at RESULT_ADDR and is counted.
The model's own readings here: log entry 15. -/
def Obligations.ChecksWriteTheirResult : Prop :=
  (∀ (s : State) (c : Nat) (h : Hdr) (p : CheckRangeP) (us : List Upset), MemorySafe s → Accepted s (.checkRange c h p us) h (.checkRange p) → 32 + 256 * ceilDiv p.length 65536 ≤ h.budget →
      (s.dev.stepCtx c h).resume = [] → p.fromTap = 0 → bit p.resultAddr 31 = false →
    Ends (.checkRange c h p us) s fun t =>
      let r := s.upsets c h.index us
      let bs := r.devRead p.addr p.length
      let value := Crypto.check (Crypto.crcOf p.poly) p.addr bs.1
      let want := r.locRead c (locOf c p.expectAddr) ((Crypto.crcOf p.poly).width / 8)
      let status := if bs.2 || want.2 then 2 else if value = leNat want.1 then 0 else 1
      t.mem.read .store (c * 0x200000 + bits p.resultAddr 0 26) 16 = leBytes 8 value ++ leBytes 1 status ++ List.replicate 7 0
      ∧ Counted Ctr.cvuCheckSteps 1 s t ∧ Counted Ctr.cvuCheckFails (if status = 0 then 0 else 1) s t)
  ∧ (∀ (s : State) (c : Nat) (h : Hdr) (p : CheckTapvalP) (us : List Upset), MemorySafe s → Accepted s (.checkTapval c h p us) h (.checkTapval p) →
      bit p.resultAddr 31 = false →
    Ends (.checkTapval c h p us) s fun t =>
      let r := s.upsets c h.index us
      let out := t.mem.read .store (c * 0x200000 + bits p.resultAddr 0 26) 16
      Counted Ctr.cvuCheckSteps 1 s t
      ∧ (r.dev.tapEntry p.tap p.poly p.tag = none → fieldAt out 0 8 = 0 ∧ fieldAt out 8 1 = 4)
      ∧ (r.dev.tapEntry p.tap p.poly p.tag = some none → fieldAt out 0 8 = 0 ∧ fieldAt out 8 1 = 3)
      ∧ ∀ e, r.dev.tapEntry p.tap p.poly p.tag = some (some e) → fieldAt out 0 8 = e.value % 2 ^ 64)
  ∧ (∀ (s : State) (c : Nat) (h : Hdr) (p : CheckWeightP) (us : List Upset), MemorySafe s → Accepted s (.checkWeight c h p us) h (.checkWeight p) →
      bit p.resultAddr 31 = false →
    Ends (.checkWeight c h p us) s fun t =>
      let r := s.upsets c h.index us
      let w : WeightHdr := ⟨p.fmtW, p.fmtF, p.rows, p.cols, p.rank⟩
      let idx := ((List.range w.uSlices).filter fun i => p.uFirst ≤ i && decide (i < p.uFirst + p.uCount))
        ++ (if p.vAll = 1 then (List.range w.vSlices).map (w.uSlices + ·) else [])
      let reason := (r.weightTest p.addr w p.byteLength idx).1
      let out := t.mem.read .store (c * 0x200000 + bits p.resultAddr 0 26) 16
      fieldAt out 8 1 = (if reason = 0 then 0 else if reason = 7 then 2 else 1) ∧ fieldAt out 9 1 = reason
      ∧ Counted (Ctr.chWeightChecks c) 1 s t ∧ Counted (Ctr.chWeightFailed c) (if reason = 0 then 0 else 1) s t)

/-- R56, R57, R58: a BARRIER-FREE NOTE is in force from its command on; a SUMP step on an empty sump is done at once, and on one whose head fits before its last slot
takes the head out to run it. -/
def Obligations.NotesAndSumpSteps : Prop :=
  (∀ (s : State) (c : Nat) (h : Hdr) (p : NoteP) (us : List Upset), Accepted s (.barrierFreeNote c h p us) h (.note p) →
    Ends (.barrierFreeNote c h p us) s fun t => t.dev.seq.notes = s.dev.seq.notes ++ [⟨c, h.slot, p.span, p.kinds, p.currentPct⟩])
  ∧ (∀ (s : State) (c : Nat) (h : Hdr) (p : SumpP) (us : List Upset), Accepted s (.sump c h p us) h (.sump p) → (∀ f ∈ s.dev.seq.inflight, f.chamber ≠ c) →
      s.dev.sumpOf c = [] →
    Ends (.sump c h p us) s fun t => t.dev.sumpOf c = [] ∧ ∃ f ∈ t.dev.seq.inflight, f.chamber = c ∧ f.step = ⟨h, .sump p⟩ ∧ f.executed = true)
  ∧ (∀ (s : State) (c : Nat) (h : Hdr) (p : SumpP) (us : List Upset) (e : SumpEntry) (rest : List SumpEntry), Accepted s (.sump c h p us) h (.sump p) → s.dev.seq.inflight = [] →
      s.dev.sumpOf c = e :: rest → e.step.hdr.depends = 0xFFFF →
      e.step.hdr.budget ≤ s.dev.cyclesTo s.dev.now ((s.upsets c h.index us).slotEnd (h.slot + p.maxSlots - 1)) →
    Ends (.sump c h p us) s fun t => t.dev.sumpOf c = rest ∧ Counted (Ctr.chSumpOut c) 1 s t
      ∧ ∃ f ∈ t.dev.seq.inflight, f.chamber = c ∧ f.step = e.step ∧ f.origin = e.origin ∧ f.issued = true)

/-! ### Lantern's upkeep: the index, row tables, homes, scrub and repair -/

/-- R191, R192, R195: at a cairn the cohorts whose snapshot lies more than 16 epochs back leave the block; a foldable overlay entry sets its tombstone bit; a previous version
is freed at its FREE_AT; SIDE_START moves to MERGE_END.
The model's own readings here: log entry 31. -/
def Obligations.TheIndexAges : Prop :=
  (∀ s : State, Ends .cohortAgeOut s fun t =>
      (∀ e ∈ s.dev.liveCohorts, e + 18 < s.dev.epoch → e ∈ t.dev.seq.missing ∧ (∀ k ∈ t.dev.ingress.cohorts, k.epoch ≠ e)
        ∧ (∀ f ∈ t.dev.seq.inflight, cohortOf f.origin f.step.hdr.stage ≠ e) ∧ ∀ f ∈ t.dev.seq.sump, cohortOf f.origin f.step.hdr.stage ≠ e)
      ∧ Counted Ctr.idxCohortsAgedOut (s.dev.liveCohorts.countP fun e => decide (e + 18 < s.dev.epoch)) s t
      ∧ ((∀ e ∈ s.dev.liveCohorts, s.dev.epoch ≤ e + 18) → t = s.settle))
  ∧ (∀ (s : State) (list k : Nat) (o : Overlay), MemorySafe s → Quiet s → (s.overlays (s.headOf list))[k]? = some o →
      (list, o.slot, o.ord, o.ver, o.commit) ∉ s.dev.idx.folded → wrapLe o.commit (wrapSub (s.dev.epoch % 2 ^ 32) 16) = true →
    Ends (.overlayEntryFoldable list k) s fun t => t.dev.idx.folded = s.dev.idx.folded ++ [(list, o.slot, o.ord, o.ver, o.commit)]
      ∧ (∀ g, s.overlayTarget (s.headOf list) o = some g → State.inTier (s.tombAddr g + o.slot / 8) 1 = true →
          PlainAt s (s.tombAddr g + o.slot / 8) 1 → bit (leNat (t.devRead (s.tombAddr g + o.slot / 8) 1).1) (o.slot % 8) = true ∧ Counted Ctr.idxTombstonesSet 1 s t
          ∧ SameBytesBut (fun sp a => sp = .dram ∧ a = s.xlate (s.tombAddr g + o.slot / 8)) s t)
      ∧ (s.overlayTarget (s.headOf list) o = none → SameBytes s t ∧ t.dev.ctr = s.dev.ctr))
  ∧ (∀ (s : State) (list ord : Nat), MemorySafe s → Quiet s → s.dev.epc.inCairn = true → ord < (s.headOf list).ords →
      (s.headOf list).tenant < 64 →
      let h := s.headOf list
      let d := s.segDesc h ord
      d.prevValid = true → d.freeAt = s.dev.epoch % 2 ^ 32 → State.inTier (s.segDescAddr h ord) 32 = true → PlainAt s (s.segDescAddr h ord) 32 →
    Ends (.prevVersionFree list ord) s fun t => t.segDesc h ord = { d with prevValid := false } ∧ t.dev.idx.freeSegs = s.dev.idx.freeSegs ++ [d.prevNum]
      ∧ t.dev.usedOf h.tenant 1 = s.dev.usedOf h.tenant 1 - s.segCharge ∧ Counted Ctr.idxSegmentsFreed 1 s t)
  ∧ (∀ (s : State) (list : Nat), MemorySafe s → Quiet s → s.dev.epc.inCairn = true → (s.headOf list).list = list →
      let h := s.headOf list
      (h.mergeAt + 16) % 2 ^ 32 = s.dev.epoch % 2 ^ 32 → sideCount h ≠ 0 → wrapLt h.sideStart h.mergeEnd = true →
      State.inTier (s.headAddr list) 64 = true → PlainAt s (s.headAddr list) 64 →
    Ends (.sideStartAdvance list) s fun t => headParse h.home (t.devRead (s.headAddr list) 64).1 = { h with sideStart := h.mergeEnd }
      ∧ fieldAt (t.devRead (s.headAddr list) 64).1 60 4 = Crypto.check32c (s.headAddr list) ((t.devRead (s.headAddr list) 64).1.take 60)
      ∧ t.dev.regs = s.dev.regs)

/-- R193, R194: a flowstone pass takes the surviving positions in order into new versions and arms its flip; at the flip a stale pass is discarded, a pass waits while PREV_VALID
is set or the overlay has no room, and otherwise the flip is made and the pass is over.
The model's own readings here: log entry 56. -/
def Obligations.FlowstonePassesAndFlips : Prop :=
  (∀ (s u : State) (list flipAt : Nat) (w : Encoding) (vers : List NewVersion), s.dev.flag Reg.epcStatusRunning = true → s.dev.on Reg.idxCtrlFlowEn = true →
      list < s.dev.val Reg.idxLists → (∀ p ∈ s.dev.idx.passes, p.list ≠ list) →
      let h := s.headOf list
      let ords := s.rewritten h s.dev.epoch
      let live := ords.flatMap (s.segSurvivors h s.dev.epoch) ++ s.sideSurvivors h s.dev.epoch
      let more := ceilDiv live.length 4096 - ords.length
      h.ords + more ≤ h.ordCap →
      State.buildVersions h.tenant (ords ++ (List.range more).map fun i => h.ords + i) (live.map (s.recode w h)) [] s = (u, some vers) →
    Ends (.flowstonePass list flipAt w []) s fun t => t.dev.rd Reg.idxStatusFlowBusy = 1
      ∧ vers.flatMap (·.sources) = live.map (·.from') ∧ (∀ v ∈ vers, v.count = v.sources.length ∧ v.count ≤ 4096)
      ∧ t.dev.idx.passes = s.dev.idx.passes ++ [{ list, base := s.dev.epoch, versions := vers, mergedEnd := s.mergedEnd h s.dev.epoch, flipAt := flipAt, updates := [], triedAt := none }])
  ∧ (∀ (s : State) (list : Nat) (p : FlowPass), s.flipNext = some p → p.list = list → s.stillDue (s.headOf list) = false →
      let busy := p.versions.any fun v => decide (v.ord < (s.headOf list).ords) && (s.segDesc (s.headOf list) v.ord).prevValid
      let room := decide ((s.headOf list).ovlCount + (s.carriedDeletes (s.headOf list) p).length ≤ 64 * (s.headOf list).ovlCap)
      let waiting := s.dev.idx.passes.map fun q => if q.list = list then { q with triedAt := some s.dev.epoch } else q
      (p.base + 16 < s.dev.epoch →
        Ends (.flowstoneFlip list) s fun t => (∀ q ∈ t.dev.idx.passes, q.list ≠ list) ∧ Counted Ctr.idxFlowStale 1 s t ∧ Counted Ctr.idxFlips 0 s t
          ∧ t.dev.idx.freeSegs = s.dev.idx.freeSegs ++ p.versions.map (·.num))
      ∧ (s.dev.epoch ≤ p.base + 16 → busy = true →
        Ends (.flowstoneFlip list) s fun t => t.mem = s.settle.mem ∧ t.dev.ctr = s.dev.ctr ∧ t.dev.regs = s.dev.regs ∧ t.dev.idx.passes = waiting)
      ∧ (s.dev.epoch ≤ p.base + 16 → busy = false → room = false →
        Ends (.flowstoneFlip list) s fun t => t.mem = s.settle.mem ∧ t.dev.idx.passes = waiting ∧ Counted Ctr.idxFlowPostponed 1 s t)
      ∧ (s.dev.epoch ≤ p.base + 16 → busy = false → room = true →
        Ends (.flowstoneFlip list) s fun t => (∀ q ∈ t.dev.idx.passes, q.list ≠ list) ∧ Counted Ctr.idxFlips 1 s t))

/-- R211, R213: the flip of a table version: refused for a bad check, discarded when its base is more than 16 epochs old, deferred while PREV_VALID is set, and otherwise the
version is current from this cairn and the old one previous; the previous version is freed at FREE_AT.
The model's own readings here: log entry 61. -/
def Obligations.TableVersionsFlipAndFree : Prop :=
  (∀ (s : State) (t home tier present base expect : Nat), MemorySafe s → Quiet s → (Instr.tableVersionFlip t home tier present base expect).wf = true → s.dev.epc.inCairn = true →
      (s.rowTable t).valid = true →
      let r := s.rowTable t
      let f := s.dev.epoch % 2 ^ 32
      let readers := if tier = 2 then home * s.dev.rd Reg.flsLbBytes else home
      let (bs, bad) := s.tierRead tier home 0 (r.rows * r.rowBytes)
      ((bad = true ∨ Crypto.check32c readers bs ≠ expect) →
        Ends (.tableVersionFlip t home tier present base expect) s fun u => Recorded .rowVersionCheck u ∧ Counted Ctr.rowTableFlips 0 s u)
      ∧ (bad = false → Crypto.check32c readers bs = expect → wrapLe (wrapSub f 16) (base % 2 ^ 32) = false →
        Ends (.tableVersionFlip t home tier present base expect) s fun u => SameBytes s u ∧ Counted Ctr.rowFlipsStale 1 s u)
      ∧ (bad = false → Crypto.check32c readers bs = expect → wrapLe (wrapSub f 16) (base % 2 ^ 32) = true → r.prevValid = true →
        Ends (.tableVersionFlip t home tier present base expect) s fun u => SameBytes s u ∧ Counted Ctr.rowFlipsDeferred 1 s u)
      ∧ (bad = false → Crypto.check32c readers bs = expect → wrapLe (wrapSub f 16) (base % 2 ^ 32) = true → r.prevValid = false → r.mutable' = false →
          (∀ e ∈ s.dev.rows.staged, e.table ≠ t) → State.inTier (s.rowDescAddr t) 128 = true → PlainAt s (s.rowDescAddr t) 128 →
        Ends (.tableVersionFlip t home tier present base expect) s fun u =>
          u.rowTable t = { r with cur := ⟨home, tier, (r.cur.ver + 1) % 256, present⟩, from' := f, prev := r.cur, prevValid := true, freeAt := (f + 16) % 2 ^ 32 }
          ∧ Counted Ctr.rowTableFlips 1 s u))
  ∧ (∀ (s : State) (t : Nat), MemorySafe s → Quiet s → t < 64 → s.dev.epc.inCairn = true → TableAlone s → (s.rowTable t).valid = true → (s.rowTable t).prevValid = true → (s.rowTable t).mutable' = false →
      (s.rowTable t).freeAt = s.dev.epoch % 2 ^ 32 → State.inTier (s.rowDescAddr t) 128 = true → PlainAt s (s.rowDescAddr t) 128 →
      (∀ i j, i < 128 → j < 64 * s.dev.val Reg.homeCount → s.xlate (s.rowDescAddr t + i) ≠ s.xlate (s.dev.val Reg.homeBase + j)) →
      (s.rowTable t).prev.tier ≠ 2 →
    Ends (.tableVersionFree t) s fun u => u.rowTable t = { (s.rowTable t) with prevValid := false }
      ∧ ∀ h, (s.homes.find? fun h => h.state = hsHome && h.tier = (s.rowTable t).prev.tier && h.home = (s.rowTable t).prev.home) = some h →
          u.homeGet h.datum = some { h with state := hsEmpty }
          ∧ u.dev.usedOf (ownerOf h) h.tier = s.dev.usedOf (ownerOf h) h.tier - s.dev.chargeOf h.tier h.length)

/-- R213, R226: a redirect that is foldable has its row copied into the current version's home; a refresh of a dripline table builds its other hot index, which the
flip makes the active one; a row that fails its check is reported and nothing is built.
The model's own readings here: log entry 61. -/
def Obligations.RedirectsFoldAndHotIndicesFlip : Prop :=
  (∀ (s : State) (t bucket k : Nat), MemorySafe s → Quiet s → t < 64 → k < 8 → (s.rowTable t).mutable' = true →
      let r := s.rowTable t
      let e := s.redirectAt r bucket k
      e.used = true → (t, bucket, k) ∉ s.dev.rows.folded → e.ver = r.cur.ver % 2 → wrapLe e.commit (wrapSub (s.dev.epoch % 2 ^ 32) 16) = true →
      (∀ j, j < 8 → let f := s.redirectAt r bucket j
        f.used = true → f.row = e.row → f.ver = e.ver → wrapLt f.commit e.commit = true → (t, bucket, j) ∈ s.dev.rows.folded) → r.cur.tier ≠ 2 →
    Ends (.redirectFold t bucket k) s fun u => u.dev.rows.folded = s.dev.rows.folded ++ [(t, bucket, k)] ∧ Counted Ctr.rowRedirectsFolded 1 s u
      ∧ (r.cur.present = 0 → State.inTier (r.cur.home + e.row * r.rowBytes) r.rowBytes = true → PlainAt s (r.cur.home + e.row * r.rowBytes) r.rowBytes →
          (let b := s.devRead (State.spillAddr r e.spill) r.rowBytes
            ∀ a ∈ (s.devWrite (r.cur.home + e.row * r.rowBytes) b.1 b.2).hotCopies r e.row e.ver, s.mirrorParts a r.rowBytes = []
              ∧ ∀ i j, i < r.rowBytes → j < r.rowBytes → s.xlate (a + i) ≠ s.xlate (r.cur.home + e.row * r.rowBytes + j)) →
          HoldsAt u (r.cur.home + e.row * r.rowBytes) (s.devRead (State.spillAddr r e.spill) r.rowBytes).1)
      ∧ (r.cur.present ≠ 0 → State.inTier (r.cur.present + e.row / 8) 1 = true → PlainAt s (r.cur.present + e.row / 8) 1 →
          bit (leNat (u.devRead (r.cur.present + e.row / 8) 1).1) (e.row % 8) = true))
  ∧ (∀ (s : State) (t : Nat), t < 64 → s.dev.on Reg.rowCtrlDripEn = true → (s.rowTable t).valid = true → (s.rowTable t).drip = true →
      s.dev.epoch % max 1 (s.dev.val Reg.dripPeriod) = 0 →
      let as := State.hotAssign (s.rowTable t) (s.dev.val (Reg.hotStrataRows t)) (s.dev.val (Reg.hotStackRows t)) (s.hotRanked (s.rowTable t)) []
      let charged := (s.chargeHot (s.rowTable t) (1 - (s.rowTable t).hotActive) (as.countP fun a => a.2.1 = 0) (as.countP fun a => a.2.1 = 1)).2
    (charged = true → Ends (.driplineRefresh t .built) s fun u => (t, s.dev.epoch) ∈ u.dev.rows.hotReady ∧ u.dev.rd Reg.rowStatusDripBusy = 1)
    ∧ (charged = true → Ends (.driplineRefresh t .late) s fun u => t ∈ u.dev.rows.hotBusy ∧ u.dev.rd Reg.rowStatusDripBusy = 1
        ∧ ∀ x ∈ u.dev.rows.hotReady, x.1 ≠ t)
    ∧ (∀ row ∈ as.map (·.1), charged = true → Ends (.driplineRefresh t (.failed row)) s fun u => Recorded .rowHotCheck u ∧ ∀ x ∈ u.dev.rows.hotReady, x.1 ≠ t)
    ∧ (charged = false → Ends (.driplineRefresh t .built) s fun u => (∀ x ∈ u.dev.rows.hotReady, x.1 ≠ t) ∧ u.dev.tier.used = s.dev.tier.used))
  ∧ (∀ (s : State) (t e : Nat), MemorySafe s → Quiet s → t < 64 → s.dev.epc.inCairn = true → (t, e) ∈ s.dev.rows.hotReady → e < s.dev.epoch →
      (s.rowTable t).hotActive < 2 → State.inTier (s.rowDescAddr t) 128 = true → PlainAt s (s.rowDescAddr t) 128 →
    Ends (.hotIndexFlip t) s fun u => u.rowTable t = { s.rowTable t with hotActive := 1 - (s.rowTable t).hotActive }
      ∧ (∀ x ∈ u.dev.rows.hotReady, x.1 ≠ t) ∧ Counted Ctr.rowDripRefreshes 1 s u)

/-- R237, R239, R242, R243, R247: a move asked for charges its destination and copies chunks until its check makes it COPIED; a check that fails abandons it. R240 to R244, R247: a COPIED datum flips to its new home at a cairn at or after its arm, and a MAPPED one by an exchange of granules of the home map; the old range
is freed and credited at FREE_AT; a move cancelled before its flip leaves the datum at HOME.
The model's own readings here: log entries 63, 64, 65. -/
def Obligations.HomesAreMoved : Prop :=
  ((∀ (s : State) (datum tier dest arm : Nat) (r : HomeRec), MemorySafe s → Quiet s → (Instr.tierMoveRequest datum tier dest arm false).wf = true →
        TableAlone s → (∀ n, n < s.dev.val Reg.homeCount → (s.homeGet n).isSome = true) → datum < s.dev.val Reg.homeCount → s.homeGet datum = some r →
        r.state = hsHome → r.tier ≠ 2 → tier ≠ 2 → r.referrer ≠ 1 →
        s.inTierRange tier dest r.length = true → s.homeOverlap tier dest r.length = none →
        (s.dev.charge (ownerOf r) tier (s.dev.chargeOf tier r.length)).2 = true →
      Ends (.tierMoveRequest datum tier dest arm false) s fun t =>
        t.homeGet datum = some { r with state := hsCopying, destTier := tier, dest, kind := 0, arm, freeAt := 0, chunksLeft := ceilDiv r.length 4096 }
        ∧ t.dev.usedOf (ownerOf r) tier = s.dev.usedOf (ownerOf r) tier + s.dev.chargeOf tier r.length ∧ Counted Ctr.tierMovesStarted 1 s t
        ∧ t.dev.rd Reg.tierStatusMoveBusy = 1)
    ∧ (∀ (s : State) (datum n retries : Nat) (r : HomeRec), MemorySafe s → Quiet s → TableAlone s → datum < s.dev.val Reg.homeCount →
        s.homeGet datum = some r → r.state = hsCopying → r.kind = 0 → r.tier ≠ 2 → r.destTier ≠ 2 →
        let k := ceilDiv r.length 4096 - r.chunksLeft
        let m := min (min n r.chunksLeft) (s.chunkAllowance (State.moveController r))
        let len := min (4096 * m) (r.length - 4096 * k)
        m ≠ 0 → (∀ x ∈ [(r.tier, r.home), (r.destTier, r.dest)], x.1 = 1 → s.dev.runMeets (x.2 + 4096 * k) (4096 * m) = false) →
        State.inTier (r.dest + 4096 * k) len = true → PlainAt s (r.dest + 4096 * k) len →
        (∀ i j, i < len → j < 64 → s.xlate (r.dest + 4096 * k + i) ≠ s.xlate (s.homeAddr datum + j)) →
      Ends (.moveChunkCopy datum n retries) s fun t => t.homeGet datum = some { r with chunksLeft := r.chunksLeft - m }
        ∧ HoldsAt t (r.dest + 4096 * k) (s.devRead (r.home + 4096 * k) len).1
        ∧ Counted Ctr.tierChunksCopied m s t ∧ Counted Ctr.tierChunkRetries retries s t)
    ∧ (∀ (s : State) (datum : Nat) (r : HomeRec), s.homeGet datum = some r → r.state = hsCopying → r.chunksLeft = 0 → r.kind = 0 → r.tier ≠ 2 → r.destTier ≠ 2 →
        ((s.devRead r.dest r.length).2 = false → (s.devRead r.dest r.length).1 = (s.devRead r.home r.length).1 → MemorySafe s → Quiet s → TableAlone s →
            datum < s.dev.val Reg.homeCount →
          Ends (.moveCheckComplete datum) s fun t => t.homeGet datum = some { r with state := hsCopied })
        ∧ ((s.devRead r.dest r.length).2 = true →
          Ends (.moveCheckComplete datum) s fun t => Recorded .tierMoveCheck t ∧ Counted Ctr.tierMovesAbandoned 1 s t
            ∧ s.dev.tier.freeDue ++ [(datum, ownerOf r, r.destTier, r.dest, r.length)] <+: t.dev.tier.freeDue)))
  ∧ ((∀ (s : State) (datum : Nat) (refs : List (Nat × List Byte)) (r : HomeRec), MemorySafe s → Quiet s → TableAlone s → datum < s.dev.val Reg.homeCount →
        s.homeGet datum = some r → s.flipsNow r = true → r.tier ≠ 2 → r.destTier ≠ 2 →
      Ends (.homeFlip datum refs) s fun t => Counted Ctr.tierMovesFlipped 1 s t
        ∧ (r.referrer ≠ 1 → (∀ x ∈ refs, State.banksMet x.1 x.2.length = []) →
            t.homeGet datum = some { r with state := hsReleasing, home := r.dest, dest := r.home, tier := r.destTier, destTier := r.tier, freeAt := (s.dev.epoch + (if r.referrer = 2 then 16 else 1)) % 2 ^ 32 })
        ∧ (r.referrer = 1 → (r.kind = 0 ∨ s.dev.blockOf datum = none) → t.homeGet datum = some { r with state := hsReleasing, freeAt := (s.dev.epoch + 1) % 2 ^ 32 })
        ∧ (r.referrer = 1 → rising 0 (s.dev.homeMap.map (·.1)) = true → r.home % 65536 = 0 → r.dest % 65536 = 0 →
            (r.home + 65536 * ceilDiv r.length 65536 ≤ r.dest ∨ r.dest + 65536 * ceilDiv r.length 65536 ≤ r.home) →
            ∀ k, k < r.length → t.xlate (r.home + k) = s.xlate (r.dest + k) ∧ t.xlate (r.dest + k) = s.xlate (r.home + k)))
    ∧ (∀ (s : State) (datum : Nat) (refs : List (Nat × List Byte)) (r : HomeRec), s.homeGet datum = some r → s.flipsNow r = false →
      Ends (.homeFlip datum refs) s fun t => t = s.settle)
    ∧ (∀ (s : State) (datum : Nat) (r : HomeRec), MemorySafe s → Quiet s → TableAlone s → s.dev.epc.inCairn = true → datum < s.dev.val Reg.homeCount →
        s.homeGet datum = some r → r.state = hsReleasing → r.freeAt = s.dev.epoch % 2 ^ 32 → r.destTier ≠ 2 →
      Ends (.homeRangeFree datum) s fun t => t.homeGet datum = some { r with state := hsHome, dest := 0, destTier := 0, freeAt := 0 }
        ∧ t.dev.usedOf (ownerOf r) r.destTier = s.dev.usedOf (ownerOf r) r.destTier - s.dev.chargeOf r.destTier r.length)
    ∧ (∀ (s : State) (datum : Nat) (r : HomeRec), MemorySafe s → Quiet s → TableAlone s → datum < s.dev.val Reg.homeCount → s.homeGet datum = some r →
        (r.state = hsCopying ∨ r.state = hsCopied) → r.tier ≠ 2 →
      Ends (.moveCancel datum) s fun t => t.homeGet datum = some { r with state := hsHome, dest := 0, chunksLeft := 0, kind := 0 }
        ∧ s.dev.tier.freeDue ++ [(datum, ownerOf r, r.destTier, r.dest, r.length)] <+: t.dev.tier.freeDue ∧ Counted Ctr.tierMovesAbandoned 1 s t))

/-- R511, R120: scrub counts the atoms it reads and what their code says; a spare row replaces a queued row and one spare of its stratum is gone; a reload attempt of
a weight block rewrites the block with the bytes of its copy.
The model's own readings here: log entries 48, 66. -/
def Obligations.ScrubRepairAndReload : Prop :=
  (∀ (s : State) (a row : Nat) (out : AtomRead), s.dev.on Reg.strCtrlScrubEn = true → a % 64 = 0 → a < 0x400000000 →
    Ends (.scrubAtomRead a row out) s fun t => Counted Ctr.strScrubAtoms 1 s t ∧ Counted Ctr.strCorrected (if out = .corrected then 1 else 0) s t
      ∧ Counted Ctr.strUncorrected (if out = .bad then 1 else 0) s t ∧ (out = .bad → t.dev.rd Reg.strErrAddr = a)
      ∧ (t.dev.rd Reg.strStatusScrubBusy = if s.dev.strata.scrubbed + 1 = 2 ^ 28 then 0 else 1))
  ∧ (∀ (s : State) (row st : Nat), s.dev.epc.inCairn = true → (s.dev.strata.repair.find? (·.1 = row)) = some (row, st) → st < 8 → bits (s.dev.rd Reg.strSpares) (4 * st) 4 ≠ 0 →
    Ends (.rowRepairSwap row) s fun t => bits (t.dev.rd Reg.strSpares) (4 * st) 4 = bits (s.dev.rd Reg.strSpares) (4 * st) 4 - 1
      ∧ (∀ i, i < 8 → i ≠ st → bits (t.dev.rd Reg.strSpares) (4 * i) 4 = bits (s.dev.rd Reg.strSpares) (4 * i) 4)
      ∧ (∀ x ∈ t.dev.strata.repair, x.1 ≠ row) ∧ Counted Ctr.strRowsRepaired 1 s t
      ∧ SameRegsBut [Reg.strSpares, Reg.strStatusRepairPending] s t)
  ∧ (∀ (s : State) (c a copy : Nat) (bs : List Byte) (bad : Bool), MemorySafe s → Quiet s → c < 256 → a ∉ s.dev.cvu.damaged → s.lookDatum copy = s →
      s.reloadCopy copy = some (bs, bad) → State.inTier a bs.length = true → PlainAt s a bs.length →
      (∀ b ∈ s.dev.fls.blocks, b.base = a → s.mirrorParts (s.homeAddr b.datum) 64 = []
        ∧ ∀ i j, i < bs.length → j < 64 → s.xlate (a + i) ≠ s.xlate (s.homeAddr b.datum + j)) →
    Ends (.weightReload c a copy) s fun t => HoldsAt t a bs ∧ Counted (Ctr.chWeightReloads c) 1 s t)
  ∧ (∀ (s : State) (c a copy : Nat), c < 256 → a ∈ s.dev.cvu.damaged → Ends (.weightReload c a copy) s fun t => t = (s.lookDatum copy).settle)
  ∧ (∀ (s : State) (c a copy : Nat), c < 256 → a ∉ s.dev.cvu.damaged → s.reloadCopy copy = none →
    Ends (.weightReload c a copy) s fun t => SameBytes (s.lookDatum copy).settle t ∧ Counted (Ctr.chWeightReloads c) 1 s t)

/-! ### The fabric: frames, messages, time and ports -/

/-- R333: a received frame with a bad FCS, of another EtherType, malformed, with a wrong trailer or from no known peer is counted as such and discarded. R341: a fragment for a RECV that is open is written at its offset; one for the next epoch waits; one of an epoch past, of an epoch beyond the next, or without a RECV
is counted and dropped.
The model's own readings here: log entries 76, 77. -/
def Obligations.FramesAreCheckedAndPlanDataArrives : Prop :=
  (∀ (s : State) (p t : Nat) (fr : List Byte) (fcs : Bool), p < 8 → (s.dev.clock t).portUp p = true →
      let out (c : Nat) : Prop := Ends (.receivedFrameDiscard p t fr fcs) s fun u => Counted c 1 s u ∧ Counted (Ctr.portFramesIn p) 1 s u
        ∧ Counted (Ctr.portBytesIn p) (fr.length + 4) s u ∧ u.dev.fab = s.dev.fab ∧ u.dev.ingress = s.dev.ingress
      (fcs = false → out (Ctr.portFcsErrors p))
      ∧ (fcs = true → 9216 < fr.length + 4 → out Ctr.fabMalformed)
      ∧ (fcs = true → fr.length + 4 ≤ 9216 → zftStart fr = none → out (Ctr.portNonZft p))
      ∧ (∀ o, fcs = true → fr.length + 4 ≤ 9216 → zftStart fr = some o → parseZft (fr.drop o) = none → out Ctr.fabMalformed)
      ∧ (∀ o z, fcs = true → fr.length + 4 ≤ 9216 → zftStart fr = some o → parseZft (fr.drop o) = some z →
          ((s.dev.clock t).tapMatch 0 z.seq 2 z.body z.trailer).2 = false → out (Ctr.portCheckFails p))
      ∧ (∀ o z, fcs = true → fr.length + 4 ≤ 9216 → zftStart fr = some o → parseZft (fr.drop o) = some z →
          ((s.dev.clock t).tapMatch 0 z.seq 2 z.body z.trailer).2 = true → (s.dev.clock t).peerOf z.src = none → out Ctr.fabUnknownPeer))
  ∧ (∀ (s u : State) (cmd : Nat → Nat → List Byte → Bool → Instr) (ty p t : Nat) (fr : List Byte) (fcs : Bool) (i : Nat) (z : Zft),
        ((cmd = .planFrame ∧ ty = tyPlan) ∨ (cmd = .siphonFrame ∧ ty = tySiphon)) → Arrives s p t fr fcs i z u → z.isPlan ty = true →
      (z.epoch < u.dev.epoch → Ends (cmd p t fr fcs) s fun v => Counted Ctr.fabLateFrames 1 s v ∧ v.dev.fab = u.dev.fab)
      ∧ (u.dev.epoch + 1 < z.epoch → Ends (cmd p t fr fcs) s fun v => Counted Ctr.fabEpochMismatch 1 s v ∧ v.dev.fab = u.dev.fab)
      ∧ (u.dev.epoch ≤ z.epoch → z.epoch ≤ u.dev.epoch + 1 → u.recvFor z.dstChamber i z.srcChamber z.tag = none →
          Ends (cmd p t fr fcs) s fun v => Counted Ctr.fabNoRecvFrames 1 s v ∧ v.dev.fab.landing = u.dev.fab.landing ∧ v.dev.fab.recvs = u.dev.fab.recvs)
      ∧ (∀ idx q, z.epoch = u.dev.epoch + 1 → u.recvFor z.dstChamber i z.srcChamber z.tag = some (idx, q) → z.total ≤ q.cap →
            u.landingBytes p + z.data.length ≤ 2097152 →
          Ends (cmd p t fr fcs) s fun v => v.dev.fab.landing = u.dev.fab.landing ++ [{ port := p, chamber := z.dstChamber, peer := i, srcChamber := z.srcChamber, tag := z.tag, epoch := z.epoch, offset := z.offset, total := z.total, poison := z.poison, seq := z.seq, data := z.data }])
      ∧ (∀ idx q r, z.epoch = u.dev.epoch → u.recvFor z.dstChamber i z.srcChamber z.tag = some (idx, q) → z.total ≤ q.cap → z.total ≤ r.p.cap →
            u.recvSt z.dstChamber idx = some r → r.completed = false → MemorySafe s → bit r.p.dstAddr 31 = false →
            bits r.p.dstAddr 0 26 + z.offset + z.data.length ≤ 0x200000 →
          Ends (cmd p t fr fcs) s fun v => v.recvSt z.dstChamber idx = some { r with total := some z.total, got := r.got ++ [(z.offset, z.data.length)], poison := r.poison || z.poison, firstSeq := if z.offset = 0 then z.seq else r.firstSeq }
            ∧ v.mem.read .store (r.chamber * 0x200000 + bits r.p.dstAddr 0 26 + z.offset) z.data.length = z.data))

/-- R347: a frame of a reliable message that is ahead of the next expected one, within the window, is held for its turn and does not move the window; a whole one that is the
next expected moves it by one.
The model's own readings here: log entry 76. -/
def Obligations.ReliableFramesKeepTheirOrder : Prop :=
  ∀ (s u : State) (pl : Place) (cmd : Nat → Nat → List Byte → Bool → Instr) (is : Zft → Bool) (p t : Nat) (fr : List Byte) (fcs : Bool) (i : Nat) (z : Zft),
      (cmd, is) ∈ reliableSteps pl → is z = true →
    (Arrives s p t fr fcs i z u → u.dev.fab.inbox = [] → (u.dev.peerSeq i).relIn < z.seq → z.seq ≤ (u.dev.peerSeq i).relIn + 1024 →
        (u.dev.peerSeq i).held.length < 1024 →
      Ends (cmd p t fr fcs) s fun v => (v.dev.peerSeq i).relIn = (u.dev.peerSeq i).relIn ∧ (v.dev.peerSeq i).held = (u.dev.peerSeq i).held ++ [(z.seq, z.body)])
    ∧ (ArrivesWhole s p t fr fcs i z u → Ends (cmd p t fr fcs) s fun v => (v.dev.peerSeq i).relIn = z.seq + 1)

/-- R345, R346, R406: a whole query or operation of a client waits for the cut-off, a bad record is refused at once, and a reply to a query of the host is written to the host
with its completion.
The model's own readings here: log entries 22, 80, 90. -/
def Obligations.ClientMessagesArrive : Prop :=
  (∀ (s u : State) (p t : Nat) (fr : List Byte) (fcs : Bool) (i : Nat) (z : Zft), ArrivesWhole s p t fr fcs i z u → z.isMsg tyQuery = true →
      let b := z.data
      let node := u.dev.val (Reg.peerCfgNode i)
      let head := 16 ≤ b.length ∧ ∀ x ∈ (b.drop 1).take 7, x = 0#8
      let r : Request := { tenant := z.tenant, seq := fieldAt b 8 8, body := b.drop 16, origin := .client node }
      (head → fieldAt b 0 1 = 1 → queryOk r.body = true → u.dev.rd Reg.glbState ≠ 6 →
        Ends (.queryMessage p t fr fcs) s fun v => v.dev.ingress.arriving = u.dev.ingress.arriving ++ [r])
      ∧ (head → fieldAt b 0 1 = 2 → opBodyOk r.body = true → u.dev.rd Reg.glbState ≠ 6 →
        Ends (.queryMessage p t fr fcs) s fun v => v.dev.ingress.arrivingOps = u.dev.ingress.arrivingOps ++ [r])
      ∧ (head → fieldAt b 0 1 = 2 → opBodyOk r.body = false → u.dev.rd Reg.glbState ≠ 6 →
        Ends (.queryMessage p t fr fcs) s fun v => v.dev.ingress = u.dev.ingress ∧ Counted Ctr.idxOpsRefused 1 s v)
      ∧ (¬ head ∨ (fieldAt b 0 1 ≠ 1 ∧ fieldAt b 0 1 ≠ 2) →
        Ends (.queryMessage p t fr fcs) s fun v => v.dev.ingress = u.dev.ingress ∧ v.dev.freeCtr = u.dev.freeCtr + 1))
  ∧ (∀ (s u : State) (p t : Nat) (fr : List Byte) (fcs : Bool) (i : Nat) (z : Zft) (q : OpenQuery), ArrivesWhole s p t fr fcs i z u → z.isMsg tyReply = true →
      fieldAt z.data 0 1 = 1 → (u.dev.host.queries.find? fun q => q.ref.seq = fieldAt z.data 8 8 && q.ref.tenant = z.tenant) = some q →
    Ends (.reply p t fr fcs) s fun v => v.dev.host.queries = u.dev.host.queries.erase q
      ∧ ∃ c, v.dev.host.ended = u.dev.host.ended ++ [c] ∧ c.fn = q.ref.fn ∧ c.ring = q.ref.ring ∧ c.seq = q.ref.seq ∧ c.epoch = fieldAt z.data 16 8
        ∧ c.bytes = (z.data.take q.cap).length ∧ c.status = 0)

/-- R347, R349 to R352: an ACK releases the frames below its SEQUENCE; an ECHO_REQ is answered; an ECHO_RSP of the time source adds a measurement of the path delay; a TIME frame
is measured against TIME.
The model's own readings here: log entries 76, 78, 79. -/
def Obligations.AcksEchoesAndTime : Prop :=
  (∀ (s u : State) (p t : Nat) (fr : List Byte) (fcs : Bool) (i : Nat) (z : Zft), Arrives s p t fr fcs i z u → z.isMgmt mgAck = true →
    Ends (.ackFrame p t fr fcs) s fun v => (v.dev.peerSeq i).unacked = (u.dev.peerSeq i).unacked.filter (fun q => decide (fieldAt z.data 8 8 ≤ q.seq))
      ∧ v.dev.rd (Reg.peerStatusReachable i) = 1 ∧ SameRegsBut [Reg.peerStatusReachable i] u v)
  ∧ (∀ (s u : State) (p t : Nat) (fr : List Byte) (fcs : Bool) (i : Nat) (z : Zft), Arrives s p t fr fcs i z u → z.isMgmt mgEchoReq = true →
    Ends (.echoReq p t fr fcs) s fun v => (v.dev.peerSeq i).planOut = (u.dev.peerSeq i).planOut + 1 ∧ (v.dev.peerSeq i).msgOut = (u.dev.peerSeq i).msgOut + 1
      ∧ (u.dev.queueBytes p 1 + 106 ≤ 1024 * u.dev.val (Reg.egsQlimitKib p 1) →
          ∃ f, v.dev.egs.queues = u.dev.egs.queues ++ [f] ∧ f.port = p ∧ f.peer = i ∧ f.queue = 1 ∧ f.stamp = 3
            ∧ fieldAt f.zft 56 8 = fieldAt z.data 8 8 ∧ fieldAt f.zft 64 8 = u.dev.now % 2 ^ 64))
  ∧ (∀ (s u : State) (p t : Nat) (fr : List Byte) (fcs : Bool) (i : Nat) (z : Zft), Arrives s p t fr fcs i z u → z.isMgmt mgEchoRsp = true →
      i = u.dev.val Reg.fabTimeSourcePeer →
    Ends (.echoRsp p t fr fcs) s fun v =>
      let m : Int := (((u.dev.now : Int) - fieldAt z.data 8 8) - ((fieldAt z.data 24 8 : Int) - fieldAt z.data 16 8)) / 2
      let old := assocD ([] : List Int) p u.dev.fab.delays
      assocD [] p v.dev.fab.delays = (old ++ [m]).drop ((old.length + 1) - 8) ∧ SameRegsBut [Reg.portPathDelay p] u v)
  ∧ (∀ (s u : State) (p t : Nat) (fr : List Byte) (fcs : Bool) (i : Nat) (z : Zft), Arrives s p t fr fcs i z u → z.isPlan tyTime = true →
    Ends (.timeFrame p t fr fcs) s fun v => Counted Ctr.fabTimeFrames 1 s v ∧ v.dev.fab.timeLost = false ∧
      (u.dev.on Reg.fabCtrlTimeEn = false → v.dev.regs = u.dev.regs)
      ∧ (u.dev.on Reg.fabCtrlTimeEn = true →
          let o : Int := (fieldAt z.data 0 8 : Int) + toSigned 32 (u.dev.rd (Reg.portPathDelay p)) + toSigned 32 (u.dev.val (Reg.portDelayAdj p)) - u.dev.now
          let big := u.dev.val Reg.fabTimeCfgStepNs < o.natAbs
          v.dev.rd Reg.fabTimeOffset = ofSigned 64 o
          ∧ (big → v.dev.rd Reg.fabStatusTimeLocked = 0) ∧ (¬ big → v.dev.rd Reg.fabStatusTimeLocked = 1)
          ∧ (big → u.dev.rd Reg.epcStatusRunning = 0 → v.dev.rd Reg.epcTime = ((u.dev.now : Int) + o).toNat % 2 ^ 64 ∧ Counted Ctr.fabTimeSteps 1 s v)
          ∧ (¬ big ∨ u.dev.rd Reg.epcStatusRunning ≠ 0 → v.dev.rd Reg.epcTime = u.dev.rd Reg.epcTime
              ∧ v.dev.rd Reg.fabTimeRate = ofSigned 32 (clampInt (-200000) 200000 (o * 1000000000 / (max 1 u.dev.timePeriod : Nat))))))

/-- R347, R350 to R352: the timers. ACKs go to every peer from which reliable frames have come; a frame not acknowledged in RETX_US is resent, and after the last resend its
message is dropped; TIME frames and ECHO_REQs leave on every UP port; a source that is silent too long is lost.
The model's own readings here: log entries 76, 83. -/
def Obligations.FabricTimers : Prop :=
  (∀ (s : State) (t : Nat) (q : PeerSeq), (s.dev.fab.peers.map (·.peer)).Nodup → q ∈ s.dev.fab.peers → (q.relIn ≠ 0 ∨ q.held ≠ []) →
      s.dev.on (Reg.peerCfgValid q.peer) = true →
    Ends (.ackTimer t) s fun u => (u.dev.peerSeq q.peer).planOut = q.planOut + 1 ∧ (u.dev.peerSeq q.peer).msgOut = q.msgOut + 1
      ∧ (u.dev.peerSeq q.peer).relIn = q.relIn)
  ∧ (∀ (s : State) (t : Nat), (s.dev.fab.peers.map (·.peer)).Nodup → (∀ q ∈ s.dev.fab.peers, (q.unacked.map (·.seq)).Nodup) →
      (∀ q ∈ s.dev.fab.peers, ∀ x ∈ q.unacked, x.resends < s.dev.val Reg.fabReliableRetxMax) →
      let due (x : Unacked) : Bool := decide (x.sent + 1000 * s.dev.val Reg.fabReliableRetxUs ≤ max s.dev.now t)
      t < 2 ^ 64 →
    Ends (.retransmitTimer t) s fun u => Counted Ctr.fabRetransmissions (s.dev.fab.peers.map fun q => q.unacked.countP due).sum s u
      ∧ ∀ q ∈ s.dev.fab.peers, ∀ x ∈ q.unacked, if due x then { x with sent := max s.dev.now t, resends := x.resends + 1 } ∈ (u.dev.peerSeq q.peer).unacked
          else x ∈ (u.dev.peerSeq q.peer).unacked)
  ∧ (∀ (s : State) (t : Nat) (q : PeerSeq) (x : Unacked), s.dev.fab.peers = [q] → q.unacked = [x] → t < 2 ^ 64 →
      x.sent + 1000 * s.dev.val Reg.fabReliableRetxUs ≤ max s.dev.now t → s.dev.val Reg.fabReliableRetxMax ≤ x.resends →
    Ends (.retransmitTimer t) s fun u => (u.dev.peerSeq q.peer).unacked = [] ∧ u.dev.rd (Reg.peerStatusReachable q.peer) = 0 ∧ Recorded .fabPeerUnreachable u)
  ∧ (∀ (s : State) (t : Nat),
      (s.dev.on Reg.fabCtrlTimeMaster = true → Ends (.timeFrameSend t) s fun u => u.dev.fab.timeSeq = s.dev.fab.timeSeq + 1
        ∧ ∀ p, p < 8 → s.dev.portUp p = true → s.dev.queueBytes p 1 + 90 ≤ 1024 * s.dev.val (Reg.egsQlimitKib p 1) →
            ∃ f ∈ u.dev.egs.queues, f.port = p ∧ f.queue = 1 ∧ f.stamp = 1 ∧ Dev.zftSeq f.zft = s.dev.fab.timeSeq % 2 ^ 64)
      ∧ (s.dev.on Reg.fabCtrlTimeMaster = false → Ends (.timeFrameSend t) s fun u => u.dev.fab = s.dev.fab ∧ u.dev.egs = s.dev.egs))
  ∧ (∀ (s : State) (t : Nat), s.dev.on (Reg.peerCfgValid (s.dev.val Reg.fabTimeSourcePeer)) = true →
    Ends (.echoExchange t) s fun u => (u.dev.peerSeq (s.dev.val Reg.fabTimeSourcePeer)).planOut
      = (s.dev.peerSeq (s.dev.val Reg.fabTimeSourcePeer)).planOut + ((List.range 8).filter s.dev.portUp).length)
  ∧ (∀ (s : State) (t : Nat), s.dev.on Reg.fabCtrlTimeEn = true → s.dev.fab.timeLost = false → t < 2 ^ 64 →
      s.dev.fab.timeAt + s.dev.val Reg.fabTimeCfgLossPeriods * s.dev.timePeriod ≤ max s.dev.now t →
    Ends (.timeLoss t) s fun u => u.dev.fab.timeLost = true ∧ u.dev.rd Reg.fabStatusTimeLocked = 0 ∧ Recorded .fabTimeLost u)

/-- R353 to R355, R368: how a port trains, comes up and goes down; windows of FEC; writes to PORT_EN.
The model's own readings here: log entries 82, 84. -/
def Obligations.PortsTrainAndGoDown : Prop :=
  (∀ (s : State) (p : Nat), p < 8 → s.dev.rd (Reg.portStatusState p) = 1 →
    Ends (.portPhyUp p) s (fun u => u.dev.rd (Reg.portStatusState p) = 2 ∧ SameRegsBut [Reg.portStatusState p] s u)
    ∧ (assocD 0 p s.dev.fab.attempts + 1 < 3 → Ends (.portTrainingTimeout p) s fun u => assocD 0 p u.dev.fab.attempts = assocD 0 p s.dev.fab.attempts + 1
        ∧ u.dev.regs = s.dev.regs)
    ∧ (3 ≤ assocD 0 p s.dev.fab.attempts + 1 → assocD 0 p s.dev.fab.attempts + 1 < 6 → Ends (.portTrainingTimeout p) s fun u =>
        assocD 0 p u.dev.fab.attempts = assocD 0 p s.dev.fab.attempts + 1 ∧ u.dev.rd (Reg.portStatusSpeed p) = 1 ∧ u.dev.rd (Reg.portStatusState p) = 1)
    ∧ (6 ≤ assocD 0 p s.dev.fab.attempts + 1 → Ends (.portTrainingTimeout p) s fun u => u.dev.rd (Reg.portStatusState p) = 4 ∧ Recorded .fabLinkTrainFail u))
  ∧ (∀ (s : State) (p : Nat), p < 8 → s.dev.rd (Reg.portStatusState p) = 2 →
    Ends (.portUp p) s fun u => u.dev.rd (Reg.portStatusState p) = 3 ∧ bit (u.dev.rd Reg.fabStatusPortUp) p = true
      ∧ (∀ k, k < 8 → k ≠ p → bit (u.dev.rd Reg.fabStatusPortUp) k = bit (s.dev.rd Reg.fabStatusPortUp) k)
      ∧ SameRegsBut [Reg.portStatusState p, Reg.fabStatusPortUp] s u)
  ∧ (∀ (s : State) (p : Nat), p < 8 → s.dev.rd (Reg.portStatusState p) = 3 →
      let down (u : State) : Prop := bit (u.dev.rd Reg.fabStatusPortUp) p = false ∧ (∀ f ∈ u.dev.egs.queues, f.port ≠ p)
        ∧ u.dev.rd (Reg.portStatusState p) = (if s.dev.portsPowered && bit (s.dev.rd Reg.fabCtrlPortEn) p then 1 else 0)
        ∧ Counted (Ctr.portLinkDowns p) 1 s u ∧ Counted Ctr.fabDownDrops (s.dev.egs.queues.filter (·.port = p)).length s u ∧ Recorded .fabLinkDown u
      Ends (.portAlignmentLoss p) s down
      ∧ ∀ good bad t, (16 < bad → Ends (.fecWindow p good bad t) s down)
          ∧ (0 < bad → bad ≤ 16 → Ends (.fecWindow p good bad t) s fun u => u.dev.rd (Reg.portStatusFecDegraded p) = 1 ∧ u.dev.rd (Reg.portStatusState p) = 3
              ∧ Counted (Ctr.portFecCorrected p) good s u ∧ Counted (Ctr.portFecUncorrected p) bad s u))
  ∧ (∀ (s : State) (v : Nat), v < 256 → Ends (.portEnableWrite v) s fun u => u.dev.rd Reg.fabCtrlPortEn = v
      ∧ ∀ p, p < 8 → (bit v p = false → bit (s.dev.rd Reg.fabCtrlPortEn) p = true → u.dev.rd (Reg.portStatusState p) = 0)
        ∧ (bit v p = true → bit (s.dev.rd Reg.fabCtrlPortEn) p = false → s.dev.portsPowered = true → u.dev.rd (Reg.portStatusState p) = 1)
        ∧ (bit v p = bit (s.dev.rd Reg.fabCtrlPortEn) p → u.dev.rd (Reg.portStatusState p) = s.dev.rd (Reg.portStatusState p)))

/-- R360 to R369, R376: the scheduler sends the head of the first strict queue that conforms, then of an urgent queue; levels rise at a refill; a frame that has waited makes
its queue urgent; samples gather; a parity failure is counted and recorded.
The model's own readings here: log entries 82, 85. -/
def Obligations.EgressChoosesAndRefills : Prop :=
  (∀ (s : State) (p t : Nat) (f : QFrame), p < 8 → s.dev.portUp p = true →
      let d := s.dev.clock t
      ((d.strictHead p 0 <|> d.strictHead p 1 <|> d.strictHead p 2) = some f →
        Ends (.egressChoice p t none) s fun u => u.dev.egs.queues = s.dev.egs.queues.erase f ∧ Counted (Ctr.portFramesOut p) 1 s u
          ∧ Counted (Ctr.portBytesOut p) f.size s u ∧ Counted (Ctr.egsFrames p f.queue) 1 s u)
      ∧ (∀ w, (d.strictHead p 0 <|> d.strictHead p 1 <|> d.strictHead p 2) = none → w < 12 → p * 16 + 4 + w ∈ s.dev.egs.urgent →
          (d.queueOf p (4 + w)).head? = some f → d.conforms f = true →
          (∀ x g, x < w → p * 16 + 4 + x ∈ s.dev.egs.urgent → (d.queueOf p (4 + x)).head? = some g → d.conforms g = false) →
        Ends (.egressChoice p t none) s fun u => u.dev.egs.queues = s.dev.egs.queues.erase f ∧ p * 16 + 4 + w ∉ u.dev.egs.urgent
          ∧ Counted (Ctr.egsUrgent p (4 + w)) 1 s u ∧ Counted (Ctr.portFramesOut p) 1 s u)
      ∧ (∀ b k, Ends (.egressChoice p t (some (b, k))) s fun u => Counted (Ctr.egsStateParity p) 1 s u ∧ Recorded .egsStateParity u))
  ∧ (∀ (s : State) (t : Nat), (∀ f ∈ s.dev.regs.waiting, f.app ≠ .refill) → (s.dev.egs.levels.map (·.1)).Nodup →
    Ends (.tokenRefill t) s fun u => ∀ b, u.dev.level b = min (s.dev.level b + 8 * s.dev.val (bucketRate b)) (s.dev.bucketFull b))
  ∧ (∀ (s : State) (p w t : Nat) (f : QFrame), p < 8 → w < 12 → t < 2 ^ 64 → (s.dev.queueOf p (4 + w)).head? = some f → (s.dev.clock t).conforms f = true →
      1000 * s.dev.val (Reg.egsWCfgAgeUs p w) < max s.dev.now t - f.since → p * 16 + 4 + w ∉ s.dev.egs.urgent → p * 16 + 4 + w ∉ s.dev.egs.served →
    Ends (.queueUrgent p w t) s fun u => u.dev.egs.urgent = s.dev.egs.urgent ++ [p * 16 + 4 + w] ∧ u.dev.egs.queues = s.dev.egs.queues)
  ∧ (∀ (s : State) (t p q : Nat), s.dev.flag Reg.epcStatusRunning = true → p < 8 → q < 16 →
    Ends (.egressSample t) s fun u =>
      let n := s.dev.queueBytes p q
      let zero : QSample := ⟨0, n, n, 0, 0, 0, 0⟩
      let a := assocD zero (16 * p + q) s.dev.egs.samples
      let b := assocD zero (16 * p + q) u.dev.egs.samples
      b.n = a.n + 1 ∧ b.depthSum = a.depthSum + n ∧ b.depthMin = min a.depthMin n ∧ b.depthMax = max a.depthMax n)

/-! ### The job: maps, claims, heartbeats, the down set -/

/-- R378, R380, R451: a MAP_ANNOUNCE whose map passes every test is kept in the other half with its EFFECTIVE epoch; one that fails a test, shares a failure domain or comes
too late changes nothing and is recorded. -/
def Obligations.AnnouncedMapsAreChecked : Prop :=
  ∀ (s u : State) (p t : Nat) (fr : List Byte) (fcs : Bool) (i : Nat) (z : Zft), ArrivesWhole s p t fr fcs i z u → z.isCoord kdAnnounce = true →
    let b := z.data.drop 16
    let half := 1 - u.dev.rd Reg.tntStatusMapHalf
    let a := u.mapHalfAddr half
    let node := u.dev.val (Reg.peerCfgNode i)
    ¬ (u.dev.flag Reg.tntStatusMapPending = true ∧ u.dev.rd Reg.poolMapVersionPending = mapVersion b ∧ (u.devRead a b.length).1 = b) →
    (∀ f, mapBad u b a node = some f → Ends (.mapAnnounce p t fr fcs) s fun v => Recorded .poolMapBad v ∧ v.dev.pool = u.dev.pool
        ∧ v.dev.rd Reg.tntStatusMapPending = u.dev.rd Reg.tntStatusMapPending)
    ∧ (∀ x, mapBad u b a node = none → domainShared u b = some x → Ends (.mapAnnounce p t fr fcs) s fun v => Recorded .fltDomainShared v ∧ v.dev.pool = u.dev.pool)
    ∧ (mapBad u b a node = none → domainShared u b = none → mapEffective b < u.dev.epoch + 4 →
        Ends (.mapAnnounce p t fr fcs) s fun v => Recorded .poolMapLate v ∧ v.dev.pool = u.dev.pool)
    ∧ (mapBad u b a node = none → domainShared u b = none → u.dev.epoch + 4 ≤ mapEffective b →
        Ends (.mapAnnounce p t fr fcs) s fun v => v.dev.rd Reg.tntStatusMapPending = 1 ∧ v.dev.rd Reg.poolMapVersionPending = mapVersion b
          ∧ v.dev.pool.pendingAt = mapEffective b ∧ v.dev.rd Reg.poolMapVersionCurrent = u.dev.rd Reg.poolMapVersionCurrent
          ∧ (relayed b = false → MemorySafe s → Quiet u → State.inTier a b.length = true → PlainAt u a b.length → HoldsAt v a b))

/-- R384, R385, R451 to R454: the other COORD messages. A probe leaves a shadow and is answered; a sound handoff reaches its claims; heartbeats, sets of heartbeats and tags are
kept; a DOWN waits for its EFFECTIVE epoch.
The model's own readings here: log entries 21, 87. -/
def Obligations.CoordMessagesAreKept : Prop :=
  ∀ (s u : State) (p t : Nat) (fr : List Byte) (fcs : Bool) (i : Nat) (z : Zft), ArrivesWhole s p t fr fcs i z u →
    let b := z.data
    let node := u.dev.val (Reg.peerCfgNode i)
    (z.isCoord kdProbe = true → Ends (.stateProbe p t fr fcs) s fun v => v.dev.pool.shadows = u.dev.pool.shadows ++
        [{ cohort := fieldAt b 8 8, shard := fieldAt b 16 2, kind := fieldAt b 18 1, until' := u.dev.pool.takenAt + 3 }]
        ∧ (u.dev.peerOf node = some i → (u.dev.peerSeq i).relOut < (v.dev.peerSeq i).relOut))
    ∧ (z.isCoord kdHandoff = true → 28 ≤ b.length → fieldAt b (b.length - 4) 4 = Crypto.check32c (fieldAt b 8 8) ((b.drop 24).take (b.length - 28)) →
        Ends (.stateHandoff p t fr fcs) s fun v => v.dev.pool.claims.length = u.dev.pool.claims.length ∧ ∀ q ∈ u.dev.pool.claims,
          if q.cohort = fieldAt b 8 8 ∧ q.shard = fieldAt b 16 2 ∧ q.kind = fieldAt b 18 1 then
            { q with handoff := some ((b.drop 24).take (b.length - 28)) } ∈ v.dev.pool.claims else q ∈ v.dev.pool.claims)
    ∧ (z.isCoord kdHeartbeat = true → Ends (.heartbeat p t fr fcs) s fun v =>
        (⟨node, fieldAt b 8 8, fieldAt b 16 2, fieldAt b 18 1 % 16, fieldAt b 19 2⟩ : Beat) ∈ v.dev.job.beats
        ∧ ∀ q ∈ u.dev.job.beats, u.dev.epoch ≤ q.epoch + 2 → (q.node ≠ node ∨ q.epoch ≠ fieldAt b 8 8) → q ∈ v.dev.job.beats)
    ∧ (∀ map e, z.isCoord kdSet = true → u.storedMap = some map → e ∈ chunks 8 ((b.drop 24).take (8 * fieldAt b 18 2)) → bit (fieldAt e 4 1) 7 = true →
          fieldAt e 0 2 < mapMembers map → u.dev.epoch ≤ fieldAt b 8 8 + 2 →
        Ends (.heartbeatSet p t fr fcs) s fun v => ∃ q ∈ v.dev.job.beats, q.node = memberNode map (fieldAt e 0 2) ∧ q.epoch = fieldAt b 8 8)
    ∧ (z.isCoord kdDown = true → (∀ x ∈ u.dev.job.downDue, x.2.1 ≠ fieldAt b 16 2) → Ends (.downMessage p t fr fcs) s fun v =>
        v.dev.job.downDue = u.dev.job.downDue ++ [(fieldAt b 8 8, fieldAt b 16 2, fieldAt b 18 1)] ∧ v.dev.job.down = u.dev.job.down)
    ∧ (z.isCoord kdTags = true → Ends (.tagsMessage p t fr fcs) s fun v =>
        assocD [] node v.dev.job.tags = [fieldAt b 16 2, fieldAt b 18 2, fieldAt b 20 2, fieldAt b 22 2])

/-- R381, R384: at the cairn of its EFFECTIVE epoch the pending map takes effect when the active plan is that of this member, and otherwise the mismatch is recorded; a claim of
state is made from the handoff, the shadow or the replica, or the state is lost.
The model's own readings here: log entries 86, 88. -/
def Obligations.MapsTakeEffectAndStateIsClaimed : Prop :=
  (∀ (s : State) (gone : List (Nat × Nat × Nat)) (me : Nat), s.dev.epc.inCairn = true → s.dev.on Reg.tntCtrlPoolEn = true → s.dev.flag Reg.tntStatusMapPending = true →
      s.dev.pool.pendingAt ≤ s.dev.epoch →
      let half := 1 - s.dev.rd Reg.tntStatusMapHalf
      let b := s.mapIn half
      memberOf b (s.dev.rd Reg.fabNodeNodeId) = some me → me < 65536 →
      ((memberPlan b me ≠ s.planId % 2 ^ 32 ∨ (memberRole b me ≠ 3 ∧ memberRole b me ≠ s.planRole)) →
        Ends (.mapTakeEffect gone) s fun t => Recorded .poolRoleMismatch t ∧ t.dev.rd Reg.tntStatusRoleMismatch = 1 ∧ t.dev.pool = s.dev.pool
          ∧ t.dev.rd Reg.tntStatusMapHalf = s.dev.rd Reg.tntStatusMapHalf ∧ t.dev.rd Reg.tntStatusMapPending = s.dev.rd Reg.tntStatusMapPending)
      ∧ (memberPlan b me = s.planId % 2 ^ 32 → (memberRole b me = 3 ∨ memberRole b me = s.planRole) →
        Ends (.mapTakeEffect gone) s fun t => t.dev.rd Reg.tntStatusMapHalf = half ∧ t.dev.rd Reg.tntStatusMapPending = 0
          ∧ t.dev.rd Reg.poolMapVersionCurrent = mapVersion b ∧ t.dev.rd Reg.poolSelfMember = me ∧ t.dev.rd Reg.poolRole = memberRole b me % 4
          ∧ t.dev.pool.haveMap = true ∧ t.dev.pool.takenAt = s.dev.epoch ∧ Counted Ctr.poolMapChanges 1 s t))
  ∧ (∀ (s : State) (gone : List (Nat × Nat × Nat)), (s.dev.epc.inCairn = false ∨ s.dev.flag Reg.tntStatusMapPending = false ∨ s.dev.epoch < s.dev.pool.pendingAt) →
    Ends (.mapTakeEffect gone) s fun t => t = s.settle)
  ∧ (∀ (s : State) (cohort shard kind : Nat) (shadow replica : Bool) (steps : List (Nat × Step)) (q : Claim), s.dev.epc.inCairn = true →
      (s.dev.pool.claims.find? fun q => q.cohort = cohort && q.shard = shard && q.kind = kind && q.due = s.dev.epoch) = some q →
      (q.handoff = none → shadow = false → replica = false →
        Ends (.stateClaim cohort shard kind shadow replica steps) s fun t => t.dev.pool.claims = s.dev.pool.claims.erase q ∧ t.dev.pool.lost = s.dev.pool.lost ++ [(cohort, shard)] ∧ Recorded .poolStateLost t
          ∧ Counted Ctr.poolStateClaims 0 s t)
      ∧ ((q.handoff.isSome = true ∨ shadow = true ∨ replica = true) → (∀ c, (s.dev.sumpOf c).length + steps.length ≤ 4096) →
        Ends (.stateClaim cohort shard kind shadow replica steps) s fun t => t.dev.pool.claims = s.dev.pool.claims.erase q ∧ Counted Ctr.poolStateClaims 1 s t
          ∧ Counted Ctr.poolStateHandoffs (if q.handoff.isSome then 1 else 0) s t
          ∧ Counted Ctr.poolStateFromReplica (if q.handoff.isNone && !shadow then 1 else 0) s t ∧ (q.handoff = none → Recorded .poolStateClaimed t)
          ∧ ∀ x ∈ steps, ∃ e ∈ t.dev.seq.sump, e.chamber = x.1 ∧ e.step.params = x.2.params ∧ e.reason = 4 ∧ e.origin = cohort + x.2.hdr.stage))

/-- R452 to R456, R450: heartbeats are sent once an epoch and kept; the acting coordinator declares a member that is silent, withdrawn, lost or slow; a DOWN whose EFFECTIVE has come joins
the down set, and this module drains when it is named; a core whose watchdog expires three times in 4,096 epochs is retired with its pair.
The model's own readings here: log entry 87. -/
def Obligations.HeartbeatsAndTheDownSet : Prop :=
  (∀ (s : State) (b : List Byte) (me : Nat), s.storedMap = some b → s.selfMember = some me →
      (s.dev.job.beatSent ≠ some s.dev.epoch → Ends .heartbeatSend s fun t => t.dev.job.beatSent = some s.dev.epoch
        ∧ (∃ q ∈ t.dev.job.beats, q.node = s.dev.rd Reg.fabNodeNodeId ∧ q.epoch = s.dev.epoch ∧ q.misses = s.dev.job.misses.length ∧ q.flags = s.dev.beatFlags)
        ∧ ∀ i, relayed b = false → me ≠ mapCoordinator b → mapCoordinator b < mapMembers b → s.dev.peerOf (memberNode b (mapCoordinator b)) = some i →
            (s.dev.peerSeq i).relOut < (t.dev.peerSeq i).relOut)
      ∧ (s.dev.job.beatSent = some s.dev.epoch → Ends .heartbeatSend s fun t => t = s.settle)
      ∧ (relayed b = true → isRelay me = true → Ends .heartbeatSetSend s fun t => t.dev.job = s.dev.job
        ∧ ∀ i, me ≠ mapCoordinator b → s.dev.peerOf (memberNode b (mapCoordinator b)) = some i → (s.dev.peerSeq i).relOut < (t.dev.peerSeq i).relOut)
      ∧ (∀ m cause, me = s.actingCoordinator b → m < mapMembers b → m ≠ me → memberOf b (memberNode b m) = some m → memberNode b m ∉ s.dev.job.down →
          memberNode b m ∉ s.dev.job.declared → (∀ x ∈ s.dev.job.downDue, x.2.1 ≠ m) → s.downCause b m = some cause →
        Ends .downDeclare s fun t => memberNode b m ∈ t.dev.job.declared ∧ (s.downEffective cause, m, cause) ∈ t.dev.job.downDue))
  ∧ (∀ (s : State) (b : List Byte), s.storedMap = some b → s.dev.epc.inCairn = true → s.mapFirst = false →
      let due := s.dev.job.downDue.filter fun (e, m, _) => decide (e ≤ s.dev.epoch) && decide (m < mapMembers b)
      Ends .downSetApply s fun t => (∀ x ∈ due, memberNode b x.2.1 ∈ t.dev.job.down) ∧ (∀ n ∈ s.dev.job.down, n ∈ t.dev.job.down)
        ∧ t.dev.job.downDue = s.dev.job.downDue.filter (fun x => !due.contains x) ∧ Counted Ctr.fltDownApplied due.length s t
        ∧ ((∃ x ∈ due, memberNode b x.2.1 = s.dev.rd Reg.fabNodeNodeId) → s.dev.rd Reg.glbState = 5 → t.dev.rd Reg.glbState = 6)
        ∧ ((∀ x ∈ due, memberNode b x.2.1 ≠ s.dev.rd Reg.fabNodeNodeId) → t.dev.rd Reg.glbState = s.dev.rd Reg.glbState))
  ∧ (∀ (s : State) (core : Nat), core < 8 → core ∉ s.dev.job.retired → bit (s.dev.rd Reg.fltStatusPairs) (core % 4) = true →
    Ends (.watchdogExpire core) s fun t => Recorded .fltWatchdog t ∧ Counted Ctr.fltWatchdogResets 1 s t ∧ (core, s.dev.epoch) ∈ t.dev.job.resets
      ∧ (2 ≤ (s.dev.job.resets.filter fun r => decide (r.1 = core) && decide (s.dev.epoch < r.2 + 4096)).length →
          core ∈ t.dev.job.retired ∧ bit (t.dev.rd Reg.fltStatusPairs) (core % 4) = false ∧ Recorded .fltCoreRetired t)
      ∧ ((s.dev.job.resets.filter fun r => decide (r.1 = core) && decide (s.dev.epoch < r.2 + 4096)).length < 2 → t.dev.job.retired = s.dev.job.retired))

/-! ### The host -/

/-- R400, R403, R405, R407, R411: before an entry is carried out, a fetch that fails ends it as DMA_ERROR, a state that does not accept it as WRONG_STATE, a reserved opcode or a wrong class as
BAD_ENTRY, and a tenant that is not the function's as TENANT_REFUSED; the head moves past it.
The model's own readings here: log entries 19, 91. -/
def Obligations.HostEntriesAreTestedFirst : Prop :=
  ∀ (s : State) (d : Dev) (c : Instr) (op fn ring len : Nat) (entry : List Byte) (x : Dma) (late : Bool), HostEntry c op fn ring entry len x →
      s.dev.takeEntry fn ring = some (d, late) →
      let cls := s.dev.rd (Reg.ringCtrlClass fn ring)
      let k := fieldAt entry 0 1
      let e := Dev.entryRef fn ring entry
      let st := s.dev.rd Reg.glbState
      let ends (status : Nat) : Prop := Ends c s fun t => t.dev.host.ended = s.dev.host.ended ++ [Dev.endEntry e 0 0 status]
        ∧ t.dev.rd (Reg.ringPtrsSqHead fn ring) = (s.dev.rd (Reg.ringPtrsSqHead fn ring) + 1) % s.dev.sqSize fn ring % 65536 ∧ t.dev.ingress = s.dev.ingress
      (∀ f, s.dev.dmaFails x (entryAt s fn ring) = some f → Ends c s fun t => Recorded .hostDmaError t
          ∧ ∃ q, t.dev.host.ended = s.dev.host.ended ++ [q] ∧ q.fn = fn ∧ q.ring = ring ∧ q.status = csDmaError ∧ (f.entry = false → q.seq = fieldAt entry 8 8))
      ∧ (s.dev.dmaFails x (entryAt s fn ring) = none → (k = op ∨ opReserved k = true) →
          (hostAccepts st cls k fn = false → ends csWrongState)
          ∧ (hostAccepts st cls k fn = true → (opReserved k = true ∨ cls ≠ opClass k ∨ (cls = 2 ∧ fn ≠ 0) ∨ (opClass k ≠ 2 ∧ 64 ≤ fieldAt entry 1 1)) → ends csBadEntry)
          ∧ (hostAccepts st cls k fn = true → k = op → cls = opClass k → (cls = 2 → fn = 0) → (opClass k ≠ 2 → fieldAt entry 1 1 < 64) →
              s.dev.tenantOk fn e.tenant = false → ends csTenantRefused))

/-- R404, R405, R476: a QUERY and an OPERATION that are sound wait for the cut-off, and a bad record is refused; a PLAN_SUPPLY that matches its check value fills the inactive bank and starts its
VERIFY; an IMAGE_SUPPLY ends DONE when its image is accepted and written, and otherwise CHECK_FAILED.
The model's own readings here: log entries 43, 90, 108. -/
def Obligations.HostEntriesAreCarriedOut : Prop :=
  (∀ (s u : State) (fn ring : Nat) (entry record : List Byte) (x : Dma) (e : HostRef) (late : Bool), Fetches s opQuery fn ring entry (fieldAt entry 4 4) x e late u →
      let n := fieldAt entry 4 4
      let addr := fieldAt entry 24 8
      let cap := fieldAt entry 32 4
      let r : Request := { tenant := e.tenant, seq := e.seq, body := padTo n record, origin := .ring fn ring addr cap }
      24 ≤ n → n ≤ 16408 → Dev.zeros entry 2 2 = true → Dev.zeros entry 36 28 = true → addr % 64 = 0 → 48 + 16 * queryK r.body ≤ cap →
      (queryOk r.body = true → Ends (.hostQuery fn ring entry record x) s fun t => t.dev.ingress.arriving = s.dev.ingress.arriving ++ [r]
        ∧ t.dev.host.ended = s.dev.host.ended ∧ Counted Ctr.hstFetchLate (if late then 1 else 0) s t)
      ∧ (queryOk r.body = false → Ends (.hostQuery fn ring entry record x) s fun t => t.dev.ingress = s.dev.ingress
        ∧ ∃ c, t.dev.host.ended = s.dev.host.ended ++ [c] ∧ c.seq = e.seq ∧ c.result = rsBadRecord ∧ c.status = csDone))
  ∧ (∀ (s u : State) (fn ring : Nat) (entry body : List Byte) (x : Dma) (e : HostRef) (late : Bool), Fetches s opOperation fn ring entry (fieldAt entry 4 4) x e late u →
      let r : Request := { tenant := e.tenant, seq := e.seq, body := padTo (fieldAt entry 4 4) body, origin := .ring fn ring 0 0 }
      Dev.zeros entry 2 2 = true → Dev.zeros entry 24 40 = true →
      (opBodyOk r.body = true → Ends (.hostOperation fn ring entry body x) s fun t => t.dev.ingress.arrivingOps = s.dev.ingress.arrivingOps ++ [r]
        ∧ Counted Ctr.hstFetchLate (if late then 1 else 0) s t)
      ∧ (opBodyOk r.body = false → Ends (.hostOperation fn ring entry body x) s fun t => t.dev.ingress = s.dev.ingress ∧ Counted Ctr.idxOpsRefused 1 s t
        ∧ ∃ c, t.dev.host.ended = s.dev.host.ended ++ [c] ∧ c.seq = e.seq ∧ c.result = ostBadRecord))
  ∧ (∀ (s u : State) (fn ring : Nat) (entry list content : List Byte) (x : Dma) (e : HostRef) (late : Bool) (v : Nat),
      Fetches s opPlan fn ring entry (list.length + content.length) x e late u → State.mgmtOk entry list content = true → s.dev.host.plan = none →
      (u.dev.tap4 0 content).2 = some v →
      (v = fieldAt entry 56 4 → MemorySafe s → Ends (.planSupply fn ring entry list content x) s fun t => t.dev.host.plan = some e
        ∧ t.dev.rd (Reg.plnStatusVerifying s.dev.idleBank) = 1 ∧ t.dev.rd (Reg.plnStatusValid s.dev.idleBank) = 0
        ∧ t.mem.read .hdr (s.dev.idleBank * 512) 512 = padTo 512 content ∧ t.dev.activeBank = s.dev.activeBank)
      ∧ (v ≠ fieldAt entry 56 4 → Ends (.planSupply fn ring entry list content x) s fun t => t.dev.host.plan = none
        ∧ t.dev.host.ended = s.dev.host.ended ++ [Dev.endEntry e 0 0 csCheckFailed]))
  ∧ (∀ (s u : State) (fn ring t : Nat) (entry list content : List Byte) (x : Dma) (bad : Option (Nat × Nat)) (e : HostRef) (late : Bool) (v : Nat),
      Fetches (s.onDev (·.clock t)) opImage fn ring entry (list.length + content.length) x e late u → State.mgmtOk entry list content = true →
      Dev.zeros entry 24 8 = true → content.length ≤ u.imageMax → s.dev.mon.load = none → (u.dev.tap4 0 content).2 = some v → v = fieldAt entry 56 4 →
      let w := (State.stage { u with dev := (u.dev.tap4 0 content).1 } 0 content).onDev fun d => { d with mon := { d.mon with staged := 0, accepted := false } }
      (s.dev.inState stReady = true → Ends (.imageSupply fn ring t entry list content x bad) s fun z =>
        z.dev.host.ended = (w.supplyImage bad).1.dev.host.ended ++ [Dev.endEntry e 0 0 (if (w.supplyImage bad).2 then csDone else csCheckFailed)])
      ∧ (s.dev.inState stRecovery = true → Ends (.imageSupply fn ring t entry list content x bad) s fun z =>
        if (w.supplyImage bad).2 then z.dev.rd Reg.glbState = 1 ∧ z.dev.boot = {}
        else z.dev.host.ended = (w.supplyImage bad).1.dev.host.ended ++ [Dev.endEntry e 0 0 csCheckFailed]))

/-- R237, R242, R247, R335, R403, R404: a bulk load, from a ring or over the fabric. NEW into the strata or stacks leaves its content at the home, the record HOME and the entry DONE; REPLACE starts a
move of kind 1 with its content; content that fails its check value ends CHECK_FAILED.
The model's own readings here: log entries 80, 94. -/
def Obligations.BulkLoadsReachTheirHome : Prop :=
  ∀ (s u : State) (c : Instr) (entry content : List Byte) (p : Place) (e : HostRef) (r : HomeRec) (v : Nat), BulkStarts c s entry content true p e u →
      let flags := fieldAt entry 2 2
      let datum := fieldAt entry 24 4
      let tier := fieldAt entry 32 1
      let dest := if fieldAt entry 48 8 = 0 then p.dest else fieldAt entry 48 8
      let want := fieldAt entry 56 4
      flags < 8 → bit flags 2 = false → Dev.zeros entry 28 4 = true → Dev.zeros entry 33 3 = true → Dev.zeros entry 60 4 = true → tier < 2 →
      TableAlone s → (∀ n, n < s.dev.val Reg.homeCount → (s.homeGet n).isSome = true) → datum < s.dev.val Reg.homeCount → s.homeGet datum = some r →
      (bit flags 0 = true → r.state = hsEmpty → p.referrer ≤ 2 → (p.referrer = 1 → dest % 65536 = 0) →
          let len := roundUp content.length (if p.referrer = 1 then 65536 else 64)
          s.inTierRange tier dest len = true → s.homeOverlap tier dest len = none → (u.dev.tap4 dest content).2 = some v →
          (u.dev.charge e.tenant tier (u.dev.chargeOf tier len)).2 = true → e.tenant < 64 →
        (v = want → MemorySafe s → Quiet s → s.dev.cvu.faulty = [] → PlainAt s dest len →
            (∀ i j, i < len → j < 64 → s.xlate (dest + i) ≠ s.xlate (s.homeAddr datum + j)) →
          Ends c s fun t => HoldsAt t dest (padTo len content)
            ∧ t.homeGet datum = some { datum, owner := e.tenant, state := hsHome, tier, destTier := 0, home := dest, length := len, dest := 0, referrer := p.referrer, kind := 0, arm := 0, freeAt := 0, chunksLeft := 0 }
            ∧ t.dev.usedOf e.tenant tier = s.dev.usedOf e.tenant tier + s.dev.chargeOf tier len
            ∧ Dev.rung [Dev.endEntry e 0 0 csDone] <+: t.dev.host.ended.drop s.dev.host.ended.length)
        ∧ (v ≠ want → Ends c s fun t => Recorded .tierMoveCheck t ∧ Counted Ctr.tierMovesAbandoned 1 s t
            ∧ t.dev.host.ended = s.dev.host.ended ++ Dev.rung [Dev.endEntry e 0 0 csCheckFailed]))
      ∧ (bit flags 0 = false → r.state = hsHome → r.tier ≠ 2 → r.referrer ≠ 1 → content.length ≤ r.length →
          s.inTierRange tier dest r.length = true → s.homeOverlap tier dest r.length = none → (u.dev.tap4 dest content).2 = some want →
          (u.dev.charge (ownerOf r) tier (u.dev.chargeOf tier r.length)).2 = true → MemorySafe s → Quiet s → s.dev.cvu.faulty = [] →
        Ends c s fun t => t.homeGet datum = some { r with state := hsCopying, destTier := tier, dest, kind := 1, arm := fieldAt entry 36 4, freeAt := 0, chunksLeft := ceilDiv r.length 4096 }
          ∧ (∃ w, t.dev.tier.moves = s.dev.tier.moves ++ [w] ∧ w.datum = datum ∧ w.content = content ∧ w.expect = some (want, content.length) ∧ w.entry = some e)
          ∧ t.dev.host.ended = s.dev.host.ended ∧ Counted Ctr.tierMovesStarted 1 s t)

/-- R405 to R409, R412: doorbells. New entries arrive and a pointer out of range stops the ring with HOST_DOORBELL_BAD; a completion is written with its phase, held while its CQ is full, or
discarded when the hold is full; the vector is raised by INT_COUNT or INT_US; ENABLE starts and stops a pair.
The model's own readings here: log entries 91, 92. -/
def Obligations.RingsAndCompletions : Prop :=
  (∀ (s : State) (fn ring v : Nat), fn < 32 → ring < 16 → s.dev.ringLive fn ring = true →
      let n := s.dev.sqSize fn ring
      let head := s.dev.rd (Reg.ringPtrsSqHead fn ring)
      let bad := n ≤ v % 65536 ∨ Dev.ringDist n head (v % 65536) < Dev.ringDist n head (s.dev.sqTail fn ring)
      (¬ bad → Ends (.sqTailDoorbell fn ring v) s fun t => t.dev.sqTail fn ring = v % 65536
        ∧ t.dev.host.arrived = s.dev.host.arrived ++ List.replicate (Dev.ringDist n (s.dev.sqTail fn ring) (v % 65536)) { fn, ring, late := false }
        ∧ Counted (Ctr.fnSubmitted fn) (Dev.ringDist n (s.dev.sqTail fn ring) (v % 65536)) s t)
      ∧ (bad → Ends (.sqTailDoorbell fn ring v) s fun t => t.dev.rd (Reg.ringStatusError fn ring) = 1 ∧ Counted Ctr.hstDoorbellsBad 1 s t ∧ Recorded .hostDoorbellBad t
        ∧ t.dev.host = s.dev.host))
  ∧ (∀ (s : State) (fn ring v t : Nat), fn < 32 → ring < 16 → s.dev.ringLive fn ring = true →
      let n := s.dev.cqSize fn ring
      let tail := s.dev.rd (Reg.ringPtrsCqTail fn ring)
      let bad := n ≤ v % 65536 ∨ Dev.ringDist n (s.dev.cqHead fn ring) tail < Dev.ringDist n (s.dev.cqHead fn ring) (v % 65536)
      (¬ bad → Ends (.cqHeadDoorbell fn ring v t) s fun u => u.dev.cqHead fn ring = v % 65536
        ∧ ((∃ c ∈ u.dev.host.hold, c.fn = fn ∧ c.ring = ring) → u.dev.cqFull fn ring = true))
      ∧ (bad → Ends (.cqHeadDoorbell fn ring v t) s fun u => u.dev.rd (Reg.ringStatusError fn ring) = 1 ∧ Counted Ctr.hstDoorbellsBad 1 s u ∧ u.dev.host = s.dev.host))
  ∧ (∀ (s : State) (k t : Nat) (x : Dma) (c : Completion), s.dev.host.ended[k]? = some c → c.gone = false → s.dev.ringLive c.fn c.ring = true →
      s.dev.dmaFails x (if c.addr ≠ 0 then c.addr else s.dev.rd (Reg.cqBase c.fn c.ring)) = none →
      (s.dev.cqFull c.fn c.ring = false → Ends (.completionPost k t x) s fun u => u.dev.host.ended = s.dev.host.ended.eraseIdx k
        ∧ u.dev.rd (Reg.ringPtrsCqTail c.fn c.ring) = (s.dev.rd (Reg.ringPtrsCqTail c.fn c.ring) + 1) % s.dev.cqSize c.fn c.ring % 65536
        ∧ Counted (Ctr.fnCompleted c.fn) 1 s u
        ∧ u.dev.out = s.dev.out ++ [.hostWrite c.fn (s.dev.rd (Reg.cqBase c.fn c.ring) + 32 * s.dev.rd (Reg.ringPtrsCqTail c.fn c.ring))
            (Dev.completionBytes c (s.dev.rd (Reg.ringPtrsSqHead c.fn c.ring)) (if s.dev.host.wraps.contains (ringKey c.fn c.ring) then 0 else 1)) false])
      ∧ (s.dev.cqFull c.fn c.ring = true → s.dev.host.hold.length < 4096 → Ends (.completionPost k t x) s fun u => u.dev.host.ended = s.dev.host.ended.eraseIdx k
        ∧ u.dev.host.hold = s.dev.host.hold ++ [c])
      ∧ (s.dev.cqFull c.fn c.ring = true → 4096 ≤ s.dev.host.hold.length → Ends (.completionPost k t x) s fun u => Counted (Ctr.fnDiscarded c.fn) 1 s u
        ∧ (ringKey c.fn c.ring ∉ s.dev.host.overflowSaid → Recorded .hostCqOverflow u) ∧ u.dev.host.hold = s.dev.host.hold))
  ∧ (∀ (s : State) (fn ring t n since : Nat), s.dev.ringOn fn ring = true → t < 2 ^ 64 →
      (s.dev.host.unsignalled.find? (·.1 = ringKey fn ring)) = some (ringKey fn ring, n, since) →
      (s.dev.rd (Reg.ringIntIntCount fn ring) ≤ n ∨ since + 1000 * s.dev.rd (Reg.ringIntIntUs fn ring) ≤ max s.dev.now t) →
    Ends (.cqInterrupt fn ring t) s fun u => u.dev.out = s.dev.out ++ [.msix fn (s.dev.rd (Reg.ringCtrlVector fn ring))]
      ∧ ∀ x ∈ u.dev.host.unsignalled, x.1 ≠ ringKey fn ring)
  ∧ (∀ (s : State) (fn ring : Nat), fn < 32 → ring < 16 → s.dev.inState stSleep = false →
      Ends (.ringEnableWrite fn ring true) s (fun t => t.dev.rd (Reg.ringCtrlEnable fn ring) = 1 ∧ SameRegsBut [Reg.ringCtrlEnable fn ring] s t)
      ∧ Ends (.ringEnableWrite fn ring false) s fun t => t.dev.rd (Reg.ringCtrlEnable fn ring) = 0 ∧ t.dev.rd (Reg.ringStatusError fn ring) = 0
          ∧ t.dev.rd (Reg.ringPtrsSqHead fn ring) = 0 ∧ t.dev.rd (Reg.ringPtrsCqTail fn ring) = 0 ∧ (∀ c ∈ t.dev.host.hold, ¬ (c.fn = fn ∧ c.ring = ring))
          ∧ Counted (Ctr.fnDiscarded fn) (s.dev.host.hold.filter fun c => c.fn = fn && c.ring = ring).length s t
          ∧ SameRegsBut [Reg.ringCtrlEnable fn ring, Reg.ringStatusError fn ring, Reg.ringPtrsSqHead fn ring, Reg.ringPtrsCqTail fn ring] s t)

/-- R397 to R401, R410, R411, R413, R480: resets of functions and of the host controller, failed streams, the link, BAR4 and configuration requests.
The model's own readings here: log entries 93, 95, 96, 97. -/
def Obligations.HostResetsAndLink : Prop :=
  (∀ (s : State) (fn : Nat), fn < 32 → Ends (.functionLevelReset fn) s fun t => Recorded .hostFlr t
      ∧ (∀ r, r < 16 → t.dev.rd (Reg.ringCtrlEnable fn r) = 0) ∧ (∀ c ∈ t.dev.host.hold, c.fn = fn → 16 ≤ c.ring) ∧ (∀ q ∈ t.dev.host.queries, q.ref.fn ≠ fn))
  ∧ (∀ s : State, s.dev.inState stSleep = false → Ends .perstNAssert s fun t => (∀ fn r, fn < 32 → r < 16 → t.dev.rd (Reg.ringCtrlEnable fn r) = 0)
      ∧ t.dev.rd Reg.hstStatusWidth = 0 ∧ t.dev.rd Reg.hstStatusDebugEn = s.dev.rd Reg.hstStatusDebugEn ∧ t.dev.host.ended = [] ∧ t.dev.host.queries = []
      ∧ (∀ f : Field, f.lsb < 64 → (f.off < 0x100000 ∨ 0x140000 ≤ f.off) → t.dev.rd f = s.dev.rd f) ∧ t.dev.seq = s.dev.seq ∧ t.dev.epc = s.dev.epc)
  ∧ (∀ (s : State) (stream : Nat), stream ∈ s.dev.host.keyed → Ends (.ideTlpFail stream) s fun t => stream ∈ t.dev.host.insecure ∧ Counted Ctr.hstIdeFails 1 s t
      ∧ Recorded .hostIdeFail t ∧ (stream = 0 → t.dev.rd Reg.hstStatusIdeSecure = 0))
  ∧ (∀ (s : State) (rate width : Nat), s.dev.inState stSleep = false → rate ≤ 5 → width ∈ [1, 4, 8, 16] →
    Ends (.hostLinkTrained rate width) s fun t => t.dev.rd Reg.hstStatusRate = rate ∧ t.dev.rd Reg.hstStatusWidth = width ∧ Counted Ctr.hstLinkTrainings 1 s t
      ∧ (¬ (rate = 5 ∧ width = 16) → Recorded .hostLinkDegraded t)
      ∧ (rate = 5 → width = 16 → SameRegsBut [Reg.hstStatusRate, Reg.hstStatusWidth] s t))
  ∧ (∀ s : State, Ends .hostLinkDown s fun t => t.dev.rd Reg.hstStatusWidth = 0 ∧ t.dev.rd Reg.hstStatusRate = 0
      ∧ SameRegsBut [Reg.hstStatusRate, Reg.hstStatusWidth] s t)
  ∧ (∀ (s : State) (a n : Nat), s.dev.inState stSleep = false → a + n ≤ 0x400000000 →
    Ends (.bar4Read a n) s fun t => (s.dev.flag Reg.hstStatusDebugEn = true → t.dev.out = s.dev.out ++ [.readData a (leNat (s.devRead a n).1)] ∧ t.dev.ctr = s.dev.ctr)
      ∧ (s.dev.flag Reg.hstStatusDebugEn = false → t.dev.out = s.dev.out ++ [.readData a 0] ∧ Counted Ctr.hstDebugReadsBlocked 1 s t) ∧ t.dev.regs = s.dev.regs)
  ∧ (∀ s : State, s.dev.inState stSleep = false → Ends .configurationRequest s fun t =>
      t.dev.out = s.dev.out ++ [.config (s.dev.boot.config || !s.dev.inState stBoot)] ∧ t.dev.regs = s.dev.regs)

/-! ### Register accesses and apply points -/

/-- R6, R8, R9, R71, R411, R503, R504: a write of a plain register gives each field what its access code says; unmapped and bad accesses are counted and
read 0; a read of a counter's lower half latches its upper half, which a read of the upper register returns, and one of 64 bits returns it whole; SUMP_PEAK is cleared by a read; a block that the state does not accept changes nothing.
The model's own readings here: log entries 96, 116. -/
def Obligations.RegisterAccesses : Prop :=
  (∀ (s : State) (off size v : Nat) (e : WriteEnv), PlainReg off size → s.dev.inState stSleep = false → s.dev.accepts agHost off = true → e.t ≤ s.dev.now →
      (∀ f ∈ Reg.fieldsAt off, f.acc = .rw → s.dev.gateOpen f (bits v f.lsb f.width) = true ∧ Dev.inRange f (bits v f.lsb f.width) = true) →
    Ends (.registerWrite off size v e) s fun t => ∀ f ∈ Reg.fieldsAt off, t.dev.rd f =
      match f.acc with
      | .rw => bits v f.lsb f.width
      | .w1c => (s.dev.rd f &&& (2 ^ f.width - 1 - bits v f.lsb f.width)) % 2 ^ f.width
      | _ => s.dev.rd f)
  ∧ (∀ (s : State) (off size v : Nat) (e : WriteEnv), PlainReg off size → s.dev.inState stSleep = false → s.dev.accepts agHost off = true → e.t ≤ s.dev.now →
    Ends (.registerWrite off size v e) s fun t => ∀ f ∈ Reg.fieldsAt off, f.acc = .rw → f.couple = .none →
      (s.dev.gateOpen f (bits v f.lsb f.width) = false ∨ Dev.inRange f (bits v f.lsb f.width) = false) →
      (∀ g ∈ Reg.fieldsAt off, g ≠ Reg.epcLenLength ∧ g ≠ Reg.idxLists) → t.dev.rd f = s.dev.rd f)
  ∧ (∀ (s : State) (off v : Nat) (e : WriteEnv), s.dev.inState stSleep = false → off < 0x4000000 → off % 4 = 0 → e.t ≤ s.dev.now →
      (s.dev.accepts agHost off = false → Ends (.registerWrite off 4 v e) s fun t => t = s.settle)
      ∧ (s.dev.accepts agHost off = true → Reg.listed off = false → Reg.inDebug off = false → Ends (.registerWrite off 4 v e) s fun t =>
          t.dev.rd Reg.glbAccessUnmapped = 1 ∧ Counted Ctr.glbUnmappedAccesses 1 s t ∧ SameRegsBut [Reg.glbAccessUnmapped, Reg.glbAccessAddrOffset] s t))
  ∧ (∀ (s : State) (agent off : Nat), agent < 3 → Ctr.isCounter off = true → Reg.listed off = true → Reg.inDebug off = false → Reg.inHeaders off = false →
      s.dev.inState stSleep = false → s.dev.accepts agent off = true →
    (off % 4 = 0 → off < 0x4000000 → Ends (.counterLowerRead agent ⟨off, 4⟩) s fun t => t.dev.out = s.dev.out ++ [.readData off (s.dev.counted off % 2 ^ 32)]
      ∧ (agent, off, s.dev.counted off / 2 ^ 32) ∈ t.dev.latch.read ∧ t.dev.regs = s.dev.regs ∧ t.dev.ctr = s.dev.ctr)
    ∧ (off % 8 = 0 → off < 0x4000000 → Ends (.counterLowerRead agent ⟨off, 8⟩) s fun t => t.dev.out = s.dev.out ++ [.readData off (s.dev.counted off)]
      ∧ t.dev.latch = s.dev.latch ∧ t.dev.regs = s.dev.regs ∧ t.dev.ctr = s.dev.ctr))
  ∧ (∀ (s : State) (agent off hi : Nat), agent < 3 → Ctr.isCounter off = true → Reg.listed (off + 4) = true → Reg.inDebug (off + 4) = false →
      Reg.inHeaders (off + 4) = false → Reg.wide (off + 4) = false → Ctr.isCounter (off + 4) = false → off % 4 = 0 → off + 4 < 0x4000000 →
      s.dev.inState stSleep = false → s.dev.accepts agent (off + 4) = true → (s.dev.latch.read.find? fun x => x.1 = agent && x.2.1 = off) = some (agent, off, hi) →
    Ends (.counterLowerRead agent ⟨off + 4, 4⟩) s fun t => t.dev.out = s.dev.out ++ [.readData (off + 4) hi]
      ∧ (∀ x ∈ t.dev.latch.read, ¬ (x.1 = agent ∧ x.2.1 = off)) ∧ t.dev.regs = s.dev.regs ∧ t.dev.ctr = s.dev.ctr)
  ∧ (∀ (s : State) (agent c : Nat), agent < 3 → c < 256 → s.dev.inState stSleep = false → s.dev.accepts agent (Reg.sumpPeak c).off = true →
    Ends (.sumpPeakRead agent c) s fun t => t.dev.out = s.dev.out ++ [.readData (Reg.sumpPeak c).off (s.dev.rd (Reg.sumpPeak c))] ∧ t.dev.rd (Reg.sumpPeak c) = 0
      ∧ SameRegsBut [Reg.sumpPeak c] s t)
  ∧ (∀ (s : State) (write : Bool) (off size : Nat), s.dev.inState stSleep = false → off < 0x4000000 → ¬ ((size = 4 ∧ off % 4 = 0) ∨ (size = 8 ∧ off % 8 = 0)) →
    Ends (.badAccess write off size) s fun t => t.dev.rd Reg.glbAccessBadAccess = 1 ∧ Counted Ctr.glbBadAccesses 1 s t
      ∧ t.dev.out = s.dev.out ++ (if write then [] else [.readData off 0]) ∧ SameRegsBut [Reg.glbAccessBadAccess, Reg.glbAccessAddrOffset] s t)

/-- R504: a 32-bit write to the lower register of a writable 64-bit quantity loads the agent's latch and changes nothing else; one to the upper register commits the upper
value and the latched lower value as one write; without such a write the latch holds the register's present lower half; a 64-bit write commits both halves at once. -/
def Obligations.WideWritesGoThroughTheLatch : Prop :=
  (∀ (s : State) (agent off v : Nat), agent < 3 → Reg.wide off = true → Reg.listed off = true → Reg.inDebug off = false → Reg.inHeaders off = false → State.writable off = true →
      s.dev.inState stSleep = false → s.dev.accepts agent off = true →
    Ends (.lowerHalfWrite agent off v) s fun t => State.latchGet t.dev agent off = v % 2 ^ 32 ∧ t.dev = { s.settle.dev with latch := t.dev.latch } ∧ t.mem = s.settle.mem)
  ∧ (∀ (s : State) (off v : Nat) (e : WriteEnv), PlainReg off 8 → State.writable off = true → Reg.listed (off + 4) = true → Reg.inDebug (off + 4) = false →
      Reg.inHeaders (off + 4) = false → Reg.wide (off + 4) = false → s.dev.inState stSleep = false → s.dev.accepts agHost (off + 4) = true → e.t ≤ s.dev.now →
      let whole := v % 2 ^ 32 * 2 ^ 32 + State.latchGet s.dev agHost off
      (∀ f ∈ Reg.fieldsAt off, f.acc = .rw → s.dev.gateOpen f (bits whole f.lsb f.width) = true ∧ Dev.inRange f (bits whole f.lsb f.width) = true) →
    Ends (.registerWrite (off + 4) 4 v e) s fun t => (∀ f ∈ Reg.fieldsAt off, f.acc = .rw → t.dev.rd f = bits whole f.lsb f.width)
      ∧ State.latchGet t.dev agHost off = ((Reg.fieldsAt off).map fun f => t.dev.rd f * 2 ^ f.lsb).sum % 2 ^ 32)
  ∧ (∀ (s : State) (off v : Nat) (e : WriteEnv), PlainReg off 8 → s.dev.inState stSleep = false → s.dev.accepts agHost off = true → e.t ≤ s.dev.now →
      (∀ f ∈ Reg.fieldsAt off, f.acc = .rw → s.dev.gateOpen f (bits v f.lsb f.width) = true ∧ Dev.inRange f (bits v f.lsb f.width) = true) →
    Ends (.registerWrite off 8 v e) s fun t => ∀ f ∈ Reg.fieldsAt off, f.acc = .rw → t.dev.rd f = bits v f.lsb f.width)
  ∧ (∀ (d : Dev) (agent off : Nat), (∀ x ∈ d.latch.write, x.1 = agent → x.2.1 ≠ off) →
      State.latchGet d agent off = ((Reg.fieldsAt off).map fun f => d.rd f * 2 ^ f.lsb).sum % 2 ^ 32)

/-- R9, R483, R484: while no epochs run, an apply point puts into effect every waiting field of no pair that takes effect at a cairn; a written pair that agrees is adopted whole, and one
that disagrees keeps what it had and is pending; the values read stay as they are.
The model's own readings here: log entries 117, 118. -/
def Obligations.ApplyPointsPutValuesIntoEffect : Prop :=
  ∀ (s : State) (t : Nat), s.dev.running = false → s.dev.inState stSleep = false →
    (∀ f ∈ s.dev.regs.waiting, ∀ g ∈ s.dev.regs.waiting, f.key = g.key → f = g) → (∀ f ∈ s.dev.regs.waiting, ∀ g ∈ applyFields, g.key ≠ f.key) →
    (∀ f ∈ s.dev.regs.waiting, ∀ c ∈ .epcLen :: cairnCouples, ∀ g ∈ c.fields, f.key = g.key → f = g) →
    Ends (.applyPoint t) s fun u => SameRegsBut applyFields s u
      ∧ (∀ f ∈ s.dev.regs.waiting, f.couple = .none → f.app = .cairn → u.dev.val f = s.dev.rd f ∧ f ∉ u.dev.regs.waiting)
      ∧ ∀ c ∈ cairnCouples, c ≠ .seg → s.dev.coupleDue c = true →
          (s.agrees 0 c = true → c ∉ u.dev.regs.pendingCouples ∧ ∀ f ∈ c.fields, u.dev.val f = s.dev.rd f)
          ∧ (s.agrees 0 c = false → c ∈ u.dev.regs.pendingCouples ∧ ∀ f ∈ c.fields, u.dev.val f = s.dev.val f)

/-! ### The Padon monitor -/

/-- R492 to R497: RD, CNT and MEM print what registers, counters and memory hold, WR writes as a host write would, FAULTS prints the newest records, STATE, SENSORS and
LINKS print what R494 lists, and DEBUG sets DEBUG_EN. The form of the lines is the model's (log entry 29). R492, R493, R494, R500: a line that is too long, of no keyword, or refused for its state is answered with its ERR and does nothing else.
The model's own readings here: log entries 111, 113. -/
def Obligations.TheMonitorAnswersLines : Prop :=
  ((∀ (s : State) (line a : List Char) (off : Nat), MonLine s line ['R', 'D'] [a] → parseHex a = some off → off % 4 = 0 → off + 4 ≤ 0x4000000 →
      Ends (.rd line) s fun t => Says s t [hexText 8 off ++ " " ++ hexText 8 (s.read32 agMonitor off).2, "OK"] ∧ t.mem = s.settle.mem
        ∧ t.dev.regs = (s.read32 agMonitor off).1.dev.regs)
    ∧ (∀ (s : State) (line a b : List Char) (off v : Nat) (e : WriteEnv), MonLine s line ['W', 'R'] [a, b] → parseHex a = some off → parseHex b = some v →
        off % 4 = 0 → off + 4 ≤ 0x4000000 → v < 2 ^ 32 →
      Ends (.wr line e) s fun t => ∃ u : State, u = (s.onDev (·.clock e.t)).regWrite agMonitor off 4 v e ∧ Says u t ["OK"] ∧ OutOnly u t)
    ∧ (∀ (s : State) (line a : List Char) (off : Nat), MonLine s line ['C', 'N', 'T'] [a] → parseHex a = some off → off % 8 = 0 → off + 8 ≤ 0x4000000 →
        Ctr.isCounter off = true → (∀ o ∈ [off, off + 4], Reg.inDebug o = false ∧ Reg.listed o = true ∧ Reg.inHeaders o = false ∧ s.dev.accepts agMonitor o = true) →
        Reg.wide (off + 4) = false → Ctr.isCounter (off + 4) = false →
      Ends (.cnt line) s fun t => Says s t [hexText 8 off ++ " " ++ hexText 16 (s.dev.counted off), "OK"] ∧ t.dev.regs = s.dev.regs ∧ t.dev.ctr = s.dev.ctr
        ∧ t.mem = s.settle.mem)
    ∧ (∀ (s : State) (line a b : List Char) (addr n : Nat), MonLine s line ['M', 'E', 'M'] [a, b] → parseHex a = some addr → parseHex b = some n →
        1 ≤ n → n ≤ 4096 → State.inTier addr n = true → (addr < 0x1000000000 ∧ s.dev.bootToDrain = true ∨ s.dev.readyToDrain = true) →
      Ends (.memCmd line) s fun t => OutOnly s t ∧ ∃ lines : List String, Says s t (lines ++ ["OK"]) ∧ lines.length = (n + 31) / 32
        ∧ ∀ i, i < (n + 31) / 32 → lines[i]? = some (hexText 10 (addr + 32 * i) ++ " " ++ hexBytes (s.devBytes (addr + 32 * i) (min 32 (n - 32 * i)))
            ++ (if s.devPoison (addr + 32 * i) (min 32 (n - 32 * i)) then " POISON" else "")))
    ∧ (∀ (s : State) (line : List Char), MonLine s line ['F', 'A', 'U', 'L', 'T', 'S'] [] →
      Ends (.faults line) s fun t => OutOnly s t ∧ Says s t
        ((((if s.dev.booting then s.dev.flt.boot else s.dev.flt.recent).reverse.take 16).map fun r => hexBytes (Dev.recordBytes r)) ++ ["OK"]))
    ∧ (∀ (s : State) (line : List Char), MonLine s line ['S', 'T', 'A', 'T', 'E'] [] →
      Ends (.stateCmd line) s fun t => OutOnly s t ∧ Says s t ["STATE " ++ State.stateName (s.dev.rd Reg.glbState), s.regLine "EPC_NUMBER" 16 Reg.epcNumber.off,
        s.regLine "BT_STATUS" 8 Reg.btStatusImageValid.off, s.regLine "BT_FAIL" 8 Reg.btFailCode.off, s.regLine "AON_STATUS" 8 Reg.aonStatusTripped.off, "OK"])
    ∧ (∀ (s : State) (line : List Char), MonLine s line ['S', 'E', 'N', 'S', 'O', 'R', 'S'] [] →
      Ends (.sensors line) s fun t => OutOnly s t ∧ ∃ lines, Says s t (lines ++ ["OK"]) ∧ s.regLine "PWR_TEMP_MAX" 8 Reg.pwrTempMax.off ∈ lines
        ∧ (∀ i, i < 8 → s.regLine "PWR_TEMP_J" 8 (Reg.pwrTempJ i).off ∈ lines) ∧ (∀ i, i < 4 → s.regLine "PWR_TEMP_S" 8 (Reg.pwrTempS i).off ∈ lines)
        ∧ (∀ st, st < 12 → ∀ d, d < 4 → s.regLine "STK_TEMP" 8 (Reg.stkTemp st d).off ∈ lines)
        ∧ s.regLine "PWR_INPUT" 8 Reg.pwrInputVinMv.off ∈ lines ∧ s.regLine "PWR_POWER" 8 Reg.pwrPowerPinDw.off ∈ lines
        ∧ s.regLine "PWR_RAILS" 8 Reg.pwrRailsGood.off ∈ lines ∧ "PWR_STATUS.OPP " ++ hexText 1 (s.dev.rd Reg.pwrStatusOpp) ∈ lines)
    ∧ (∀ (s : State) (line : List Char), MonLine s line ['L', 'I', 'N', 'K', 'S'] [] →
      Ends (.links line) s fun t => OutOnly s t ∧ ∃ lines, Says s t (lines ++ ["OK"]) ∧ lines.length = 53 ∧ s.regLine "HST_STATUS" 8 Reg.hstStatusRate.off ∈ lines
        ∧ (∀ p, p < 8 → "PORT " ++ hexText 1 p ++ " " ++ hexText 1 (s.dev.rd (Reg.portStatusState p)) ++ " " ++ hexText 1 (s.dev.rd (Reg.portStatusSpeed p))
            ++ " " ++ hexText 8 (s.dev.rd (Reg.portPathDelay p)) ∈ lines)
        ∧ (∀ k, k < 12 → "STACK " ++ hexText 1 k ++ " " ++ hexText 1 (s.dev.rd (Reg.stkStatusTrained k)) ∈ lines)
        ∧ (∀ c, c < 32 → "CHANNEL " ++ hexText 2 c ++ " " ++ hexText 1 (s.dev.rd (Reg.chStatusTrained c)) ∈ lines))
    ∧ (∀ (s : State) (line a : List Char), MonLine s line ['D', 'E', 'B', 'U', 'G'] [a] →
        (a.map upper = ['O', 'N'] → Ends (.debugOn line) s fun t => t.dev.rd Reg.hstStatusDebugEn = 1 ∧ Says s t ["OK"] ∧ SameRegsBut [Reg.hstStatusDebugEn] s t)
        ∧ (a.map upper = ['O', 'F', 'F'] → Ends (.debugOff line) s fun t => t.dev.rd Reg.hstStatusDebugEn = 0 ∧ Says s t ["OK"]
            ∧ SameRegsBut [Reg.hstStatusDebugEn] s t)))
  ∧ ((∀ (s : State) (n : Nat), s.listening false = true → 255 < n → Ends (.lineTooLong n) s fun t => OutOnly s t ∧ Says s t ["ERR LONG"])
    ∧ (∀ (s : State) (line w : List Char) (args : List (List Char)), words line = w :: args → s.listening false = true → line.length ≤ 255 →
        w.map upper ∉ keywords →
      Ends (.unknownCommand line) s fun t => OutOnly s t ∧ Says s t ["ERR BADCMD"])
    ∧ (∀ (s : State) (line : List Char) (args : List (List Char)) (c : Instr),
        ((c = .loadCmd line ∧ MonLine s line ['L', 'O', 'A', 'D'] args ∧ s.dev.inState stRecovery = false ∧ s.dev.inState stReady = false)
          ∨ (∃ t bad, c = .norwrite line t bad ∧ MonLine s line ['N', 'O', 'R', 'W', 'R', 'I', 'T', 'E'] args ∧ s.dev.inState stRecovery = false
              ∧ s.dev.inState stReady = false)
          ∨ (c = .bootstaged line ∧ MonLine s line ['B', 'O', 'O', 'T', 'S', 'T', 'A', 'G', 'E', 'D'] args ∧ s.dev.inState stRecovery = false)
          ∨ (∃ t, c = .stepCmd line t ∧ MonLine s line ['S', 'T', 'E', 'P'] args ∧ (s.dev.inState stReady = false
              ∨ s.dev.rd Reg.poolMapVersionCurrent ≠ 0 ∨ s.dev.flag (Reg.plnStatusValid s.dev.activeBank) = false))) →
      Ends c s fun t => OutOnly s t ∧ Says s t ["ERR STATE"]))

/-- R498: LOAD opens a block transfer, a block whose CRC holds is staged and acknowledged, another is rejected, the ninth rejection and a gap of 5 s end the load with
staging empty, and the last block is followed by checks 1 to 5. R476, R494, R498, R499, R500: NORWRITE and BOOTSTAGED need an image that LOAD has staged; NORWRITE writes it to the NOR, and from RECOVERY the module then boots;
BOOTSTAGED boots from staging; STEP starts one epoch from the next whole microsecond of TIME, or answers BUSY.
The model's own readings here: log entries 105, 112. -/
def Obligations.ImagesAreLoadedAndUsedByTheMonitor : Prop :=
  ((∀ (s : State) (line a : List Char) (len : Nat), MonLine s line ['L', 'O', 'A', 'D'] [a] → parseHex a = some len →
        (s.dev.inState stRecovery = true ∨ s.dev.inState stReady = true) → 8192 ≤ len → len ≤ s.imageMax →
      Ends (.loadCmd line) s fun t => t.dev.mon = { load := some len } ∧ t.dev.regs = s.dev.regs ∧ t.mem = s.settle.mem
        ∧ t.dev.out = s.dev.out ++ [.line ("OK READY " ++ hexText 8 ((len + 4095) / 4096))])
    ∧ (∀ (s : State) (data : List Byte) (crc len : Nat), s.dev.inState stSleep = false → s.dev.mon.load = some len →
        let off := 4096 * s.dev.mon.block
        let good := data.length = min 4096 (len - off) ∧ crc = Crypto.check32c off data
        (good → off + data.length ≠ len → Ends (.loadBlock data crc) s fun t =>
          t.dev.mon = { s.dev.mon with block := s.dev.mon.block + 1, rejects := 0 } ∧ t.dev.out = s.dev.out ++ [.byte 0x06] ∧ t.dev.regs = s.dev.regs
          ∧ (MemorySafe s → Quiet s → s.dev.mon.block < 2 ^ 20 → OnePlaceAt s (stagingAddr off) data.length →
              HoldsAt t (stagingAddr off) data ∧ ∀ a, a < 2 ^ 56 → (∀ k, k < data.length → a ≠ s.xlate (stagingAddr off + k)) →
                t.mem.get .dram a = s.mem.get .dram a))
        ∧ (good → off + data.length = len → Ends (.loadBlock data crc) s fun t => t.dev.mon.load = none ∧ t.dev.regs = s.dev.regs ∧ (Quiet s →
            ((∃ f, t.stagedImage.checks t.imageMax t.serial = some f ∧ f.check ≤ 5 ∧ t.dev.mon = {}
                ∧ t.dev.out = s.dev.out ++ [.byte 0x06, .line ("ERR CHECK " ++ digitText f.check), .line "> "])
              ∨ ((∀ f, t.stagedImage.checks t.imageMax t.serial = some f → 5 < f.check) ∧ t.dev.mon = { staged := len, accepted := true }
                ∧ t.dev.out = s.dev.out ++ [.byte 0x06, .line "OK STAGED", .line "> "]))))
        ∧ (¬ good → s.dev.mon.rejects < 8 → Ends (.loadBlock data crc) s fun t =>
            t.dev.mon = { s.dev.mon with rejects := s.dev.mon.rejects + 1 } ∧ t.dev.out = s.dev.out ++ [.byte 0x15] ∧ t.mem = s.settle.mem ∧ t.dev.regs = s.dev.regs)
        ∧ (¬ good → s.dev.mon.rejects = 8 → Ends (.loadBlock data crc) s fun t =>
            t.dev.mon = {} ∧ t.dev.out = s.dev.out ++ [.byte 0x15, .line "ERR CHECK", .line "> "] ∧ t.mem = s.settle.mem ∧ t.dev.regs = s.dev.regs))
    ∧ (∀ (s : State) (len : Nat), s.dev.mon.load = some len →
      Ends .loadTimeout s fun t => t.dev.mon = {} ∧ Says s t ["ERR TIMEOUT"] ∧ t.mem = s.settle.mem ∧ t.dev.regs = s.dev.regs))
  ∧ ((∀ (s : State) (line : List Char) (tm : Nat) (bad : Option (Nat × Nat)), MonLine s line ['N', 'O', 'R', 'W', 'R', 'I', 'T', 'E'] [] →
        (s.dev.inState stRecovery = true ∨ s.dev.inState stReady = true) →
        (s.dev.mon.accepted = false → Ends (.norwrite line tm bad) s fun t => OutOnly s t ∧ Says s t ["ERR CHECK"])
        ∧ (∀ r : State, s.dev.mon.accepted = true → tm ≤ s.dev.now → MemorySafe s → Quiet s → s.policyVerdict = none → s.fillCal = some r → bad = none →
            Ends (.norwrite line tm bad) s fun t => Says s t ["OK WRITTEN"]
              ∧ (∀ a, a < r.stagedImage.length → t.mem.get .nor a = (r.stagedImage 0 r.stagedImage.length).getD a 0)
              ∧ (s.dev.inState stReady = true → t.dev.rd Reg.btStatusStaged = 1 ∧ Counted Ctr.btImageWrites 1 s t ∧ t.dev.rd Reg.glbState = 4)
              ∧ (s.dev.inState stRecovery = true → t.dev.rd Reg.glbState = 1 ∧ t.dev.rd Reg.btStatusFromStaging = 0 ∧ t.dev.boot = {})))
    ∧ (∀ (s : State) (line : List Char), MonLine s line ['B', 'O', 'O', 'T', 'S', 'T', 'A', 'G', 'E', 'D'] [] → s.dev.inState stRecovery = true →
        (s.dev.mon.accepted = false → Ends (.bootstaged line) s fun t => OutOnly s t ∧ Says s t ["ERR CHECK"])
        ∧ (s.dev.mon.accepted = true → Ends (.bootstaged line) s fun t => Says s t ["OK"] ∧ t.dev.rd Reg.glbState = 1 ∧ t.dev.rd Reg.btStatusFromStaging = 1
            ∧ t.dev.boot = {} ∧ t.dev.mon = { staged := s.dev.mon.staged }))
    ∧ (∀ (s : State) (line : List Char) (tm : Nat), MonLine s line ['S', 'T', 'E', 'P'] [] → s.dev.inState stReady = true → s.dev.rd Reg.poolMapVersionCurrent = 0 →
        s.dev.flag (Reg.plnStatusValid s.dev.activeBank) = true →
        (s.dev.rd Reg.epcCtrlEnable = 1 → Ends (.stepCmd line tm) s fun t => OutOnly s t ∧ Says s t ["ERR BUSY"])
        ∧ (s.dev.rd Reg.epcCtrlEnable = 0 → tm < 2 ^ 64 → Ends (.stepCmd line tm) s fun t => t.dev.epc.monStep = 2
            ∧ t.dev.epc.firstAt = some ((max s.dev.now tm / 1000 + 1) * 1000) ∧ t.dev.out = s.dev.out ∧ t.dev.rd Reg.glbState = 4 ∧ t.mem = s.settle.mem
            ∧ SameRegsBut [Reg.epcTime] s t)))

/-! ### SPDM and the DOE mailbox -/

/-- R410, R486, R487, before a session: DOE Discovery names its three types; each request is counted and answered where it came in; the stage of the connection rises; slot 0 is
served; a signature needs ID_VALID. The layouts are the model's (log entry 26). -/
def Obligations.SpdmRequestsAreAnswered : Prop :=
  (∀ (s : State) (object b : List Byte), s.dev.inState stSleep = false → s.dev.configured = true → doeParse object = some (0, b) → fieldAt b 0 1 < 3 →
    Ends (.doeDiscovery object) s fun t => t.dev.out = s.dev.out ++ [.object 0 (doeObject 0 (leBytes 2 1 ++ leBytes 1 (fieldAt b 0 1) ++ leBytes 1 ((fieldAt b 0 1 + 1) % 3)))]
      ∧ t.dev.regs = s.dev.regs)
  ∧ (∀ (s u : State) (v : Via) (o : Option (List Byte)) (q : Req), SpdmServed s 0x84 v o q u →
    Ends (.getVersion v o) s fun t => Counted Ctr.btSpdmRequests 1 s t ∧ t.dev.spdmStage q.transport = 1 ∧ t.dev.spdm.sessions = s.dev.spdm.sessions
      ∧ Answered q [0x10, 0x04, 0, 0, 0, 1, 0x00, 0x13] s t)
  ∧ (∀ (s u : State) (v : Via) (o : Option (List Byte)) (q : Req), SpdmServed s 0xE1 v o q u → Connected s q 1 →
    Ends (.getCapabilities v o) s fun t => Counted Ctr.btSpdmRequests 1 s t ∧ t.dev.spdmStage q.transport = max 2 (s.dev.spdmStage q.transport)
      ∧ ∃ ct : List Byte, ct.length = 1 ∧ Answered q ([0x13, 0x61, 0, 0, 0] ++ ct ++ [0, 0] ++ leBytes 4 0x62D6 ++ leBytes 4 65536 ++ leBytes 4 65536) s t)
  ∧ (∀ (s u : State) (v : Via) (o : Option (List Byte)) (q : Req), SpdmServed s 0xE3 v o q u → Connected s q 2 →
    Ends (.negotiateAlgorithms v o) s fun t => Counted Ctr.btSpdmRequests 1 s t
      ∧ (bit (fieldAt q.msg 8 4) 4 = true → bit (fieldAt q.msg 12 4) 0 = true → t.dev.spdmStage q.transport = max 3 (s.dev.spdmStage q.transport))
      ∧ (bit (fieldAt q.msg 8 4) 4 = false ∨ bit (fieldAt q.msg 12 4) 0 = false → t.dev.spdmStage q.transport = s.dev.spdmStage q.transport)
      ∧ ∃ rest : List Byte, Answered q (spdmHead 0x63 (fieldAt q.msg 2 1) 0 ++ rest) s t
          ∧ fieldAt rest 8 4 = (fieldAt q.msg 8 4 &&& 16) ∧ fieldAt rest 12 4 = (fieldAt q.msg 12 4 &&& 1))
  ∧ (∀ (s u : State) (v : Via) (o : Option (List Byte)) (q : Req), SpdmServed s 0x81 v o q u → Connected s q 3 →
    Ends (.getDigests v o) s fun t => Counted Ctr.btSpdmRequests 1 s t ∧ t.dev.spdm = s.dev.spdm
      ∧ Answered q (spdmHead 0x01 1 1 ++ Crypto.sha256 s.dev.certChain) s t)
  ∧ (∀ (s u : State) (v : Via) (o : Option (List Byte)) (q : Req), SpdmServed s 0x82 v o q u → Connected s q 3 →
      let chain := s.dev.certChain
      let part := (chain.drop (fieldAt q.msg 4 2)).take (fieldAt q.msg 6 2)
      (fieldAt q.msg 2 1 % 16 = 0 → fieldAt q.msg 4 2 < chain.length → Ends (.getCertificate v o) s fun t => Counted Ctr.btSpdmRequests 1 s t
        ∧ Answered q (spdmHead 0x02 0 0 ++ leBytes 2 part.length ++ leBytes 2 (chain.length - fieldAt q.msg 4 2 - part.length) ++ part) s t)
      ∧ (fieldAt q.msg 2 1 % 16 ≠ 0 → Ends (.getCertificate v o) s fun t => Answered q (spdmError seInvalid) s t))
  ∧ (∀ (s u : State) (v : Via) (o : Option (List Byte)) (q : Req), SpdmServed s 0x83 v o q u → Connected s q 3 →
      (s.dev.flag Reg.btStatusIdValid = false → Ends (.challenge v o) s fun t => Counted Ctr.btSpdmRequests 1 s t ∧ Answered q (spdmError seUnspecified) s t)
      ∧ (s.dev.flag Reg.btStatusIdValid = true → fieldAt q.msg 2 1 = 0 → Ends (.challenge v o) s fun t => Counted Ctr.btSpdmRequests 1 s t
          ∧ ∃ rest : List Byte, Answered q (spdmHead 0x03 0 1 ++ Crypto.sha256 s.dev.certChain ++ rest) s t ∧ 106 ≤ rest.length))
  ∧ (∀ (s u : State) (v : Via) (o : Option (List Byte)) (q : Req), SpdmServed s 0xE0 v o q u → Connected s q 3 →
      let blocks := (s.dev.measurements.zipIdx.map fun (m, i) => Dev.measurementBlock (i + 1) m).flatten
      (fieldAt q.msg 3 1 = 0xFF → bit (fieldAt q.msg 2 1) 0 = false → Ends (.getMeasurements v o) s fun t => Counted Ctr.btSpdmRequests 1 s t
        ∧ ∃ rest : List Byte, Answered q (spdmHead 0x60 0 0 ++ leBytes 1 10 ++ leBytes 3 blocks.length ++ blocks ++ rest) s t)
      ∧ (bit (fieldAt q.msg 2 1) 0 = true → s.dev.flag Reg.btStatusIdValid = false → Ends (.getMeasurements v o) s fun t => Counted Ctr.btSpdmRequests 1 s t
        ∧ Answered q (spdmError seUnspecified) s t)
      ∧ (s.dev.inState stRecovery = true → ∀ i, 1 ≤ i → i ≤ 5 → ((s.dev.measurements.getD i (0, [])).2 = List.replicate 32 0)))

/-- R410, R486: a key exchange opens a session where there is room for one, FINISH establishes or ends it, an established session carries heartbeats, key updates, IDE_KM and
its end; a secured message that fails its check raises SPDM_SECURE_FAIL and ends its session.
The model's own readings here: log entries 26, 114, 115. -/
def Obligations.SpdmSessionsBeginAndEnd : Prop :=
  (∀ (s u : State) (v : Via) (o : Option (List Byte)) (q : Req), SpdmServed s 0xE4 v o q u → Connected s q 3 → q.session = none → s.dev.flag Reg.btStatusIdValid = true →
      fieldAt q.msg 3 1 = 0 →
      (s.dev.sessionRoom q.transport = true → Ends (.keyExchange v o) s fun t => Counted Ctr.btSpdmRequests 1 s t
        ∧ t.dev.spdm.sessions = s.dev.spdm.sessions ++ [{ transport := q.transport, id := fieldAt q.msg 4 2 + 65536 * (s.dev.spdm.nextId % 65536), finished := false, updates := 0 }])
      ∧ (s.dev.sessionRoom q.transport = false → Ends (.keyExchange v o) s fun t => t.dev.spdm = s.dev.spdm ∧ Answered q (spdmError seSessionLimit) s t))
  ∧ (∀ (s u : State) (v : Via) (o : Option (List Byte)) (q : Req) (x : SpdmSession), SpdmServed s 0xE5 v o q u → q.session = some x → x.finished = false →
      (Ends (.finish v o true) s fun t => t.dev.spdm.sessions = (s.dev.spdm.sessions.map fun z => if z = x then { x with finished := true } else z)
        ∧ Counted Ctr.btSpdmSessions 1 s t ∧ Answered q (spdmHead 0x65 0 0) s t)
      ∧ (Ends (.finish v o false) s fun t => t.dev.spdm.sessions = s.dev.spdm.sessions.erase x ∧ t.dev.count Ctr.btSpdmSessions = s.dev.count Ctr.btSpdmSessions
        ∧ Answered q (spdmError seDecrypt) s t))
  ∧ (∀ (s u : State) (v : Via) (o : Option (List Byte)) (q : Req), SpdmServed s 0xE8 v o q u → Connected s q 3 →
    Ends (.spdmHeartbeat v o) s fun t => t.dev.spdm = s.dev.spdm ∧ Answered q (if q.session.isSome then spdmHead 0x68 0 0 else spdmError seSessionRequired) s t)
  ∧ (∀ (s u : State) (v : Via) (o : Option (List Byte)) (q : Req) (x : SpdmSession), SpdmServed s 0xE9 v o q u → Connected s q 3 → q.session = some x →
      1 ≤ fieldAt q.msg 2 1 → fieldAt q.msg 2 1 ≤ 3 →
    Ends (.keyUpdate v o) s fun t => Answered q (spdmHead 0x69 (fieldAt q.msg 2 1) (fieldAt q.msg 3 1)) s t
      ∧ t.dev.spdm.sessions = (s.dev.spdm.sessions.map fun z => if z = x ∧ fieldAt q.msg 2 1 ≠ 3 then { x with updates := x.updates + 1 } else z))
  ∧ (∀ (s u : State) (v : Via) (o : Option (List Byte)) (q : Req) (x : SpdmSession), SpdmServed s 0xEC v o q u → Connected s q 3 → q.session = some x →
    Ends (.endSession v o) s fun t => t.dev.spdm.sessions = s.dev.spdm.sessions.erase x ∧ Answered q (spdmHead 0x6C 0 0) s t)
  ∧ (∀ (s u : State) (object : List Byte) (o : Option (List Byte)) (q : Req) (x : SpdmSession) (stream : Nat), SpdmServed s 0xFE (.doe object) o q u → Connected s q 3 →
      q.session = some x → fieldAt q.msg 4 2 = 3 → fieldAt q.msg 6 1 = 2 → fieldAt q.msg 7 2 = 1 → fieldAt q.msg 11 1 = 0 → fieldAt q.msg 15 1 = stream → stream ≤ 4 →
      (fieldAt q.msg 12 1 = 4 → Ends (.vendorDefinedRequest o object) s fun t => stream ∈ t.dev.host.keyed ∧ stream ∉ t.dev.host.insecure
        ∧ (stream = 0 → t.dev.rd Reg.hstStatusIdeSecure = 1) ∧ SameRegsBut [Reg.hstStatusIdeSecure] s t)
      ∧ (fieldAt q.msg 12 1 = 5 → Ends (.vendorDefinedRequest o object) s fun t => stream ∉ t.dev.host.keyed ∧ (stream = 0 → t.dev.rd Reg.hstStatusIdeSecure = 0)
        ∧ SameRegsBut [Reg.hstStatusIdeSecure] s t))
  ∧ (∀ (s : State) (code : Nat) (cmd : Via → Option (List Byte) → Instr) (object b : List Byte) (x : SpdmSession), (code, cmd) ∈ spdmSteps →
      s.dev.inState stSleep = false → s.dev.configured = true → doeParse object = some (2, b) →
      (s.dev.spdm.sessions.find? fun x => x.transport = 0 && x.id = fieldAt b 0 4) = some x →
    Ends (cmd (.doe object) none) s fun t => t.dev.spdm.sessions = s.dev.spdm.sessions.erase x ∧ Recorded .spdmSecureFail t
      ∧ t.dev.count Ctr.btSpdmRequests = s.dev.count Ctr.btSpdmRequests)

/-! ### The block as a whole -/

/-- A step takes the command at the front of the queue and runs it with the queue's rest; on an empty queue the block idles, which is the model's choice (log entry 6). -/
def Obligations.AStepRunsTheFrontCommand : Prop :=
  (∀ (s : State) (c : Instr) (rest : List Instr), s.pending = c :: rest → step s = exec c { s with pending := rest })
  ∧ (∀ s : State, s.pending = [] → step s = .next s)

/-- After reset every register holds its reset value, every counter 0 and every memory 0, no command and no fault record waits, and the memories are canonical. Where the
spec gives no reset value, the value is the model's (log entry 2). -/
def Obligations.ResetLeavesTheResetValues : Prop :=
  (∀ f : Field, State.reset.dev.rd f = f.reset % 2 ^ 64) ∧ (∀ c, State.reset.dev.count c = 0 ∧ State.reset.dev.counted c = 0)
  ∧ (∀ sp a, State.reset.mem.get sp a = 0) ∧ State.reset.pending = [] ∧ Quiet State.reset ∧ MemorySafe State.reset

/-- Every step runs to a next state, whatever its command: none faults and none is refused; it keeps the memories in their canonical form, takes just one command from
the queue, and leaves no fault record waiting for its ring. -/
def Obligations.EveryStepRunsAndKeepsTheMemoriesCanonical : Prop :=
  ∀ s : State, ∃ t, step s = .next t ∧ (MemorySafe s → MemorySafe t) ∧ t.pending = s.pending.tail ∧ (s.pending ≠ [] ∨ Quiet s → Quiet t)

/-- R46, R48: the 64 bytes of a step descriptor give the step back, for every step whose fields fit in theirs. -/
def Obligations.DescriptorsGiveTheirStepsBack : Prop :=
  ∀ x : Step, x.fits = true → (encodeStep x).length = 64 ∧ parseStep (encodeStep x) = some x
end

