-- ==== Sys2Proof/Laws/State.lean ====
section
/-! SUPPORT. What the updates of the state leave alone: one lemma for each update and each field it does not touch. -/

namespace Sys2Proof.Machine

/-! ### The updates of a register, a counter, an output -/

@[simp] theorem Dev.put_ctr (d : Dev) (f : Field) (n : Nat) : (d.put f n).ctr = d.ctr := rfl
@[simp] theorem Dev.put_latch (d : Dev) (f : Field) (n : Nat) : (d.put f n).latch = d.latch := rfl
@[simp] theorem Dev.put_flt (d : Dev) (f : Field) (n : Nat) : (d.put f n).flt = d.flt := rfl
@[simp] theorem Dev.put_epc (d : Dev) (f : Field) (n : Nat) : (d.put f n).epc = d.epc := rfl
@[simp] theorem Dev.put_seq (d : Dev) (f : Field) (n : Nat) : (d.put f n).seq = d.seq := rfl
@[simp] theorem Dev.put_out (d : Dev) (f : Field) (n : Nat) : (d.put f n).out = d.out := rfl
@[simp] theorem Dev.put_freeCtr (d : Dev) (f : Field) (n : Nat) : (d.put f n).freeCtr = d.freeCtr := rfl
@[simp] theorem Dev.put_homeMap (d : Dev) (f : Field) (n : Nat) : (d.put f n).homeMap = d.homeMap := rfl
@[simp] theorem Dev.put_tier (d : Dev) (f : Field) (n : Nat) : (d.put f n).tier = d.tier := rfl
@[simp] theorem Dev.put_lutDir (d : Dev) (f : Field) (n : Nat) : (d.put f n).lutDir = d.lutDir := rfl
@[simp] theorem Dev.put_ingress (d : Dev) (f : Field) (n : Nat) : (d.put f n).ingress = d.ingress := rfl
@[simp] theorem Dev.put_pool (d : Dev) (f : Field) (n : Nat) : (d.put f n).pool = d.pool := rfl
@[simp] theorem Dev.put_idx (d : Dev) (f : Field) (n : Nat) : (d.put f n).idx = d.idx := rfl
@[simp] theorem Dev.put_cvu (d : Dev) (f : Field) (n : Nat) : (d.put f n).cvu = d.cvu := rfl
@[simp] theorem Dev.put_fls (d : Dev) (f : Field) (n : Nat) : (d.put f n).fls = d.fls := rfl
@[simp] theorem Dev.put_strata (d : Dev) (f : Field) (n : Nat) : (d.put f n).strata = d.strata := rfl
@[simp] theorem Dev.put_host (d : Dev) (f : Field) (n : Nat) : (d.put f n).host = d.host := rfl
@[simp] theorem Dev.put_rows (d : Dev) (f : Field) (n : Nat) : (d.put f n).rows = d.rows := rfl
@[simp] theorem Dev.put_pim (d : Dev) (f : Field) (n : Nat) : (d.put f n).pim = d.pim := rfl
@[simp] theorem Dev.put_egs (d : Dev) (f : Field) (n : Nat) : (d.put f n).egs = d.egs := rfl
@[simp] theorem Dev.put_fab (d : Dev) (f : Field) (n : Nat) : (d.put f n).fab = d.fab := rfl
@[simp] theorem Dev.put_job (d : Dev) (f : Field) (n : Nat) : (d.put f n).job = d.job := rfl
@[simp] theorem Dev.put_power (d : Dev) (f : Field) (n : Nat) : (d.put f n).power = d.power := rfl
@[simp] theorem Dev.put_aon (d : Dev) (f : Field) (n : Nat) : (d.put f n).aon = d.aon := rfl
@[simp] theorem Dev.put_boot (d : Dev) (f : Field) (n : Nat) : (d.put f n).boot = d.boot := rfl
@[simp] theorem Dev.put_spdm (d : Dev) (f : Field) (n : Nat) : (d.put f n).spdm = d.spdm := rfl
@[simp] theorem Dev.put_mon (d : Dev) (f : Field) (n : Nat) : (d.put f n).mon = d.mon := rfl

@[simp] theorem Dev.putFlag_ctr (d : Dev) (f : Field) (b : Bool) : (d.putFlag f b).ctr = d.ctr := rfl
@[simp] theorem Dev.putFlag_latch (d : Dev) (f : Field) (b : Bool) : (d.putFlag f b).latch = d.latch := rfl
@[simp] theorem Dev.putFlag_flt (d : Dev) (f : Field) (b : Bool) : (d.putFlag f b).flt = d.flt := rfl
@[simp] theorem Dev.putFlag_epc (d : Dev) (f : Field) (b : Bool) : (d.putFlag f b).epc = d.epc := rfl
@[simp] theorem Dev.putFlag_seq (d : Dev) (f : Field) (b : Bool) : (d.putFlag f b).seq = d.seq := rfl
@[simp] theorem Dev.putFlag_out (d : Dev) (f : Field) (b : Bool) : (d.putFlag f b).out = d.out := rfl
@[simp] theorem Dev.putFlag_freeCtr (d : Dev) (f : Field) (b : Bool) : (d.putFlag f b).freeCtr = d.freeCtr := rfl
@[simp] theorem Dev.putFlag_homeMap (d : Dev) (f : Field) (b : Bool) : (d.putFlag f b).homeMap = d.homeMap := rfl
@[simp] theorem Dev.putFlag_tier (d : Dev) (f : Field) (b : Bool) : (d.putFlag f b).tier = d.tier := rfl
@[simp] theorem Dev.putFlag_lutDir (d : Dev) (f : Field) (b : Bool) : (d.putFlag f b).lutDir = d.lutDir := rfl
@[simp] theorem Dev.putFlag_ingress (d : Dev) (f : Field) (b : Bool) : (d.putFlag f b).ingress = d.ingress := rfl
@[simp] theorem Dev.putFlag_pool (d : Dev) (f : Field) (b : Bool) : (d.putFlag f b).pool = d.pool := rfl
@[simp] theorem Dev.putFlag_idx (d : Dev) (f : Field) (b : Bool) : (d.putFlag f b).idx = d.idx := rfl
@[simp] theorem Dev.putFlag_cvu (d : Dev) (f : Field) (b : Bool) : (d.putFlag f b).cvu = d.cvu := rfl
@[simp] theorem Dev.putFlag_fls (d : Dev) (f : Field) (b : Bool) : (d.putFlag f b).fls = d.fls := rfl
@[simp] theorem Dev.putFlag_strata (d : Dev) (f : Field) (b : Bool) : (d.putFlag f b).strata = d.strata := rfl
@[simp] theorem Dev.putFlag_host (d : Dev) (f : Field) (b : Bool) : (d.putFlag f b).host = d.host := rfl
@[simp] theorem Dev.putFlag_rows (d : Dev) (f : Field) (b : Bool) : (d.putFlag f b).rows = d.rows := rfl
@[simp] theorem Dev.putFlag_pim (d : Dev) (f : Field) (b : Bool) : (d.putFlag f b).pim = d.pim := rfl
@[simp] theorem Dev.putFlag_egs (d : Dev) (f : Field) (b : Bool) : (d.putFlag f b).egs = d.egs := rfl
@[simp] theorem Dev.putFlag_fab (d : Dev) (f : Field) (b : Bool) : (d.putFlag f b).fab = d.fab := rfl
@[simp] theorem Dev.putFlag_job (d : Dev) (f : Field) (b : Bool) : (d.putFlag f b).job = d.job := rfl
@[simp] theorem Dev.putFlag_power (d : Dev) (f : Field) (b : Bool) : (d.putFlag f b).power = d.power := rfl
@[simp] theorem Dev.putFlag_aon (d : Dev) (f : Field) (b : Bool) : (d.putFlag f b).aon = d.aon := rfl
@[simp] theorem Dev.putFlag_boot (d : Dev) (f : Field) (b : Bool) : (d.putFlag f b).boot = d.boot := rfl
@[simp] theorem Dev.putFlag_spdm (d : Dev) (f : Field) (b : Bool) : (d.putFlag f b).spdm = d.spdm := rfl
@[simp] theorem Dev.putFlag_mon (d : Dev) (f : Field) (b : Bool) : (d.putFlag f b).mon = d.mon := rfl

@[simp] theorem Dev.adopt_ctr (d : Dev) (f : Field) : (d.adopt f).ctr = d.ctr := rfl
@[simp] theorem Dev.adopt_latch (d : Dev) (f : Field) : (d.adopt f).latch = d.latch := rfl
@[simp] theorem Dev.adopt_flt (d : Dev) (f : Field) : (d.adopt f).flt = d.flt := rfl
@[simp] theorem Dev.adopt_epc (d : Dev) (f : Field) : (d.adopt f).epc = d.epc := rfl
@[simp] theorem Dev.adopt_seq (d : Dev) (f : Field) : (d.adopt f).seq = d.seq := rfl
@[simp] theorem Dev.adopt_out (d : Dev) (f : Field) : (d.adopt f).out = d.out := rfl
@[simp] theorem Dev.adopt_freeCtr (d : Dev) (f : Field) : (d.adopt f).freeCtr = d.freeCtr := rfl
@[simp] theorem Dev.adopt_homeMap (d : Dev) (f : Field) : (d.adopt f).homeMap = d.homeMap := rfl
@[simp] theorem Dev.adopt_tier (d : Dev) (f : Field) : (d.adopt f).tier = d.tier := rfl
@[simp] theorem Dev.adopt_lutDir (d : Dev) (f : Field) : (d.adopt f).lutDir = d.lutDir := rfl
@[simp] theorem Dev.adopt_ingress (d : Dev) (f : Field) : (d.adopt f).ingress = d.ingress := rfl
@[simp] theorem Dev.adopt_pool (d : Dev) (f : Field) : (d.adopt f).pool = d.pool := rfl
@[simp] theorem Dev.adopt_idx (d : Dev) (f : Field) : (d.adopt f).idx = d.idx := rfl
@[simp] theorem Dev.adopt_cvu (d : Dev) (f : Field) : (d.adopt f).cvu = d.cvu := rfl
@[simp] theorem Dev.adopt_fls (d : Dev) (f : Field) : (d.adopt f).fls = d.fls := rfl
@[simp] theorem Dev.adopt_strata (d : Dev) (f : Field) : (d.adopt f).strata = d.strata := rfl
@[simp] theorem Dev.adopt_host (d : Dev) (f : Field) : (d.adopt f).host = d.host := rfl
@[simp] theorem Dev.adopt_rows (d : Dev) (f : Field) : (d.adopt f).rows = d.rows := rfl
@[simp] theorem Dev.adopt_pim (d : Dev) (f : Field) : (d.adopt f).pim = d.pim := rfl
@[simp] theorem Dev.adopt_egs (d : Dev) (f : Field) : (d.adopt f).egs = d.egs := rfl
@[simp] theorem Dev.adopt_fab (d : Dev) (f : Field) : (d.adopt f).fab = d.fab := rfl
@[simp] theorem Dev.adopt_job (d : Dev) (f : Field) : (d.adopt f).job = d.job := rfl
@[simp] theorem Dev.adopt_power (d : Dev) (f : Field) : (d.adopt f).power = d.power := rfl
@[simp] theorem Dev.adopt_aon (d : Dev) (f : Field) : (d.adopt f).aon = d.aon := rfl
@[simp] theorem Dev.adopt_boot (d : Dev) (f : Field) : (d.adopt f).boot = d.boot := rfl
@[simp] theorem Dev.adopt_spdm (d : Dev) (f : Field) : (d.adopt f).spdm = d.spdm := rfl
@[simp] theorem Dev.adopt_mon (d : Dev) (f : Field) : (d.adopt f).mon = d.mon := rfl

@[simp] theorem Dev.bump_regs (d : Dev) (c n : Nat) : (d.bump c n).regs = d.regs := rfl
@[simp] theorem Dev.bump_latch (d : Dev) (c n : Nat) : (d.bump c n).latch = d.latch := rfl
@[simp] theorem Dev.bump_flt (d : Dev) (c n : Nat) : (d.bump c n).flt = d.flt := rfl
@[simp] theorem Dev.bump_epc (d : Dev) (c n : Nat) : (d.bump c n).epc = d.epc := rfl
@[simp] theorem Dev.bump_seq (d : Dev) (c n : Nat) : (d.bump c n).seq = d.seq := rfl
@[simp] theorem Dev.bump_out (d : Dev) (c n : Nat) : (d.bump c n).out = d.out := rfl
@[simp] theorem Dev.bump_freeCtr (d : Dev) (c n : Nat) : (d.bump c n).freeCtr = d.freeCtr := rfl
@[simp] theorem Dev.bump_homeMap (d : Dev) (c n : Nat) : (d.bump c n).homeMap = d.homeMap := rfl
@[simp] theorem Dev.bump_tier (d : Dev) (c n : Nat) : (d.bump c n).tier = d.tier := rfl
@[simp] theorem Dev.bump_lutDir (d : Dev) (c n : Nat) : (d.bump c n).lutDir = d.lutDir := rfl
@[simp] theorem Dev.bump_ingress (d : Dev) (c n : Nat) : (d.bump c n).ingress = d.ingress := rfl
@[simp] theorem Dev.bump_pool (d : Dev) (c n : Nat) : (d.bump c n).pool = d.pool := rfl
@[simp] theorem Dev.bump_idx (d : Dev) (c n : Nat) : (d.bump c n).idx = d.idx := rfl
@[simp] theorem Dev.bump_cvu (d : Dev) (c n : Nat) : (d.bump c n).cvu = d.cvu := rfl
@[simp] theorem Dev.bump_fls (d : Dev) (c n : Nat) : (d.bump c n).fls = d.fls := rfl
@[simp] theorem Dev.bump_strata (d : Dev) (c n : Nat) : (d.bump c n).strata = d.strata := rfl
@[simp] theorem Dev.bump_host (d : Dev) (c n : Nat) : (d.bump c n).host = d.host := rfl
@[simp] theorem Dev.bump_rows (d : Dev) (c n : Nat) : (d.bump c n).rows = d.rows := rfl
@[simp] theorem Dev.bump_pim (d : Dev) (c n : Nat) : (d.bump c n).pim = d.pim := rfl
@[simp] theorem Dev.bump_egs (d : Dev) (c n : Nat) : (d.bump c n).egs = d.egs := rfl
@[simp] theorem Dev.bump_fab (d : Dev) (c n : Nat) : (d.bump c n).fab = d.fab := rfl
@[simp] theorem Dev.bump_job (d : Dev) (c n : Nat) : (d.bump c n).job = d.job := rfl
@[simp] theorem Dev.bump_power (d : Dev) (c n : Nat) : (d.bump c n).power = d.power := rfl
@[simp] theorem Dev.bump_aon (d : Dev) (c n : Nat) : (d.bump c n).aon = d.aon := rfl
@[simp] theorem Dev.bump_boot (d : Dev) (c n : Nat) : (d.bump c n).boot = d.boot := rfl
@[simp] theorem Dev.bump_spdm (d : Dev) (c n : Nat) : (d.bump c n).spdm = d.spdm := rfl
@[simp] theorem Dev.bump_mon (d : Dev) (c n : Nat) : (d.bump c n).mon = d.mon := rfl

@[simp] theorem Dev.snapshot_regs (d : Dev) : (d.snapshot ).regs = d.regs := rfl
@[simp] theorem Dev.snapshot_latch (d : Dev) : (d.snapshot ).latch = d.latch := rfl
@[simp] theorem Dev.snapshot_flt (d : Dev) : (d.snapshot ).flt = d.flt := rfl
@[simp] theorem Dev.snapshot_epc (d : Dev) : (d.snapshot ).epc = d.epc := rfl
@[simp] theorem Dev.snapshot_seq (d : Dev) : (d.snapshot ).seq = d.seq := rfl
@[simp] theorem Dev.snapshot_out (d : Dev) : (d.snapshot ).out = d.out := rfl
@[simp] theorem Dev.snapshot_freeCtr (d : Dev) : (d.snapshot ).freeCtr = d.freeCtr := rfl
@[simp] theorem Dev.snapshot_homeMap (d : Dev) : (d.snapshot ).homeMap = d.homeMap := rfl
@[simp] theorem Dev.snapshot_tier (d : Dev) : (d.snapshot ).tier = d.tier := rfl
@[simp] theorem Dev.snapshot_lutDir (d : Dev) : (d.snapshot ).lutDir = d.lutDir := rfl
@[simp] theorem Dev.snapshot_ingress (d : Dev) : (d.snapshot ).ingress = d.ingress := rfl
@[simp] theorem Dev.snapshot_pool (d : Dev) : (d.snapshot ).pool = d.pool := rfl
@[simp] theorem Dev.snapshot_idx (d : Dev) : (d.snapshot ).idx = d.idx := rfl
@[simp] theorem Dev.snapshot_cvu (d : Dev) : (d.snapshot ).cvu = d.cvu := rfl
@[simp] theorem Dev.snapshot_fls (d : Dev) : (d.snapshot ).fls = d.fls := rfl
@[simp] theorem Dev.snapshot_strata (d : Dev) : (d.snapshot ).strata = d.strata := rfl
@[simp] theorem Dev.snapshot_host (d : Dev) : (d.snapshot ).host = d.host := rfl
@[simp] theorem Dev.snapshot_rows (d : Dev) : (d.snapshot ).rows = d.rows := rfl
@[simp] theorem Dev.snapshot_pim (d : Dev) : (d.snapshot ).pim = d.pim := rfl
@[simp] theorem Dev.snapshot_egs (d : Dev) : (d.snapshot ).egs = d.egs := rfl
@[simp] theorem Dev.snapshot_fab (d : Dev) : (d.snapshot ).fab = d.fab := rfl
@[simp] theorem Dev.snapshot_job (d : Dev) : (d.snapshot ).job = d.job := rfl
@[simp] theorem Dev.snapshot_power (d : Dev) : (d.snapshot ).power = d.power := rfl
@[simp] theorem Dev.snapshot_aon (d : Dev) : (d.snapshot ).aon = d.aon := rfl
@[simp] theorem Dev.snapshot_boot (d : Dev) : (d.snapshot ).boot = d.boot := rfl
@[simp] theorem Dev.snapshot_spdm (d : Dev) : (d.snapshot ).spdm = d.spdm := rfl
@[simp] theorem Dev.snapshot_mon (d : Dev) : (d.snapshot ).mon = d.mon := rfl

@[simp] theorem Dev.emit_regs (d : Dev) (o : Output) : (d.emit o).regs = d.regs := rfl
@[simp] theorem Dev.emit_ctr (d : Dev) (o : Output) : (d.emit o).ctr = d.ctr := rfl
@[simp] theorem Dev.emit_latch (d : Dev) (o : Output) : (d.emit o).latch = d.latch := rfl
@[simp] theorem Dev.emit_flt (d : Dev) (o : Output) : (d.emit o).flt = d.flt := rfl
@[simp] theorem Dev.emit_epc (d : Dev) (o : Output) : (d.emit o).epc = d.epc := rfl
@[simp] theorem Dev.emit_seq (d : Dev) (o : Output) : (d.emit o).seq = d.seq := rfl
@[simp] theorem Dev.emit_freeCtr (d : Dev) (o : Output) : (d.emit o).freeCtr = d.freeCtr := rfl
@[simp] theorem Dev.emit_homeMap (d : Dev) (o : Output) : (d.emit o).homeMap = d.homeMap := rfl
@[simp] theorem Dev.emit_tier (d : Dev) (o : Output) : (d.emit o).tier = d.tier := rfl
@[simp] theorem Dev.emit_lutDir (d : Dev) (o : Output) : (d.emit o).lutDir = d.lutDir := rfl
@[simp] theorem Dev.emit_ingress (d : Dev) (o : Output) : (d.emit o).ingress = d.ingress := rfl
@[simp] theorem Dev.emit_pool (d : Dev) (o : Output) : (d.emit o).pool = d.pool := rfl
@[simp] theorem Dev.emit_idx (d : Dev) (o : Output) : (d.emit o).idx = d.idx := rfl
@[simp] theorem Dev.emit_cvu (d : Dev) (o : Output) : (d.emit o).cvu = d.cvu := rfl
@[simp] theorem Dev.emit_fls (d : Dev) (o : Output) : (d.emit o).fls = d.fls := rfl
@[simp] theorem Dev.emit_strata (d : Dev) (o : Output) : (d.emit o).strata = d.strata := rfl
@[simp] theorem Dev.emit_host (d : Dev) (o : Output) : (d.emit o).host = d.host := rfl
@[simp] theorem Dev.emit_rows (d : Dev) (o : Output) : (d.emit o).rows = d.rows := rfl
@[simp] theorem Dev.emit_pim (d : Dev) (o : Output) : (d.emit o).pim = d.pim := rfl
@[simp] theorem Dev.emit_egs (d : Dev) (o : Output) : (d.emit o).egs = d.egs := rfl
@[simp] theorem Dev.emit_fab (d : Dev) (o : Output) : (d.emit o).fab = d.fab := rfl
@[simp] theorem Dev.emit_job (d : Dev) (o : Output) : (d.emit o).job = d.job := rfl
@[simp] theorem Dev.emit_power (d : Dev) (o : Output) : (d.emit o).power = d.power := rfl
@[simp] theorem Dev.emit_aon (d : Dev) (o : Output) : (d.emit o).aon = d.aon := rfl
@[simp] theorem Dev.emit_boot (d : Dev) (o : Output) : (d.emit o).boot = d.boot := rfl
@[simp] theorem Dev.emit_spdm (d : Dev) (o : Output) : (d.emit o).spdm = d.spdm := rfl
@[simp] theorem Dev.emit_mon (d : Dev) (o : Output) : (d.emit o).mon = d.mon := rfl

@[simp] theorem Dev.setMode_ctr (d : Dev) (st r m : Nat) : (d.setMode st r m).ctr = d.ctr := rfl
@[simp] theorem Dev.setMode_latch (d : Dev) (st r m : Nat) : (d.setMode st r m).latch = d.latch := rfl
@[simp] theorem Dev.setMode_flt (d : Dev) (st r m : Nat) : (d.setMode st r m).flt = d.flt := rfl
@[simp] theorem Dev.setMode_epc (d : Dev) (st r m : Nat) : (d.setMode st r m).epc = d.epc := rfl
@[simp] theorem Dev.setMode_seq (d : Dev) (st r m : Nat) : (d.setMode st r m).seq = d.seq := rfl
@[simp] theorem Dev.setMode_out (d : Dev) (st r m : Nat) : (d.setMode st r m).out = d.out := rfl
@[simp] theorem Dev.setMode_freeCtr (d : Dev) (st r m : Nat) : (d.setMode st r m).freeCtr = d.freeCtr := rfl
@[simp] theorem Dev.setMode_homeMap (d : Dev) (st r m : Nat) : (d.setMode st r m).homeMap = d.homeMap := rfl
@[simp] theorem Dev.setMode_tier (d : Dev) (st r m : Nat) : (d.setMode st r m).tier = d.tier := rfl
@[simp] theorem Dev.setMode_lutDir (d : Dev) (st r m : Nat) : (d.setMode st r m).lutDir = d.lutDir := rfl
@[simp] theorem Dev.setMode_ingress (d : Dev) (st r m : Nat) : (d.setMode st r m).ingress = d.ingress := rfl
@[simp] theorem Dev.setMode_pool (d : Dev) (st r m : Nat) : (d.setMode st r m).pool = d.pool := rfl
@[simp] theorem Dev.setMode_idx (d : Dev) (st r m : Nat) : (d.setMode st r m).idx = d.idx := rfl
@[simp] theorem Dev.setMode_cvu (d : Dev) (st r m : Nat) : (d.setMode st r m).cvu = d.cvu := rfl
@[simp] theorem Dev.setMode_fls (d : Dev) (st r m : Nat) : (d.setMode st r m).fls = d.fls := rfl
@[simp] theorem Dev.setMode_strata (d : Dev) (st r m : Nat) : (d.setMode st r m).strata = d.strata := rfl
@[simp] theorem Dev.setMode_host (d : Dev) (st r m : Nat) : (d.setMode st r m).host = d.host := rfl
@[simp] theorem Dev.setMode_rows (d : Dev) (st r m : Nat) : (d.setMode st r m).rows = d.rows := rfl
@[simp] theorem Dev.setMode_pim (d : Dev) (st r m : Nat) : (d.setMode st r m).pim = d.pim := rfl
@[simp] theorem Dev.setMode_egs (d : Dev) (st r m : Nat) : (d.setMode st r m).egs = d.egs := rfl
@[simp] theorem Dev.setMode_fab (d : Dev) (st r m : Nat) : (d.setMode st r m).fab = d.fab := rfl
@[simp] theorem Dev.setMode_job (d : Dev) (st r m : Nat) : (d.setMode st r m).job = d.job := rfl
@[simp] theorem Dev.setMode_power (d : Dev) (st r m : Nat) : (d.setMode st r m).power = d.power := rfl
@[simp] theorem Dev.setMode_aon (d : Dev) (st r m : Nat) : (d.setMode st r m).aon = d.aon := rfl
@[simp] theorem Dev.setMode_boot (d : Dev) (st r m : Nat) : (d.setMode st r m).boot = d.boot := rfl
@[simp] theorem Dev.setMode_spdm (d : Dev) (st r m : Nat) : (d.setMode st r m).spdm = d.spdm := rfl
@[simp] theorem Dev.setMode_mon (d : Dev) (st r m : Nat) : (d.setMode st r m).mon = d.mon := rfl

/-! ### The updates of the state -/

@[simp] theorem State.onDev_dev (s : State) (f : Dev → Dev) : (s.onDev f).dev = f s.dev := rfl
@[simp] theorem State.onDev_mem (s : State) (f : Dev → Dev) : (s.onDev f).mem = s.mem := rfl
@[simp] theorem State.onDev_pending (s : State) (f : Dev → Dev) : (s.onDev f).pending = s.pending := rfl
@[simp] theorem State.onMem_dev (s : State) (f : Mem → Mem) : (s.onMem f).dev = s.dev := rfl
@[simp] theorem State.onMem_mem (s : State) (f : Mem → Mem) : (s.onMem f).mem = f s.mem := rfl
@[simp] theorem State.onMem_pending (s : State) (f : Mem → Mem) : (s.onMem f).pending = s.pending := rfl
@[simp] theorem State.settle_pending (s : State) : s.settle.pending = s.pending := rfl
@[simp] theorem State.settle_regs (s : State) : s.settle.dev.regs = s.dev.regs := rfl
@[simp] theorem State.settle_ctr (s : State) : s.settle.dev.ctr = s.dev.ctr := rfl
@[simp] theorem State.settle_latch (s : State) : s.settle.dev.latch = s.dev.latch := rfl
@[simp] theorem State.settle_epc (s : State) : s.settle.dev.epc = s.dev.epc := rfl
@[simp] theorem State.settle_seq (s : State) : s.settle.dev.seq = s.dev.seq := rfl
@[simp] theorem State.settle_out (s : State) : s.settle.dev.out = s.dev.out := rfl
@[simp] theorem State.settle_freeCtr (s : State) : s.settle.dev.freeCtr = s.dev.freeCtr := rfl
@[simp] theorem State.settle_homeMap (s : State) : s.settle.dev.homeMap = s.dev.homeMap := rfl
@[simp] theorem State.settle_tier (s : State) : s.settle.dev.tier = s.dev.tier := rfl
@[simp] theorem State.settle_lutDir (s : State) : s.settle.dev.lutDir = s.dev.lutDir := rfl
@[simp] theorem State.settle_ingress (s : State) : s.settle.dev.ingress = s.dev.ingress := rfl
@[simp] theorem State.settle_pool (s : State) : s.settle.dev.pool = s.dev.pool := rfl
@[simp] theorem State.settle_idx (s : State) : s.settle.dev.idx = s.dev.idx := rfl
@[simp] theorem State.settle_cvu (s : State) : s.settle.dev.cvu = s.dev.cvu := rfl
@[simp] theorem State.settle_fls (s : State) : s.settle.dev.fls = s.dev.fls := rfl
@[simp] theorem State.settle_strata (s : State) : s.settle.dev.strata = s.dev.strata := rfl
@[simp] theorem State.settle_host (s : State) : s.settle.dev.host = s.dev.host := rfl
@[simp] theorem State.settle_rows (s : State) : s.settle.dev.rows = s.dev.rows := rfl
@[simp] theorem State.settle_pim (s : State) : s.settle.dev.pim = s.dev.pim := rfl
@[simp] theorem State.settle_egs (s : State) : s.settle.dev.egs = s.dev.egs := rfl
@[simp] theorem State.settle_fab (s : State) : s.settle.dev.fab = s.dev.fab := rfl
@[simp] theorem State.settle_job (s : State) : s.settle.dev.job = s.dev.job := rfl
@[simp] theorem State.settle_power (s : State) : s.settle.dev.power = s.dev.power := rfl
@[simp] theorem State.settle_aon (s : State) : s.settle.dev.aon = s.dev.aon := rfl
@[simp] theorem State.settle_boot (s : State) : s.settle.dev.boot = s.dev.boot := rfl
@[simp] theorem State.settle_spdm (s : State) : s.settle.dev.spdm = s.dev.spdm := rfl
@[simp] theorem State.settle_mon (s : State) : s.settle.dev.mon = s.dev.mon := rfl
@[simp] theorem State.settle_flt_boot (s : State) : s.settle.dev.flt.boot = s.dev.flt.boot := rfl
@[simp] theorem State.settle_flt_marks (s : State) : s.settle.dev.flt.marks = s.dev.flt.marks := rfl
@[simp] theorem State.settle_flt_lostNext (s : State) : s.settle.dev.flt.lostNext = s.dev.flt.lostNext := rfl
@[simp] theorem State.settle_flt_recent (s : State) : s.settle.dev.flt.recent = s.dev.flt.recent := rfl
@[simp] theorem State.settle_ring (s : State) : s.settle.dev.flt.ring = [] := rfl

/-- Where no record waits, the end of a command changes nothing. -/
theorem State.settle_of_ring {s : State} (h : s.dev.flt.ring = []) : s.settle = s := by
  obtain ⟨d, m, q⟩ := s
  obtain ⟨⟩ := d
  rename_i flt _ _ _ _ _ _ _ _ _ _ _ _ _ _ _ _ _ _ _ _ _ _ _ _
  cases flt
  simp_all [State.settle]

end Sys2Proof.Machine
end

