-- ==== Sys2Proof/Laws/Word.lean ====
section
/-! SUPPORT. Small lemmas about association lists, little-endian bytes and bit fields. -/

namespace Sys2Proof

@[simp] theorem assocD_put_self {α : Type} (d : α) (k : Nat) (v : α) (l : List (Nat × α)) : assocD d k (assocPut k v l) = v := by
  induction l with
  | nil => simp [assocPut, assocD]
  | cons x rest ih =>
    obtain ⟨j, w⟩ := x
    by_cases h : k < j
    · simp [assocPut, assocD, h]
    · by_cases e : j = k
      · simp [assocPut, assocD, e]
      · simp [assocPut, assocD, h, e, ih]

theorem assocD_put_ne {α : Type} (d : α) {k m : Nat} (v : α) (l : List (Nat × α)) (h : k ≠ m) :
    assocD d m (assocPut k v l) = assocD d m l := by
  induction l with
  | nil => simp [assocPut, assocD, h]
  | cons x rest ih =>
    obtain ⟨j, w⟩ := x
    by_cases l : k < j
    · simp [assocPut, assocD, l, h]
    · by_cases e : j = k
      · subst e; simp [assocPut, assocD, h]
      · by_cases f : j = m
        · subst f; simp [assocPut, assocD, l, e]
        · simp [assocPut, assocD, l, e, f, ih]

@[simp] theorem leBytes_length (k n : Nat) : (leBytes k n).length = k := by
  induction k generalizing n with
  | zero => rfl
  | succ k ih => simp [leBytes, ih]

/-- Reading back what was written little-endian (R5). -/
@[simp] theorem leNat_leBytes (k n : Nat) : leNat (leBytes k n) = n % 2 ^ (8 * k) := by
  induction k generalizing n with
  | zero => simp [leBytes, leNat, Nat.mod_one]
  | succ k ih =>
    simp only [leBytes, leNat, ih, BitVec.toNat_ofNat]
    have e : 2 ^ (8 * (k + 1)) = 256 * 2 ^ (8 * k) := by rw [Nat.mul_succ, Nat.pow_add]; omega
    rw [e, Nat.mod_mul]

theorem leNat_lt (l : List Byte) : leNat l < 2 ^ (8 * l.length) := by
  induction l with
  | nil => simp [leNat]
  | cons b bs ih =>
    have := b.isLt
    have e : 2 ^ (8 * (b :: bs).length) = 256 * 2 ^ (8 * bs.length) := by
      rw [List.length_cons, Nat.mul_succ, Nat.pow_add]; omega
    simp only [leNat, e]; omega

@[simp] theorem padTo_length (n : Nat) (bs : List Byte) : (padTo n bs).length = n := by
  simp [padTo]; omega

@[simp] theorem boolNat_true : boolNat true = 1 := rfl
@[simp] theorem boolNat_false : boolNat false = 0 := rfl

/-- The field of a record at the place of a part of that length. -/
theorem fieldAt_append_left (x y : List Byte) (o n : Nat) (h : o + n ≤ x.length) : fieldAt (x ++ y) o n = fieldAt x o n := by
  unfold fieldAt
  rw [List.drop_append_of_le_length (by omega), List.take_append_of_le_length (by simp; omega)]

theorem fieldAt_append_right (x y : List Byte) (o n : Nat) (h : x.length ≤ o) : fieldAt (x ++ y) o n = fieldAt y (o - x.length) n := by
  unfold fieldAt
  rw [List.drop_append, List.drop_eq_nil_of_le h, List.nil_append]

theorem fieldAt_leBytes (k n : Nat) : fieldAt (leBytes k n) 0 k = n % 2 ^ (8 * k) := by
  unfold fieldAt
  rw [List.drop_zero, List.take_of_length_le (by simp), leNat_leBytes]

end Sys2Proof
end

