-- ==== Sys2Proof/Laws/Regs.lean ====
section
/-! SUPPORT. Reading registers and counters after the named updates, and all that raising a fault can do. -/

namespace Sys2Proof.Machine

namespace Dev

/-! ### Registers -/

theorem rd_put_self (d : Dev) (f : Field) (n : Nat) (h : f.width ≤ 64) : (d.put f n).rd f = n % 2 ^ f.width := by
  have : n % 2 ^ f.width < 2 ^ 64 :=
    Nat.lt_of_lt_of_le (Nat.mod_lt _ (Nat.two_pow_pos _)) (Nat.pow_le_pow_right (by omega) h)
  first
  | (simp [rd, put, BitVec.toNat_ofNat, Nat.mod_eq_of_lt this]; done)
  | (simp [rd, put, BitVec.toNat_ofNat]; exact this)

theorem rd_put_ne (d : Dev) {f g : Field} (n : Nat) (h : f.key ≠ g.key) : (d.put f n).rd g = d.rd g := by
  simp [rd, put, assocD_put_ne _ _ _ h]

theorem rd_putFlag_self (d : Dev) (f : Field) (b : Bool) (h : f.width ≤ 64) (h1 : 1 ≤ f.width) : (d.putFlag f b).rd f = boolNat b := by
  rw [putFlag, rd_put_self _ _ _ h]
  have : 2 ^ 1 ≤ 2 ^ f.width := Nat.pow_le_pow_right (by omega) h1
  cases b <;> simp
  omega

theorem rd_putFlag_ne (d : Dev) {f g : Field} (b : Bool) (h : f.key ≠ g.key) : (d.putFlag f b).rd g = d.rd g := rd_put_ne d _ h

theorem flag_putFlag_self (d : Dev) (f : Field) (b : Bool) (h : f.width ≤ 64) (h1 : 1 ≤ f.width) : (d.putFlag f b).flag f = b := by
  rw [flag, rd_putFlag_self d f b h h1]; cases b <;> rfl

theorem flag_put_ne (d : Dev) {f g : Field} (n : Nat) (h : f.key ≠ g.key) : (d.put f n).flag g = d.flag g := by
  simp [flag, rd_put_ne d n h]

theorem flag_putFlag_ne (d : Dev) {f g : Field} (b : Bool) (h : f.key ≠ g.key) : (d.putFlag f b).flag g = d.flag g := flag_put_ne d _ h

/-- A read depends on the registers only. -/
theorem rd_congr {d e : Dev} (f : Field) (h : d.regs = e.regs) : d.rd f = e.rd f := by simp [rd, h]

@[simp] theorem rd_bump (d : Dev) (c n : Nat) (f : Field) : (d.bump c n).rd f = d.rd f := rfl
@[simp] theorem flag_bump (d : Dev) (c n : Nat) (f : Field) : (d.bump c n).flag f = d.flag f := rfl
@[simp] theorem val_bump (d : Dev) (c n : Nat) (f : Field) : (d.bump c n).val f = d.val f := rfl
@[simp] theorem rd_snapshot (d : Dev) (f : Field) : d.snapshot.rd f = d.rd f := rfl
@[simp] theorem rd_emit (d : Dev) (o : Output) (f : Field) : (d.emit o).rd f = d.rd f := rfl
@[simp] theorem rd_adopt (d : Dev) (g f : Field) : (d.adopt g).rd f = d.rd f := rfl

/-! ### Counters -/

theorem count_bump_self (d : Dev) (c n : Nat) : (d.bump c n).count c = min (2 ^ 64 - 1) (d.count c + n) := by
  have : min (2 ^ 64 - 1) (d.count c + n) < 2 ^ 64 := by omega
  simp only [count, bump, assocD_put_self, BitVec.toNat_ofNat]
  exact Nat.mod_eq_of_lt this

theorem count_bump_ne (d : Dev) {c k : Nat} (n : Nat) (h : c ≠ k) : (d.bump c n).count k = d.count k := by
  simp [count, bump, assocD_put_ne _ _ _ h]

@[simp] theorem count_put (d : Dev) (f : Field) (n c : Nat) : (d.put f n).count c = d.count c := rfl
@[simp] theorem count_putFlag (d : Dev) (f : Field) (b : Bool) (c : Nat) : (d.putFlag f b).count c = d.count c := rfl
@[simp] theorem count_emit (d : Dev) (o : Output) (c : Nat) : (d.emit o).count c = d.count c := rfl
@[simp] theorem counted_bump (d : Dev) (c n k : Nat) : (d.bump c n).counted k = d.counted k := rfl
@[simp] theorem counted_snapshot (d : Dev) (c : Nat) : d.snapshot.counted c = d.count c := rfl

/-! ### Raising a fault -/

/-- `e` is `d` but for what a fault record changes: the fault log, its registers and counters, and the host's mirror. -/
structure FaultStep (d e : Dev) : Prop where
  frame : ∃ r c f o, e = { d with regs := r, ctr := c, flt := f, out := o }
  rd : ∀ f : Field, (∀ g ∈ faultFields, g.key ≠ f.key) → e.rd f = d.rd f
  val : ∀ f : Field, (∀ g ∈ faultFields, g.key ≠ f.key) → e.val f = d.val f
  count : ∀ c, c ∉ faultCounters → e.count c = d.count c

theorem FaultStep.refl (d : Dev) : FaultStep d d := ⟨⟨_, _, _, _, rfl⟩, fun _ _ => rfl, fun _ _ => rfl, fun _ _ => rfl⟩

theorem FaultStep.trans {a b c : Dev} (h : FaultStep a b) (k : FaultStep b c) : FaultStep a c := by
  refine ⟨?_, fun f hf => (k.rd f hf).trans (h.rd f hf), fun f hf => (k.val f hf).trans (h.val f hf), fun x hx => (k.count x hx).trans (h.count x hx)⟩
  obtain ⟨r, x, f, o, rfl⟩ := h.frame
  obtain ⟨r', x', f', o', rfl⟩ := k.frame
  exact ⟨r', x', f', o', rfl⟩

theorem val_put_ne (d : Dev) {f g : Field} (n : Nat) (h : f.key ≠ g.key) : (d.put f n).val g = d.val g := by
  simp only [val, rd_put_ne d n h]; rfl

theorem FaultStep.put {d : Dev} {f : Field} (n : Nat) (h : f ∈ faultFields) : FaultStep d (d.put f n) :=
  ⟨⟨_, _, _, _, rfl⟩, fun _ k => rd_put_ne d n (k f h), fun _ k => val_put_ne d n (k f h), fun _ _ => rfl⟩

theorem FaultStep.bump {d : Dev} {c : Nat} (n : Nat) (h : c ∈ faultCounters) : FaultStep d (d.bump c n) := by
  refine ⟨⟨_, _, _, _, rfl⟩, fun _ _ => rfl, fun _ _ => rfl, fun k hk => count_bump_ne d n ?_⟩
  intro e; subst e; exact hk h

theorem FaultStep.flt {d : Dev} (f : FaultLog) : FaultStep d { d with flt := f } :=
  ⟨⟨_, _, _, _, rfl⟩, fun _ _ => rfl, fun _ _ => rfl, fun _ _ => rfl⟩

theorem FaultStep.emit {d : Dev} (o : Output) : FaultStep d (d.emit o) :=
  ⟨⟨_, _, _, _, rfl⟩, fun _ _ => rfl, fun _ _ => rfl, fun _ _ => rfl⟩

theorem FaultStep.ite {d a b : Dev} {c : Prop} [Decidable c] (h : FaultStep d a) (k : FaultStep d b) : FaultStep d (if c then a else b) := by
  split <;> assumption

theorem mirror_step (d : Dev) (bs : List Byte) : FaultStep d (d.mirror bs) := by
  unfold mirror
  simp only
  split
  · exact ((FaultStep.emit _).trans (FaultStep.emit _)).trans (FaultStep.put _ (by simp [faultFields]))
  · exact FaultStep.refl d

theorem writeRecord_step (d : Dev) (r : FaultRec) : FaultStep d (d.writeRecord r).1 := by
  unfold writeRecord
  simp only
  split
  · exact (((FaultStep.flt _).trans (FaultStep.put _ (by simp [faultFields]))).trans (mirror_step _ _)).trans
      ((FaultStep.put (f := Reg.fltStatusOverflow) _ (by simp [faultFields])).trans (FaultStep.bump 1 (by simp [faultCounters])))
  · exact ((FaultStep.flt _).trans (FaultStep.put _ (by simp [faultFields]))).trans (mirror_step _ _)

theorem withdraw_step (d : Dev) : FaultStep d d.withdraw := by
  unfold withdraw
  split
  · exact (FaultStep.put (f := Reg.fltStatusWithdrawn) _ (by simp [faultFields])).trans (FaultStep.bump 1 (by simp [faultCounters]))
  · exact FaultStep.refl d

/-- All that raising a fault can do. -/
theorem raise_step (d : Dev) (code : FaultCode) (source : Nat) (items : List (Nat × Nat)) (contained : Bool) (cls : Option FaultClass) :
    FaultStep d (d.raise code source items contained cls) := by
  unfold raise
  extract_lets mark log d1 repeated base cl r log2 d2
  have h1 : FaultStep d d1 := FaultStep.flt _
  clear_value cl r
  have h2 : FaultStep d d2 := by
    refine FaultStep.ite (h1.trans ((FaultStep.flt _).trans (FaultStep.put _ (by simp [faultFields])))) ?_
    exact FaultStep.ite ((h1.trans (writeRecord_step _ _)).trans (writeRecord_step _ _)) (h1.trans (writeRecord_step _ _))
  exact FaultStep.ite (h2.trans (withdraw_step d2)) h2

/-- A register that no record writes reads the same after a fault. -/
theorem rd_raise (d : Dev) (code : FaultCode) (source : Nat) (items : List (Nat × Nat)) (k : Bool) (cls : Option FaultClass) (f : Field)
    (h : ∀ g ∈ faultFields, g.key ≠ f.key) : (d.raise code source items k cls).rd f = d.rd f := (raise_step d code source items k cls).rd f h

theorem flag_raise (d : Dev) (code : FaultCode) (source : Nat) (items : List (Nat × Nat)) (k : Bool) (cls : Option FaultClass) (f : Field)
    (h : ∀ g ∈ faultFields, g.key ≠ f.key) : (d.raise code source items k cls).flag f = d.flag f := by
  simp [flag, rd_raise d code source items k cls f h]

theorem count_raise (d : Dev) (code : FaultCode) (source : Nat) (items : List (Nat × Nat)) (k : Bool) (cls : Option FaultClass) (c : Nat)
    (h : c ∉ faultCounters) : (d.raise code source items k cls).count c = d.count c := (raise_step d code source items k cls).count c h

/-- A record written is the latest of the log. -/
theorem writeRecord_recent (d : Dev) (r : FaultRec) :
    (d.writeRecord r).1.flt.recent = (d.flt.recent ++ [{ r with lostBefore := d.flt.lostNext }]).drop (d.flt.recent.length + 1 - 64) := by
  have m : ∀ (x : Dev) bs, (x.mirror bs).flt = x.flt := fun x bs => by unfold mirror; simp only; split <;> rfl
  unfold writeRecord; simp only; split <;> simp only [bump_flt, putFlag_flt, m, put_flt]

theorem mem_drop_last {α : Type} (l : List α) (x : α) : x ∈ (l ++ [x]).drop (l.length + 1 - 64) := by
  rw [List.drop_append_of_le_length (by omega)]; simp

theorem mem_drop_twice {α : Type} (l : List α) (x y : α) :
    x ∈ ((l ++ [x]).drop (l.length + 1 - 64) ++ [y]).drop (((l ++ [x]).drop (l.length + 1 - 64)).length + 1 - 64) := by
  rw [List.drop_append_of_le_length (l₁ := l) (by omega)]
  generalize l.drop (l.length + 1 - 64) = m
  rw [List.append_assoc, List.drop_append_of_le_length (by simp)]; simp

/-- The record of a fault is among the latest of the log, or, in BOOT and RECOVERY, among those held. -/
theorem raise_recorded (d : Dev) (code : FaultCode) (source : Nat) (items : List (Nat × Nat)) (contained : Bool) (cls : Option FaultClass) :
    ∃ r, (r ∈ (d.raise code source items contained cls).flt.recent ∨ r ∈ (d.raise code source items contained cls).flt.boot) ∧ r.code = code := by
  have wd : ∀ e : Dev, e.withdraw.flt = e.flt := fun e => by unfold withdraw; split <;> rfl
  unfold raise
  extract_lets mark log d1 repeated base cl r log2 d2
  have hr : r.code = code := rfl
  clear_value r cl
  have h2 : ∃ x, (x ∈ d2.flt.recent ∨ x ∈ d2.flt.boot) ∧ x.code = code := by
    simp only [d2]
    split
    · exact ⟨r, Or.inr (by simp only [put_flt]; exact mem_drop_last _ _), hr⟩
    · split
      · refine ⟨_, Or.inl ?_, (show ({ r with lostBefore := d1.flt.lostNext } : FaultRec).code = code from hr)⟩
        rw [writeRecord_recent, writeRecord_recent]; exact mem_drop_twice _ _ _
      · refine ⟨_, Or.inl ?_, (show ({ r with lostBefore := d1.flt.lostNext } : FaultRec).code = code from hr)⟩
        rw [writeRecord_recent]; exact mem_drop_last _ _
  split
  · rw [wd]; exact h2
  · exact h2

/-! What a fault leaves alone, by field. -/

@[simp] theorem raise_latch (d : Dev) (x : FaultCode) (s : Nat) (l : List (Nat × Nat)) (k : Bool) (c : Option FaultClass) :
    (d.raise x s l k c).latch = d.latch := by obtain ⟨_, _, _, _, h⟩ := (raise_step d x s l k c).frame; rw [h]
@[simp] theorem raise_epc (d : Dev) (x : FaultCode) (s : Nat) (l : List (Nat × Nat)) (k : Bool) (c : Option FaultClass) :
    (d.raise x s l k c).epc = d.epc := by obtain ⟨_, _, _, _, h⟩ := (raise_step d x s l k c).frame; rw [h]
@[simp] theorem raise_seq (d : Dev) (x : FaultCode) (s : Nat) (l : List (Nat × Nat)) (k : Bool) (c : Option FaultClass) :
    (d.raise x s l k c).seq = d.seq := by obtain ⟨_, _, _, _, h⟩ := (raise_step d x s l k c).frame; rw [h]
@[simp] theorem raise_freeCtr (d : Dev) (x : FaultCode) (s : Nat) (l : List (Nat × Nat)) (k : Bool) (c : Option FaultClass) :
    (d.raise x s l k c).freeCtr = d.freeCtr := by obtain ⟨_, _, _, _, h⟩ := (raise_step d x s l k c).frame; rw [h]
@[simp] theorem raise_homeMap (d : Dev) (x : FaultCode) (s : Nat) (l : List (Nat × Nat)) (k : Bool) (c : Option FaultClass) :
    (d.raise x s l k c).homeMap = d.homeMap := by obtain ⟨_, _, _, _, h⟩ := (raise_step d x s l k c).frame; rw [h]
@[simp] theorem raise_tier (d : Dev) (x : FaultCode) (s : Nat) (l : List (Nat × Nat)) (k : Bool) (c : Option FaultClass) :
    (d.raise x s l k c).tier = d.tier := by obtain ⟨_, _, _, _, h⟩ := (raise_step d x s l k c).frame; rw [h]
@[simp] theorem raise_lutDir (d : Dev) (x : FaultCode) (s : Nat) (l : List (Nat × Nat)) (k : Bool) (c : Option FaultClass) :
    (d.raise x s l k c).lutDir = d.lutDir := by obtain ⟨_, _, _, _, h⟩ := (raise_step d x s l k c).frame; rw [h]
@[simp] theorem raise_ingress (d : Dev) (x : FaultCode) (s : Nat) (l : List (Nat × Nat)) (k : Bool) (c : Option FaultClass) :
    (d.raise x s l k c).ingress = d.ingress := by obtain ⟨_, _, _, _, h⟩ := (raise_step d x s l k c).frame; rw [h]
@[simp] theorem raise_pool (d : Dev) (x : FaultCode) (s : Nat) (l : List (Nat × Nat)) (k : Bool) (c : Option FaultClass) :
    (d.raise x s l k c).pool = d.pool := by obtain ⟨_, _, _, _, h⟩ := (raise_step d x s l k c).frame; rw [h]
@[simp] theorem raise_idx (d : Dev) (x : FaultCode) (s : Nat) (l : List (Nat × Nat)) (k : Bool) (c : Option FaultClass) :
    (d.raise x s l k c).idx = d.idx := by obtain ⟨_, _, _, _, h⟩ := (raise_step d x s l k c).frame; rw [h]
@[simp] theorem raise_cvu (d : Dev) (x : FaultCode) (s : Nat) (l : List (Nat × Nat)) (k : Bool) (c : Option FaultClass) :
    (d.raise x s l k c).cvu = d.cvu := by obtain ⟨_, _, _, _, h⟩ := (raise_step d x s l k c).frame; rw [h]
@[simp] theorem raise_fls (d : Dev) (x : FaultCode) (s : Nat) (l : List (Nat × Nat)) (k : Bool) (c : Option FaultClass) :
    (d.raise x s l k c).fls = d.fls := by obtain ⟨_, _, _, _, h⟩ := (raise_step d x s l k c).frame; rw [h]
@[simp] theorem raise_strata (d : Dev) (x : FaultCode) (s : Nat) (l : List (Nat × Nat)) (k : Bool) (c : Option FaultClass) :
    (d.raise x s l k c).strata = d.strata := by obtain ⟨_, _, _, _, h⟩ := (raise_step d x s l k c).frame; rw [h]
@[simp] theorem raise_host (d : Dev) (x : FaultCode) (s : Nat) (l : List (Nat × Nat)) (k : Bool) (c : Option FaultClass) :
    (d.raise x s l k c).host = d.host := by obtain ⟨_, _, _, _, h⟩ := (raise_step d x s l k c).frame; rw [h]
@[simp] theorem raise_rows (d : Dev) (x : FaultCode) (s : Nat) (l : List (Nat × Nat)) (k : Bool) (c : Option FaultClass) :
    (d.raise x s l k c).rows = d.rows := by obtain ⟨_, _, _, _, h⟩ := (raise_step d x s l k c).frame; rw [h]
@[simp] theorem raise_pim (d : Dev) (x : FaultCode) (s : Nat) (l : List (Nat × Nat)) (k : Bool) (c : Option FaultClass) :
    (d.raise x s l k c).pim = d.pim := by obtain ⟨_, _, _, _, h⟩ := (raise_step d x s l k c).frame; rw [h]
@[simp] theorem raise_egs (d : Dev) (x : FaultCode) (s : Nat) (l : List (Nat × Nat)) (k : Bool) (c : Option FaultClass) :
    (d.raise x s l k c).egs = d.egs := by obtain ⟨_, _, _, _, h⟩ := (raise_step d x s l k c).frame; rw [h]
@[simp] theorem raise_fab (d : Dev) (x : FaultCode) (s : Nat) (l : List (Nat × Nat)) (k : Bool) (c : Option FaultClass) :
    (d.raise x s l k c).fab = d.fab := by obtain ⟨_, _, _, _, h⟩ := (raise_step d x s l k c).frame; rw [h]
@[simp] theorem raise_job (d : Dev) (x : FaultCode) (s : Nat) (l : List (Nat × Nat)) (k : Bool) (c : Option FaultClass) :
    (d.raise x s l k c).job = d.job := by obtain ⟨_, _, _, _, h⟩ := (raise_step d x s l k c).frame; rw [h]
@[simp] theorem raise_power (d : Dev) (x : FaultCode) (s : Nat) (l : List (Nat × Nat)) (k : Bool) (c : Option FaultClass) :
    (d.raise x s l k c).power = d.power := by obtain ⟨_, _, _, _, h⟩ := (raise_step d x s l k c).frame; rw [h]
@[simp] theorem raise_aon (d : Dev) (x : FaultCode) (s : Nat) (l : List (Nat × Nat)) (k : Bool) (c : Option FaultClass) :
    (d.raise x s l k c).aon = d.aon := by obtain ⟨_, _, _, _, h⟩ := (raise_step d x s l k c).frame; rw [h]
@[simp] theorem raise_boot (d : Dev) (x : FaultCode) (s : Nat) (l : List (Nat × Nat)) (k : Bool) (c : Option FaultClass) :
    (d.raise x s l k c).boot = d.boot := by obtain ⟨_, _, _, _, h⟩ := (raise_step d x s l k c).frame; rw [h]
@[simp] theorem raise_spdm (d : Dev) (x : FaultCode) (s : Nat) (l : List (Nat × Nat)) (k : Bool) (c : Option FaultClass) :
    (d.raise x s l k c).spdm = d.spdm := by obtain ⟨_, _, _, _, h⟩ := (raise_step d x s l k c).frame; rw [h]
@[simp] theorem raise_mon (d : Dev) (x : FaultCode) (s : Nat) (l : List (Nat × Nat)) (k : Bool) (c : Option FaultClass) :
    (d.raise x s l k c).mon = d.mon := by obtain ⟨_, _, _, _, h⟩ := (raise_step d x s l k c).frame; rw [h]

end Dev

namespace State

@[simp] theorem settle_rd (s : State) (f : Field) : s.settle.dev.rd f = s.dev.rd f := rfl
@[simp] theorem settle_flag (s : State) (f : Field) : s.settle.dev.flag f = s.dev.flag f := rfl
@[simp] theorem settle_val (s : State) (f : Field) : s.settle.dev.val f = s.dev.val f := rfl
@[simp] theorem settle_count (s : State) (c : Nat) : s.settle.dev.count c = s.dev.count c := rfl
@[simp] theorem settle_counted (s : State) (c : Nat) : s.settle.dev.counted c = s.dev.counted c := rfl

end State

/-- Every command that ends with `done` answers the settled state. -/
theorem done_next (s : State) : done s = .next s.settle := rfl
theorem devOnly_next (s : State) (f : Dev → Dev) : devOnly s f = .next (s.onDev f).settle := rfl

end Sys2Proof.Machine
end

