-- ==== Sys2Proof/Laws/Mem.lean ====
section
/-! SUPPORT. The memories: reading after writing, and that every memory operation keeps the canonical form. -/

namespace Sys2Proof.Machine

/-! ### Cells -/

theorem cellGet_lt {lo k : Nat} {l : List Host.Cell} (h : cellsWf lo l = true) (hk : k < lo) : cellGet k l = 0 := by
  cases l with
  | nil => rfl
  | cons x rest =>
    obtain ⟨j, b⟩ := x
    simp only [cellsWf, Bool.and_eq_true, decide_eq_true_eq] at h
    have : ¬j = k := by omega
    have : k < j := by omega
    simp [cellGet, *]

theorem cellsWf_cons {lo j : Nat} {b : Byte} {rest : List Host.Cell} :
    cellsWf lo ((j, b) :: rest) = true ↔ lo ≤ j ∧ b ≠ 0#8 ∧ cellsWf (j + 1) rest = true := by
  simp [cellsWf, and_assoc]

theorem cellsWf_mono {lo hi : Nat} {l : List Host.Cell} (h : cellsWf hi l = true) (hle : lo ≤ hi) : cellsWf lo l = true := by
  cases l with
  | nil => rfl
  | cons x rest =>
    obtain ⟨j, b⟩ := x
    rw [cellsWf_cons] at h ⊢
    exact ⟨by omega, h.2⟩

/-- Writing keeps the canonical form. -/
theorem cellSet_wf {lo k : Nat} {l : List Host.Cell} (b : Byte) (h : cellsWf lo l = true) (hk : lo ≤ k) : cellsWf lo (cellSet k b l) = true := by
  induction l generalizing lo with
  | nil =>
    by_cases e : b = 0#8
    · simp [cellSet, e, cellsWf]
    · simp [cellSet, e, cellsWf, hk]
  | cons x rest ih =>
    obtain ⟨j, c⟩ := x
    have h' := h
    rw [cellsWf_cons] at h'
    obtain ⟨hj, hc, hr⟩ := h'
    by_cases e : k < j
    · by_cases z : b = 0#8
      · simp [cellSet, e, z, h]
      · simp only [cellSet, e, z, if_true, BitVec.ofNat_eq_ofNat, if_false, cellsWf_cons]
        exact ⟨hk, z, by omega, hc, hr⟩
    · by_cases f : j = k
      · subst f
        by_cases z : b = 0#8
        · simp [cellSet, z, cellsWf_mono hr (by omega : lo ≤ j + 1)]
        · simp [cellSet, z, cellsWf_cons, hj, hr]
      · simp [cellSet, e, f, cellsWf_cons, hj, hc, ih hr (by omega)]

/-- A read of the byte written. -/
theorem cellGet_set_self {lo k : Nat} {l : List Host.Cell} (b : Byte) (h : cellsWf lo l = true) : cellGet k (cellSet k b l) = b := by
  induction l generalizing lo with
  | nil => by_cases e : b = 0#8 <;> simp [cellSet, cellGet, e]
  | cons x rest ih =>
    obtain ⟨j, c⟩ := x
    rw [cellsWf_cons] at h
    obtain ⟨hj, hc, hr⟩ := h
    by_cases e : k < j
    · have : ¬j = k := by omega
      by_cases z : b = 0#8 <;> simp [cellSet, cellGet, *]
    · by_cases f : j = k
      · subst f
        by_cases z : b = 0#8
        · simp [cellSet, z, cellGet_lt hr (by omega : j < j + 1)]
        · simp [cellSet, cellGet, z]
      · simp [cellSet, cellGet, e, f, ih hr]

/-- A read of any other byte. -/
theorem cellGet_set_ne {lo k m : Nat} {l : List Host.Cell} (b : Byte) (h : cellsWf lo l = true) (hm : k ≠ m) :
    cellGet m (cellSet k b l) = cellGet m l := by
  induction l generalizing lo with
  | nil =>
    by_cases e : b = 0#8
    · simp [cellSet, e]
    · simp [cellSet, cellGet, e, hm]
  | cons x rest ih =>
    obtain ⟨j, c⟩ := x
    rw [cellsWf_cons] at h
    obtain ⟨hj, hc, hr⟩ := h
    by_cases e : k < j
    · by_cases z : b = 0#8
      · simp [cellSet, e, z]
      · by_cases f : k < m
        · simp [cellSet, e, z, cellGet, hm, Nat.not_lt.mpr (Nat.le_of_lt f)]
        · have : m < k := by omega
          have : m < j := by omega
          have : ¬j = m := by omega
          simp [cellSet, cellGet, *]
    · by_cases f : j = k
      · subst f
        by_cases z : b = 0#8
        · simp only [cellSet, Nat.lt_irrefl, z, BitVec.ofNat_eq_ofNat, if_true, if_false, cellGet, hm]
          split
          · exact cellGet_lt hr (by omega)
          · rfl
        · simp [cellSet, z, cellGet, hm]
      · by_cases g : j = m
        · subst g; simp [cellSet, e, f, cellGet]
        · simp [cellSet, e, f, cellGet, g, ih hr]

/-! ### Rising lists -/

theorem risingInsert_wf {lo k : Nat} {l : List Nat} (h : rising lo l = true) (hk : lo ≤ k) : rising lo (risingInsert k l) = true := by
  induction l generalizing lo with
  | nil => simp [risingInsert, rising, hk]
  | cons j rest ih =>
    simp only [rising, Bool.and_eq_true, decide_eq_true_eq] at h
    obtain ⟨hj, hr⟩ := h
    by_cases e : k < j
    · simp [risingInsert, e, rising, hk, hr] <;> omega
    · by_cases f : j = k
      · subst f; simp [risingInsert, rising, hj, hr]
      · simp [risingInsert, e, f, rising, hj, ih hr (by omega)]

theorem rising_mono {lo hi : Nat} {l : List Nat} (h : rising hi l = true) (hle : lo ≤ hi) : rising lo l = true := by
  cases l with
  | nil => rfl
  | cons j rest => simp only [rising, Bool.and_eq_true, decide_eq_true_eq] at h ⊢; exact ⟨by omega, h.2⟩

theorem risingErase_wf {lo k : Nat} {l : List Nat} (h : rising lo l = true) : rising lo (risingErase k l) = true := by
  induction l generalizing lo with
  | nil => rfl
  | cons j rest ih =>
    simp only [rising, Bool.and_eq_true, decide_eq_true_eq] at h
    obtain ⟨hj, hr⟩ := h
    by_cases f : j = k
    · subst f; simp [risingErase, rising_mono hr (by omega : lo ≤ j + 1)]
    · by_cases e : k < j
      · simp [risingErase, f, e, rising, hj, hr]
      · simp [risingErase, f, e, rising, hj, ih hr]

theorem rising_filter {lo : Nat} {l : List Nat} (p : Nat → Bool) (h : rising lo l = true) : rising lo (l.filter p) = true := by
  induction l generalizing lo with
  | nil => rfl
  | cons j rest ih =>
    simp only [rising, Bool.and_eq_true, decide_eq_true_eq] at h
    by_cases e : p j = true
    · simp [List.filter, e, rising, h.1, ih h.2]
    · simp only [List.filter, e]; exact rising_mono (ih h.2) (by omega)

theorem cellsWf_filter {lo : Nat} {l : List Host.Cell} (p : Host.Cell → Bool) (h : cellsWf lo l = true) : cellsWf lo (l.filter p) = true := by
  induction l generalizing lo with
  | nil => rfl
  | cons x rest ih =>
    obtain ⟨j, b⟩ := x
    rw [cellsWf_cons] at h
    by_cases e : p (j, b) = true
    · simp [List.filter, e, cellsWf_cons, h.1, h.2.1, ih h.2.2]
    · simp only [List.filter, e]; exact cellsWf_mono (ih h.2.2) (by omega)

/-! ### The memories -/

namespace Mem

theorem wf_iff (m : Mem) : m.wf = true ↔ cellsWf 0 m.cells = true ∧ rising 0 m.poison = true := by simp [wf]

theorem set_wf {m : Mem} (sp : Space) (a : Nat) (b : Byte) (h : m.wf = true) : (m.set sp a b).wf = true := by
  rw [wf_iff] at *; exact ⟨cellSet_wf b h.1 (Nat.zero_le _), h.2⟩

theorem write_wf {m : Mem} (sp : Space) (a : Nat) (bs : List Byte) (h : m.wf = true) : (m.write sp a bs).wf = true := by
  induction bs generalizing m a with
  | nil => exact h
  | cons b bs ih => exact ih _ (set_wf sp a b h)

theorem foldl_rising {α : Type} (l : List α) (f : List Nat → α → List Nat) (hf : ∀ p x, rising 0 p = true → rising 0 (f p x) = true)
    {p : List Nat} (h : rising 0 p = true) : rising 0 (l.foldl f p) = true := by
  induction l generalizing p with
  | nil => exact h
  | cons x xs ih => exact ih (hf p x h)

theorem mark_wf {m : Mem} (sp : Space) (a n : Nat) (h : m.wf = true) : (m.mark sp a n).wf = true := by
  rw [wf_iff] at *
  exact ⟨h.1, foldl_rising _ _ (fun p i hp => risingInsert_wf hp (Nat.zero_le _)) h.2⟩

theorem unmark_wf {m : Mem} (sp : Space) (a n : Nat) (h : m.wf = true) : (m.unmark sp a n).wf = true := by
  rw [wf_iff] at *
  exact ⟨h.1, foldl_rising _ _ (fun p i hp => risingErase_wf hp) h.2⟩

theorem store_wf {m : Mem} (sp : Space) (a : Nat) (bs : List Byte) (p : Bool) (h : m.wf = true) : (m.store sp a bs p).wf = true := by
  unfold store
  cases p
  · exact unmark_wf _ _ _ (write_wf _ _ _ h)
  · exact mark_wf _ _ _ (write_wf _ _ _ h)

theorem clear_wf {m : Mem} (sp : Space) (h : m.wf = true) : (m.clear sp).wf = true := by
  rw [wf_iff] at *; exact ⟨cellsWf_filter _ h.1, rising_filter _ h.2⟩

theorem clearRange_wf {m : Mem} (sp : Space) (lo hi : Nat) (h : m.wf = true) : (m.clearRange sp lo hi).wf = true := by
  rw [wf_iff] at *; exact ⟨cellsWf_filter _ h.1, rising_filter _ h.2⟩

/-! ### Reading after writing -/

theorem get_set_self {m : Mem} (sp : Space) (a : Nat) (b : Byte) (h : m.wf = true) : (m.set sp a b).get sp a = b :=
  cellGet_set_self b ((wf_iff m).1 h).1

theorem get_set_ne {m : Mem} (sp sq : Space) (a c : Nat) (b : Byte) (h : m.wf = true) (hk : sp.base + a ≠ sq.base + c) :
    (m.set sp a b).get sq c = m.get sq c := cellGet_set_ne b ((wf_iff m).1 h).1 hk

/-- A byte outside the ones written. -/
theorem get_write_out {m : Mem} (sp sq : Space) (a c : Nat) (bs : List Byte) (h : m.wf = true)
    (hk : sq.base + c < sp.base + a ∨ sp.base + a + bs.length ≤ sq.base + c) : (m.write sp a bs).get sq c = m.get sq c := by
  induction bs generalizing m a with
  | nil => rfl
  | cons b bs ih =>
    rw [List.length_cons] at hk
    rw [write, ih (a + 1) (set_wf sp a b h) (by omega), get_set_ne sp sq a c b h (by omega)]

theorem get_write_in {m : Mem} (sp : Space) (a i : Nat) (bs : List Byte) (h : m.wf = true) (hi : i < bs.length) :
    (m.write sp a bs).get sp (a + i) = bs[i] := by
  induction bs generalizing m a i with
  | nil => simp at hi
  | cons b bs ih =>
    rw [write]
    cases i with
    | zero => rw [get_write_out sp sp (a + 1) (a + 0) bs (set_wf sp a b h) (by omega)]; exact get_set_self sp a b h
    | succ i =>
      have := ih (a + 1) i (set_wf sp a b h) (by simpa using hi)
      simpa [Nat.add_assoc, Nat.add_comm 1 i] using this

theorem read_length (m : Mem) (sp : Space) (a n : Nat) : (m.read sp a n).length = n := by
  induction n generalizing a with
  | zero => rfl
  | succ n ih => simp [read, ih]

/-- Reading back what was written. -/
theorem read_write {m : Mem} (sp : Space) (a : Nat) (bs : List Byte) (h : m.wf = true) : (m.write sp a bs).read sp a bs.length = bs := by
  induction bs generalizing m a with
  | nil => rfl
  | cons b bs ih =>
    simp only [List.length_cons, read, write]
    rw [get_write_out sp sp (a + 1) a bs (set_wf sp a b h) (by omega), get_set_self sp a b h, ih (a + 1) (set_wf sp a b h)]

@[simp] theorem mark_get (m : Mem) (sp sq : Space) (a n c : Nat) : (m.mark sp a n).get sq c = m.get sq c := rfl
@[simp] theorem unmark_get (m : Mem) (sp sq : Space) (a n c : Nat) : (m.unmark sp a n).get sq c = m.get sq c := rfl

@[simp] theorem store_get (m : Mem) (sp sq : Space) (a : Nat) (bs : List Byte) (p : Bool) (c : Nat) :
    (m.store sp a bs p).get sq c = (m.write sp a bs).get sq c := by cases p <;> rfl

theorem reset_wf : (State.reset).mem.wf = true := rfl

end Mem

end Sys2Proof.Machine
end

