-- ==== Sys2Proof/Laws/Keeps.lean ====
section
/-! SUPPORT. A change of the state that keeps the memories canonical and leaves the queue alone, and the shared operations,
each of which is one. -/

namespace Sys2Proof.Machine

/-- The memories stay canonical and the queue of commands stays as it is. -/
structure Keeps (s t : State) : Prop where
  wf : s.mem.wf = true → t.mem.wf = true
  queue : t.pending = s.pending

namespace Keeps

theorem refl (s : State) : Keeps s s := ⟨id, rfl⟩

theorem trans {a b c : State} (h : Keeps a b) (k : Keeps b c) : Keeps a c := ⟨fun w => k.wf (h.wf w), k.queue.trans h.queue⟩

theorem onDev (s : State) (f : Dev → Dev) : Keeps s (s.onDev f) := ⟨id, rfl⟩

/-- A change of the device part alone. -/
theorem dev (s : State) (d : Dev) : Keeps s { s with dev := d } := ⟨id, rfl⟩

theorem mem (s : State) (m : Mem) (h : s.mem.wf = true → m.wf = true) : Keeps s { s with mem := m } := ⟨h, rfl⟩

theorem onMem (s : State) (f : Mem → Mem) (h : ∀ m : Mem, m.wf = true → (f m).wf = true) : Keeps s (s.onMem f) := ⟨h _, rfl⟩

theorem ite {s a b : State} {c : Prop} [Decidable c] (h : Keeps s a) (k : Keeps s b) : Keeps s (if c then a else b) := by
  split <;> assumption

theorem foldl {α : Type} (l : List α) (f : State → α → State) (hf : ∀ s x, Keeps s (f s x)) (s : State) : Keeps s (l.foldl f s) := by
  induction l generalizing s with
  | nil => exact refl s
  | cons x xs ih => exact (hf s x).trans (ih (f s x))

end Keeps

namespace State

theorem devPut_keeps (s : State) (a : Nat) (bs : List Byte) : Keeps s (s.devPut a bs) := by
  induction bs generalizing s a with
  | nil => exact Keeps.refl s
  | cons b bs ih => exact (Keeps.mem s _ (Mem.set_wf _ _ _)).trans (ih _ _)

theorem devMark_keeps (s : State) (a n : Nat) (p : Bool) : Keeps s (s.devMark a n p) := by
  unfold devMark
  refine Keeps.foldl _ _ (fun s i => ?_) s
  exact Keeps.ite (Keeps.mem s _ (Mem.mark_wf _ _ _)) (Keeps.ite (Keeps.mem s _ (Mem.unmark_wf _ _ _)) (Keeps.refl s))

theorem devStore_keeps (s : State) (a : Nat) (bs : List Byte) (p : Bool) : Keeps s (s.devStore a bs p) := by
  unfold devStore
  exact ((devPut_keeps s a bs).trans (devMark_keeps _ _ _ _)).trans
    (Keeps.foldl _ _ (fun _ _ => (devPut_keeps _ _ _).trans (devMark_keeps _ _ _ _)) _)

theorem devWrite_keeps (s : State) (a : Nat) (bs : List Byte) (p : Bool) : Keeps s (s.devWrite a bs p) := by
  unfold devWrite
  exact Keeps.ite (Keeps.ite (Keeps.onDev _ _) (Keeps.ite (devStore_keeps s a bs p) ((devStore_keeps s a bs p).trans (Keeps.onDev _ _)))) (Keeps.refl s)

theorem addrFault_keeps (s : State) (a who idx src : Nat) : Keeps s (s.addrFault a who idx src) := Keeps.onDev s _

theorem locWrite_keeps (s : State) (c : Nat) (l : Loc) (bs : List Byte) (p : Bool) : Keeps s (s.locWrite c l bs p) := by
  cases l with
  | dev a => exact devWrite_keeps s a bs p
  | store o =>
    unfold locWrite
    refine Keeps.ite ((Keeps.mem s _ (Mem.store_wf _ _ _ _)).trans (Keeps.ite (Keeps.onDev _ _) (Keeps.refl _))) (Keeps.refl s)

theorem locCheck_keeps (s : State) (c : Nat) (l : Loc) (n idx : Nat) : Keeps s (s.locCheck c l n idx) := by
  cases l with
  | dev a => exact Keeps.ite (Keeps.refl s) (addrFault_keeps s _ _ _ _)
  | store o => exact Keeps.ite (Keeps.refl s) ((addrFault_keeps s _ _ _ _).trans (Keeps.onDev _ _))

theorem vput_keeps (s : State) (c v : Nat) (xs : List Nat) (p : Bool) : Keeps s (s.vput c v xs p) := by
  unfold vput
  exact (Keeps.mem s _ (Mem.store_wf _ _ _ _)).trans (Keeps.ite (Keeps.onDev _ _) (Keeps.refl _))

theorem settle_keeps (s : State) : Keeps s s.settle := by
  refine ⟨fun h => ?_, rfl⟩
  show (s.dev.flt.ring.foldl _ s.mem).wf = true
  generalize s.dev.flt.ring = l
  revert h
  generalize s.mem = m
  induction l generalizing m with
  | nil => exact id
  | cons x xs ih => exact fun h => ih _ (Mem.store_wf _ _ _ _ h)

theorem homePut_keeps (s : State) (r : HomeRec) : Keeps s (s.homePut r) := by
  unfold homePut
  refine Keeps.trans ?_ (Keeps.onDev _ _)
  exact devWrite_keeps s _ _ _

theorem showMoves_keeps (s : State) : Keeps s s.showMoves := by
  unfold showMoves
  exact Keeps.onDev _ _

theorem setHome_keeps (s : State) (r : HomeRec) : Keeps s (s.setHome r) := by
  unfold setHome
  refine Keeps.trans ?_ (showMoves_keeps _)
  refine Keeps.trans ?_ (Keeps.onDev _ _)
  exact homePut_keeps s r

theorem loseHome_keeps (s : State) (r : HomeRec) : Keeps s (s.loseHome r) := by
  unfold loseHome
  exact Keeps.ite (Keeps.refl s) ((setHome_keeps s _).trans (Keeps.onDev _ _))

theorem tellBad_keeps (s : State) : Keeps s s.tellBad := by
  unfold tellBad
  exact Keeps.ite (Keeps.foldl _ _ (fun s _ => Keeps.onDev s _) s) (Keeps.refl s)

theorem loseAt_keeps (s : State) (tier a : Nat) : Keeps s (s.loseAt tier a) := by
  unfold loseAt
  refine (tellBad_keeps s).trans ?_
  dsimp only
  split
  · exact loseHome_keeps _ _
  · exact Keeps.refl _

theorem devUncorrectable_keeps (s : State) (a : Nat) : Keeps s (s.devUncorrectable a) := by
  unfold devUncorrectable
  refine (devMark_keeps s (a / 64 * 64) 64 true).trans (Keeps.ite ?_ ?_)
  · exact (Keeps.onDev _ _).trans (loseAt_keeps _ _ _)
  · exact (Keeps.onDev _ _).trans (loseAt_keeps _ _ _)

theorem mapParity_keeps (s : State) (g : Nat) : Keeps s (s.mapParity g) := by
  unfold mapParity
  exact Keeps.onDev _ _

theorem upset_keeps (s : State) (c idx : Nat) (u : Upset) : Keeps s (s.upset c idx u) := by
  cases u with
  | storeBad off => unfold upset; exact (Keeps.mem s _ (Mem.mark_wf _ _ _)).trans (Keeps.dev _ _)
  | regBad v e => unfold upset; exact (Keeps.mem s _ (Mem.mark_wf _ _ _)).trans (Keeps.dev _ _)
  | devBad a => exact devUncorrectable_keeps s a
  | mapBad g => exact mapParity_keeps s g
  | tileBad _ _ => exact Keeps.refl s
  | lutBad _ => exact Keeps.refl s
  | storeCorrected => unfold upset; exact Keeps.onDev s _
  | devCorrected _ _ => unfold upset; exact Keeps.onDev s _
  | cvuBad _ _ => unfold upset; exact Keeps.onDev s _
  | suspend _ => unfold upset; exact Keeps.onDev s _

theorem upsets_keeps (s : State) (c idx : Nat) (us : List Upset) : Keeps s (s.upsets c idx us) :=
  Keeps.foldl us _ (fun s u => upset_keeps s c idx u) s

end State

/-- A command that ends with `done` keeps what its change keeps. -/
theorem done_keeps {s r t : State} (h : Keeps s r) (e : done r = .next t) : Keeps s t := by
  injection e with e; subst e; exact h.trans (State.settle_keeps r)

theorem devOnly_keeps {s t : State} {f : Dev → Dev} (e : devOnly s f = .next t) : Keeps s t := done_keeps (Keeps.onDev s f) e

/-- The shell of a step command: it answers a next state whatever the step, and keeps what the step's own work keeps. -/
theorem stepCmd_next (c : Nat) (h : Hdr) (p : Params) (us : List Upset) (run : Ctx → State → State × Option (List Nat)) (s : State) :
    ∃ t, stepCmd c h p us run s = .next t := by
  unfold stepCmd
  split
  · split <;> exact ⟨_, rfl⟩
  · exact ⟨_, rfl⟩

/-- A step command whose step is held changes nothing but that the records of the fault log reach memory (R49). -/
theorem stepCmd_held {c : Nat} {h : Hdr} {p : Params} {us : List Upset} {run : Ctx → State → State × Option (List Nat)} {s : State}
    (ok : chamberOk c && stepOk ⟨h, p⟩) (held : s.dev.heldBack c h.index = true) : stepCmd c h p us run s = done s := by
  simp [stepCmd, ok, held]

theorem stepCmd_keeps {c : Nat} {h : Hdr} {p : Params} {us : List Upset} {run : Ctx → State → State × Option (List Nat)} {s t : State}
    (hr : ∀ x s, Keeps s (run x s).1) (e : stepCmd c h p us run s = .next t) : Keeps s t := by
  unfold stepCmd at e
  split at e
  · split at e
    · exact done_keeps (Keeps.refl s) e
    · exact done_keeps (((State.upsets_keeps s c _ us).trans (hr _ _)).trans (Keeps.onDev _ _)) e
  · exact devOnly_keeps e

end Sys2Proof.Machine
end

