-- ==== Sys2Proof/Tests/Slice0.lean ====
section
/-! SUPPORT. The tests: ill-formed commands are refused, small facts from the spec's own tables and examples hold, and for every statement of
Certificates/Slice0/Obligations.lean a named theorem shows states and operands that meet the hypotheses of each of its clauses. -/

namespace Sys2Proof.Tests

set_option Elab.async false
set_option linter.unusedVariables false
set_option maxRecDepth 20000

open Sys2Proof Sys2Proof.Machine

/-! ### Small states -/

/-- A block in a state of R480 with some registers written and in effect. -/
def dv (g : Nat) (l : List (Field × Nat)) (d : Dev := {}) : Dev := ((Reg.glbState, g) :: l).foldl (fun d f => (d.put f.1 f.2).adopt f.1) d

/-- Memories with some bytes. -/
def mm (l : List (Space × Nat × List Byte)) : Mem := l.foldl (fun m x => m.write x.1 x.2.1 x.2.2) {}

def st (g : Nat) (l : List (Field × Nat)) (d : Dev := {}) (m : List (Space × Nat × List Byte) := []) : State := { dev := dv g l d, mem := mm m, pending := [] }

/-! ### Places -/

theorem xlate_id {s : State} (h : s.dev.homeMap = []) {a : Nat} (ha : a < 2 ^ 40) : s.xlate a = a := by
  simp only [State.xlate, h, assocD]; omega

theorem onePlaceAt {s : State} {a n : Nat} (h : s.dev.homeMap = [] ∧ s.dev.tier.mirrors = []) (ha : a + n ≤ 2 ^ 40) : OnePlaceAt s a n := by
  refine ⟨fun i j hi hj e => ?_, by simp [State.mirrorParts, h.2]⟩
  rw [xlate_id h.1 (by omega), xlate_id h.1 (by omega)] at e; omega

theorem plainAt {s : State} {a n : Nat} (h : s.dev.homeMap = [] ∧ s.dev.tier.mirrors = [] ∧ s.dev.tier.badMap = []) (hb : State.banksMet a n = [])
    (ha : a + n ≤ 2 ^ 40) : PlainAt s a n := ⟨onePlaceAt ⟨h.1, h.2.1⟩ ha, hb, fun _ _ => by simp [h.2.2]⟩

theorem tableAlone {s : State} (h : s.dev.homeMap = [] ∧ s.dev.tier.mirrors = [] ∧ s.homesReady = true)
    (ha : s.dev.val Reg.homeBase + 64 * s.dev.val Reg.homeCount ≤ 2 ^ 40) : TableAlone s := ⟨h.2.2, onePlaceAt ⟨h.1, h.2.1⟩ ha⟩

theorem onePlace {s : State} {c addr n : Nat} (h : s.dev.homeMap = [] ∧ s.dev.tier.mirrors = []) (hc : c < 256) (hn : n ≤ 2 ^ 26) : OnePlace s c addr n := by
  have hb : bits addr 0 26 < 2 ^ 26 := Nat.mod_lt _ (by decide)
  unfold OnePlace locOf
  split
  · trivial
  · rename_i a he
    split at he
    · injection he with he; subst he
      exact onePlaceAt h (by unfold columnBase; omega)
    · cases he

/-! ### Step headers -/

def hd (idx : Nat) : Hdr := ⟨0, 0, 1, 0, 0xFFFF, 0, 0, idx, 0⟩
def hds (idx : Nat) : Hdr := ⟨1, 0, 1, 0, 0xFFFF, 0, 0, idx, 1⟩

theorem acc {s : State} {i : Instr} {h : Hdr} {p : Params}
    (hx : (i.wf && stepOk ⟨h, p⟩ && (match stepOf i with | some (c, q, _) => !s.dev.heldBack c q.index | none => true)) = true) : Accepted s i h p := by
  simp only [Bool.and_eq_true] at hx
  refine ⟨hx.1.1, hx.1.2, fun c q r he => ?_⟩
  have h2 := hx.2
  rw [he] at h2
  simpa using h2

/-- An answer that is right, by evaluation. -/
theorem ok_of {ε α : Type} [DecidableEq α] {x : Except ε α} {a : α} (h : (match x with | .ok b => decide (b = a) | .error _ => false) = true) : x = .ok a := by
  cases x with
  | error e => cases h
  | ok b => rw [of_decide_eq_true h]

theorem safe_of {s : State} (h : s.mem.wf = true) : MemorySafe s := h

theorem quiet_of {s : State} (h : s.dev.flt.ring = []) : Quiet s := h

theorem apart_of {s : State} (h : s.dev.homeMap = []) {a n b m : Nat} (ha : a + n ≤ 2 ^ 40) (hb : b + m ≤ 2 ^ 40) (hd : a + n ≤ b ∨ b + m ≤ a) :
    ∀ i j, i < n → j < m → s.xlate (a + i) ≠ s.xlate (b + j) := by
  intro i j hi hj e
  rw [xlate_id h (by omega), xlate_id h (by omega)] at e; omega


/-! ### Registers, the monitor and SPDM -/

theorem plain_of {off size : Nat} (h : Reg.listed off = true ∧ Reg.inDebug off = false ∧ Reg.inHeaders off = false ∧ ((Reg.fieldsAt off).map Field.key).Nodup
    ∧ (∀ f ∈ Reg.fieldsAt off, Dev.ownWrite f = false ∧ f.lsb + f.width ≤ 64) ∧ off ∉ [0x10000, 0x20000, 0x20004, 0x3000, 0xC0000] ∧ off < 0x4000000
    ∧ ¬ (0x110000 ≤ off ∧ off < 0x130000 ∧ off % 0x40 = 0 ∧ off % 0x1000 < 0x400) ∧ modeKey (off * 64) = false
    ∧ ((size = 4 ∧ off % 4 = 0 ∧ Reg.wide off = false ∧ ¬ (4 ≤ off ∧ Reg.wide (off - 4) = true)) ∨ (size = 8 ∧ off % 8 = 0 ∧ Reg.wide off = true))) :
    PlainReg off size := h

theorem line_of {s : State} {line kw : List Char} {args : List (List Char)} (h : (words line).tail = args ∧ (words line).head?.map (·.map upper) = some kw)
    (hl : s.listening (kw = ['W', 'R']) = true) (h' : line.length ≤ 255 ∧ ∀ c ∈ line, 0x20 ≤ c.toNat ∧ c.toNat ≤ 0x7E) : MonLine s line kw args := by
  refine ⟨?_, hl, h'⟩
  cases e : words line with
  | nil => rw [e] at h; exact nomatch h.2
  | cons w ws =>
    rw [e] at h
    exact ⟨w, by rw [← h.1]; rfl, Option.some.inj h.2⟩

def envNow : WriteEnv := ⟨0, ⟨[], [], []⟩, []⟩

/-- An image staged of which only the CALIBRATION entry is there. -/
def stagedCal : List (Space × Nat × List Byte) := [(.dram, stagingAddr 6, [1]), (.dram, stagingAddr 128, [3] ++ zeros 15 ++ [1])]

/-- The DOE of a block that has configured, with a connection that has come to a stage. -/
def doeSt (stage : Nat) (l : List (Field × Nat) := []) (xs : List SpdmSession := []) : State := st 5 l { spdm := { stage := [(0, stage)], sessions := xs } }

def served (s : State) : State := s.onDev (·.bump Ctr.btSpdmRequests)

theorem served_of {s : State} {code : Nat} {m : List Byte} (h : s.dev.inState stSleep = false ∧ State.spdmIs code m = true ∧ s.dev.configured = true)
    (hp : doeParse (doeObject 1 m) = some (1, m)) : SpdmServed s code (.doe (doeObject 1 m)) none ⟨0, none, m⟩ (served s) :=
  ⟨h.1, h.2.1, false, m, s, .inl ⟨doeObject 1 m, 1, rfl, h.2.2, hp, .inl rfl, rfl, rfl, rfl⟩, fun _ => ⟨rfl, rfl⟩, nofun, rfl⟩

/-- A secured object of session `id`. -/
def inSession (id : Nat) : List Byte := doeObject 2 (leBytes 4 id)

theorem served_in {s : State} {code : Nat} {m : List Byte} {x : SpdmSession} (h : s.dev.inState stSleep = false ∧ State.spdmIs code m = true ∧ s.dev.configured = true)
    (hp : doeParse (inSession x.id) = some (2, leBytes 4 x.id))
    (hx : (s.dev.spdm.sessions.find? fun y => y.transport = 0 && y.id = fieldAt (leBytes 4 x.id) 0 4) = some x) :
    SpdmServed s code (.doe (inSession x.id)) (some m) ⟨0, some x, m⟩ (served s) :=
  ⟨h.1, h.2.1, true, leBytes 4 x.id, s, .inl ⟨inSession x.id, 2, rfl, h.2.2, hp, .inr rfl, rfl, rfl, rfl⟩, nofun, fun _ => ⟨x, hx, rfl, rfl⟩, rfl⟩

theorem connected_of {s : State} {q : Req} {n : Nat} (h : fieldAt q.msg 0 1 = 0x13 ∧ n ≤ s.dev.spdmStage q.transport) (h' : q.session.all (·.finished) = true) :
    Connected s q n := ⟨h.1, h.2, fun x hx => by rw [hx] at h'; exact h'⟩

def session (finished : Bool) : SpdmSession := ⟨0, 7, finished, 0⟩
def request (code p1 p2 : Byte) (rest : List Byte := []) : List Byte := [0x13, code, p1, p2] ++ rest
/-- 60 bytes with the check value that a structure at device address `a` ends with. -/
def sealed (a : Nat) (bs : List Byte) : List Byte := padTo 60 bs ++ leBytes 4 (Crypto.check32c a (padTo 60 bs))

/-- A quantizer of 8 dimensions, with its scales of 1.0 after it (R125). -/
def quantAt (a : Nat) : List (Space × Nat × List Byte) :=
  [(.dram, a, sealed a (leBytes 4 0x5A514431 ++ [0xC, 0, 8, 0] ++ List.replicate 12 0 ++ leBytes 4 64)), (.dram, a + 64, (List.replicate 8 (leBytes 4 0x3F800000)).flatten)]

/-- An image head of a table of one group (R137), and its table of 16 entries of one byte. -/
def imageAt (a : Nat) : List (Space × Nat × List Byte) :=
  let h := padTo 60 (leBytes 4 0x5A544231 ++ [0xA, 0, 8, 0, 1, 0, 16, 0, 1, 0])
  [(.dram, a, h ++ leBytes 4 (Crypto.check32c a (h ++ List.replicate 16 0)))]

def lutEntry : LutEntry := ⟨63, 1, 0xA, 0, 8, 1, 16, 0, 0, false, 0⟩

/-- List 0: its head stands at device address 0, its directory entry at 0x100000. -/
def listHead : ListHead := ⟨0, 0, 0, 1, 2, false, 1, 1, 6, 0x2000, 0x3000, 0x4000, 0, 1, 0, 0, 0⟩

def listAt (h : ListHead) : List (Space × Nat × List Byte) := [(.dram, 0, headBody h ++ leBytes 4 (Crypto.check32c 0 (headBody h)))]

def idxRegs : List (Field × Nat) := [(Reg.idxLists, 1), (Reg.idxDirBase, 0x100000), (Reg.idxCodeCodeBytes, 4)]


/-- The descriptor of row table 0 at 0x8000: four rows of 64 bytes at 0x10000, in version 0 since epoch 0; with flags 3 a MUTABLE table whose
redirect log of 16 buckets stands at 0x20000 and whose one spill row at 0x30000. -/
def rowDesc (flags : Nat) : List (Space × Nat × List Byte) :=
  let mu := flags / 2 % 2
  let b := padTo 124 (leBytes 4 0x5A525431 ++ [0, 0, BitVec.ofNat 8 flags, 0] ++ leBytes 8 64 ++ leBytes 8 4 ++ leBytes 8 0x10000 ++ zeros 40 ++ leBytes 8 (mu * 0x20000) ++ leBytes 1 (mu * 4) ++ zeros 23 ++ leBytes 8 (mu * 0x30000) ++ leBytes 4 mu)
  [(.dram, 0x8000, b ++ leBytes 4 (Crypto.check32c 0x8000 b))]

/-- The hot indices and counters of a DRIP table: 16 buckets, row 0 read often. -/
def hotOwn : List (Space × Nat × List Byte) :=
  [(.dram, 0x8000 + 81, [4]), (.dram, 0x8000 + 88, leBytes 8 0x50000 ++ leBytes 8 0x60000), (.dram, 0x8000 + 116, leBytes 8 0x70000), (.dram, 0x70000, [255, 255])]

def rowRegs : List (Field × Nat) := [(Reg.rowCtrlRowsEn, 1), (Reg.rowDescBase, 0x8000)]

def rowTab (s : State) : RowTable := s.rowTable 0

/-- A siphon batch of one index, as it stands in memory. -/
def siphonBatch (kind seq : Nat) (body : List Byte) : List Byte :=
  let b := padTo 28 (leBytes 1 kind ++ [0, 0, 0, 1, 0] ++ zeros 10 ++ leBytes 2 1)
  b ++ leBytes 4 (Crypto.check32c seq (b ++ body)) ++ body

def foldSt : State := st 5 rowRegs {} (rowDesc 3 ++ [(.dram, 0x20000, redirectBytes ⟨2, 0, true, 0, 0xFFFFFF00⟩)])

theorem foldSt_last : ∀ j, j < 8 → ¬ wrapLt (foldSt.redirectAt (foldSt.rowTable 0) 0 j).commit (foldSt.redirectAt (foldSt.rowTable 0) 0 0).commit = true := by
  decide +kernel

/-- A program of one instruction, LD of operand 0 (INT8, which it may also write) into register 0, as it stands in column 255. -/
def pimProg : List Byte :=
  let b := padTo 1020 (padTo 256 (leBytes 4 0x5A504D31 ++ [1, 0, 1, 0, 24]) ++ [1, 0, 0, 0, 0, 0, 0, 0])
  b ++ [0x5E, 0xDB, 0x64, 0x9A]

def pimRun0 : PimRun := ⟨0, 0, 0, 0, false, 0, [], 1, 1, [0, 0, 0, 0], 1, false, [(0, 0)], [], false⟩

/-- Flash of one or more blocks a channel and one page a block, its map at 0x1000 with logical block 0 as a DATA block, block 0. -/
def flashRegs (blocks : Nat) : List (Field × Nat) :=
  [(Reg.flsBlocksBlocksPerLun, blocks), (Reg.flsBlocksSlcPages, 1), (Reg.flsLbBytes, 16384), (Reg.flsLbCount, 1), (Reg.flsMapBase, 0x1000), (Reg.flsPbtBase, 0x1000000000),
   (Reg.flsCtrlBgEn, 1), (Reg.flsStatusReady, 1), (Reg.flsCtrlWriteEn, 1), (Reg.flsGcGcLow, 2), (Reg.flsWearWearSpread, 1)]

def mapData : List (Space × Nat × List Byte) := [(.dram, 0x1000, leBytes 4 (2 ^ 20))]

/-- Datum 0's record, at 0x200000. -/
def homeAt (r : HomeRec) : List (Space × Nat × List Byte) := [(.dram, 0x200000, homeBody r ++ leBytes 4 (Crypto.check32c 0x200000 (homeBody r)))]

def homeRegs : List (Field × Nat) := [(Reg.homeBase, 0x200000), (Reg.homeCount, 1), (Reg.tierCtrlMovesEn, 1), (Reg.tntStrataLimit 0, 2 ^ 20), (Reg.tierMoveRateChunks, 64)]

def homeRec (state : Nat) : HomeRec := ⟨0, 0, state, 0, 0, if state = 0 then 0 else 0x10000, if state = 0 then 0 else 8192, if state ≤ 1 then 0 else 0x20000, 0, 0, 0, 0, if state = 2 then 2 else 0⟩

/-! ### Frames -/

/-- Node 5 with port 0 UP, and peer 0 being node 3 at port 0. -/
def fabRegs : List (Field × Nat) :=
  [(Reg.portStatusState 0, 3), (Reg.peerCfgValid 0, 1), (Reg.peerCfgNode 0, 3), (Reg.fabNodeNodeId, 5)]

/-- A frame from node 3 to node 5 (R332, R334, R336), with the check of R320. -/
def zft (type flags epoch seq total : Nat) (data : List Byte) : Zft :=
  let pre := if type = tyTime then 0 else 16
  let b := [1, BitVec.ofNat 8 type] ++ leBytes 2 flags ++ zeros 2 ++ leBytes 2 3 ++ leBytes 2 5 ++ zeros 2 ++ leBytes 2 data.length ++ zeros 2 ++ leBytes 8 epoch ++ leBytes 8 seq
    ++ (if pre = 0 then [] else zeros 8 ++ leBytes 4 total ++ zeros 4) ++ data
  { type, flags, tenant := 0, src := 3, dst := 5, mapVersion := 0, slot := 0, epoch, seq, tag := 0, srcChamber := 0, dstChamber := 0, offset := 0,
    total := if pre = 0 then 0 else total, msg := 0, data, body := b, trailer := Crypto.check32c seq b }

def frameOf (z : Zft) : List Byte := zeros 12 ++ Crypto.beBytes 2 0x88B5 ++ z.body ++ leBytes 4 z.trailer

/-- The state once the frame is counted, and once the message it holds is whole. -/
def after (s : State) (z : Zft) : State := { s with dev := ((s.dev.clock 0).acceptFrame 0 (frameOf z) true).1 }
def after' (s : State) (z : Zft) : State := (after s z).onDev fun d => d.setPeer { d.peerSeq 0 with relIn := z.seq + 1 }

theorem arrives_of {s : State} {z : Zft} (hu : (s.dev.clock 0).portUp 0 = true) (h : ((s.dev.clock 0).acceptFrame 0 (frameOf z) true).2 = some (0, z)) :
    Arrives s 0 0 (frameOf z) true 0 z (after s z) := ⟨by decide, hu, Prod.ext rfl h, rfl, rfl⟩

theorem whole_of {s : State} {z : Zft} (hu : (s.dev.clock 0).portUp 0 = true) (h : ((s.dev.clock 0).acceptFrame 0 (frameOf z) true).2 = some (0, z))
    (hw : z.reliable = true ∧ z.offset = 0 ∧ z.total = z.data.length ∧ z.seq = ((after s z).dev.peerSeq 0).relIn ∧ ((after s z).dev.peerSeq 0).held = []
      ∧ (after s z).dev.fab.inbox = [] ∧ ∀ q ∈ (after s z).dev.fab.partials, ¬ (q.peer = 0 ∧ q.type = z.type ∧ q.msg = z.msg)) :
    ArrivesWhole s 0 0 (frameOf z) true 0 z (after' s z) :=
  ⟨after s z, arrives_of hu h, hw.1, hw.2.1, hw.2.2.1, hw.2.2.2.1, hw.2.2.2.2.1, hw.2.2.2.2.2.1, hw.2.2.2.2.2.2, rfl⟩

/-- A composition map of two members, node 3 that coordinates and node 5, and of one shard, which node 5 owns; its header is at device address `a`. -/
def mapOf (a effective replica : Nat) : List Byte :=
  let b := padTo 60 (leBytes 4 0x5A434D31 ++ [1, 0, 1, 0] ++ zeros 8 ++ leBytes 8 effective ++ zeros 8 ++ [2, 0, 0, 0, 1, 0, 0, 0])
  let t := [3, 0, 2, 0, 0, 0, 0, 0] ++ [5, 0, 2, 0, 0, 0, 0, 0] ++ ([1, 0] ++ leBytes 2 replica ++ [0xFF, 0xFF, 0, 0])
  b ++ leBytes 4 (Crypto.check32c a (b ++ t)) ++ t

def mapRegs : List (Field × Nat) := [(Reg.poolMapBase, 0x300000), (Reg.poolMapLenBytes, 128)]

/-- A COORD message of a kind. -/
def coord (kind : Nat) (body : List Byte) : Zft := let d := padTo 16 [5, BitVec.ofNat 8 kind] ++ body; zft tyMgmt 1 0 0 d.length d

def recvP0 : RecvP := ⟨1, 0, 0, 0, 0, 64, 64, 0⟩

/-- The RECV of the active plan in chamber 0. -/
def recvPlan : List (Space × Nat × List Byte) :=
  [(.hdr, 32, [1]), (.dram, bankBase 0 0 + 990, [1, 0]), (.dram, bankBase 0 0 + 0x400, encodeStep ⟨hd 0, .recv recvP0⟩)]

/-- A query record of K = 1 on a vector of eight dimensions (R345). -/
def queryBody : List Byte := leBytes 4 1 ++ zeros 4 ++ leBytes 2 1 ++ [0, 0, 0, 0] ++ zeros 4 ++ leBytes 2 8 ++ zeros 36

/-- An unreliable MGMT message, and a reliable message of a type. -/
def mgmt (d : List Byte) : Zft := zft tyMgmt 0 0 7 d.length d
def message (type : Nat) (d : List Byte) : Zft := zft type 1 0 0 d.length d

/-- Node `n` with a current map, in the lower half. -/
def mapSt (n : Nat) (j : Job := {}) : State :=
  st 5 ([(Reg.fabNodeNodeId, n)] ++ mapRegs) { pool := { haveMap := true }, job := j } [(.dram, 0x300000, mapOf 0x300000 0 0xFFFF)]
/-- The same, with the map relayed. -/
def relaySt : State := st 5 [(Reg.fabNodeNodeId, 5), (Reg.poolMapBase, 0x300000), (Reg.poolMapLenBytes, 73)] { pool := { haveMap := true } } [(.dram, 0x300020, leBytes 4 1025 ++ leBytes 4 1), (.dram, 0x300048, [5])]
/-- Node 5 with a map pending in the upper half, and none current. -/
def pendSt (role : Nat) : State :=
  st 5 ([(Reg.fabNodeNodeId, 5), (Reg.tntCtrlPoolEn, 1), (Reg.tntStatusMapPending, 1)] ++ mapRegs) { epc := { inCairn := true } } [(.dram, 0x300080, mapOf 0x300080 0 0xFFFF), (.hdr, 6, [BitVec.ofNat 8 role])]
/-- The bytes of the map that `relaySt` holds. -/
def relayMap : List Byte := padTo 73 (zeros 32 ++ leBytes 4 1025 ++ leBytes 4 1 ++ zeros 32 ++ [5])

/-- A frame in queue `q` of port 0, and one that waits for an ACK after `n` resends. -/
def qframe (q : Nat) : QFrame := ⟨0, q, 0, 0, zeros 14, zeros 48, some 0, 0, 0⟩
def unacked (n : Nat) : Unacked := ⟨0, tyQuery, 0, qframe 4, 0, n⟩

/-! ### The host's rings -/

/-- Ring 0 of function 0, of 16 entries and a class, with one entry that has come, in a state of R480. -/
def ringRegs (cls : Nat) : List (Field × Nat) :=
  [(Reg.ringCtrlEnable 0 0, 1), (Reg.ringCtrlSqSize 0 0, 4), (Reg.ringCtrlCqSize 0 0, 4), (Reg.ringCtrlClass 0 0, cls), (Reg.btNorSizeLog2, 21)]

def ringSt (g cls : Nat) (l : List (Field × Nat)) (m : List (Space × Nat × List Byte)) : State :=
  st g (ringRegs cls ++ l) { host := { arrived := [⟨0, 0, false⟩] } } m

def noFail : Dma := ⟨5, none⟩

def fetched (s : State) (len : Nat) (e : HostRef) : State :=
  { s with dev := ((s.dev.takeEntry 0 0).elim s.dev (·.1)).dmaBytes 0 e.tenant true (64 + len) }

theorem fetches_of {s : State} {op len : Nat} {entry : List Byte} {x : Dma} (hk : fieldAt entry 0 1 = op) (hd : s.dev.dmaFails x (entryAt s 0 0) = none)
    (ht : (s.dev.takeEntry 0 0).map (·.2) = some false)
    (hr : let d := (s.dev.takeEntry 0 0).elim s.dev (·.1)
      hostAccepts (d.rd Reg.glbState) (d.rd (Reg.ringCtrlClass 0 0)) op 0 = true ∧ d.rd (Reg.ringCtrlClass 0 0) = opClass op
      ∧ (opClass op ≠ 2 → fieldAt entry 1 1 < 64) ∧ d.tenantOk 0 (Dev.entryRef 0 0 entry).tenant = true) :
    Fetches s op 0 0 entry len x (Dev.entryRef 0 0 entry) false (fetched s len (Dev.entryRef 0 0 entry)) := by
  refine ⟨hk, hd, rfl, (s.dev.takeEntry 0 0).elim s.dev (·.1), ?_, rfl, hr.1, hr.2.1, fun _ => rfl, hr.2.2.1, hr.2.2.2⟩
  cases h : s.dev.takeEntry 0 0 with
  | none => rw [h] at ht; cases ht
  | some p =>
    rw [h] at ht
    simp only [Option.map_some, Option.some.injEq] at ht
    simp only [Option.elim_some, Option.some.injEq]
    exact Prod.ext rfl ht

/-- Entries of R403 with one buffer: a query, an operation, a management entry and a bulk load. -/
def queryEntry (cap : Nat) : List Byte := [1, 0, 0, 0] ++ leBytes 4 56 ++ leBytes 8 9 ++ zeros 16 ++ leBytes 4 cap ++ zeros 28
def opEntry : List Byte := [2, 0, 0, 0] ++ leBytes 4 48 ++ leBytes 8 9 ++ zeros 48
def oneBuf (n : Nat) : List Byte := leBytes 8 0x5000 ++ leBytes 4 n ++ zeros 4
def mgmtEntry (op : Byte) (expect : Nat) (content : List Byte) : List Byte :=
  [op, 0, 0, 0] ++ leBytes 4 1 ++ leBytes 8 9 ++ zeros 24 ++ leBytes 8 content.length ++ zeros 8 ++ leBytes 4 expect ++ zeros 4
def bulkEntry (flags : Byte) (expect : Nat) : List Byte :=
  [0x10, 0, flags, 0] ++ leBytes 4 1 ++ leBytes 8 9 ++ zeros 24 ++ leBytes 8 64 ++ leBytes 8 0x40000 ++ leBytes 4 expect ++ zeros 4
def chk (a : Nat) : Nat := Crypto.check32c a (zeros 64)

theorem taken_of {s : State} (ht : (s.dev.takeEntry 0 0).map (·.2) = some false) : s.dev.takeEntry 0 0 = some ((s.dev.takeEntry 0 0).elim s.dev (·.1), false) := by
  cases h : s.dev.takeEntry 0 0 with
  | none => rw [h] at ht; cases ht
  | some p =>
    rw [h] at ht
    simp only [Option.map_some, Option.some.injEq] at ht
    simp only [Option.elim_some, Option.some.injEq]
    exact Prod.ext rfl ht

/-! ### Ill-formed terms, one for each check of WellFormed.lean, are refused -/

/-! A step whose fields all fit, and a step with each field one past its range. -/

def zHdr : Hdr := ⟨0, 0, 0, 0, 0, 0, 0, 0, 0⟩
/-- Every field of Hdr fits at 0, and one past its range is refused. -/
theorem test_Hdr_fields_too_wide_are_refused : [{ zHdr with flags := 2 ^ 8 },
    { zHdr with slot := 2 ^ 16 },
    { zHdr with budget := 2 ^ 16 },
    { zHdr with deadline := 2 ^ 16 },
    { zHdr with depends := 2 ^ 16 },
    { zHdr with tenant := 2 ^ 8 },
    { zHdr with stage := 2 ^ 8 },
    { zHdr with index := 2 ^ 16 },
    { zHdr with expiry := 2 ^ 8 }].all (fun x => !x.fits) = true := by decide

def zScanP : ScanP := ⟨0, 0, 0, 0, 0, 0, 0, 0, 0, 0, 0, 0⟩
/-- Every field of ScanP fits at 0, and one past its range is refused. -/
theorem test_ScanP_fields_too_wide_are_refused : [{ zScanP with probeAddr := 2 ^ 32 },
    { zScanP with probeFirst := 2 ^ 16 },
    { zScanP with probeLimit := 2 ^ 16 },
    { zScanP with fmt := 2 ^ 8 },
    { zScanP with metric := 2 ^ 8 },
    { zScanP with batchMax := 2 ^ 8 },
    { zScanP with parts := 2 ^ 8 },
    { zScanP with recAddr := 2 ^ 32 },
    { zScanP with recCap := 2 ^ 32 },
    { zScanP with runAddr := 2 ^ 32 },
    { zScanP with runCap := 2 ^ 32 },
    { zScanP with nomBpc := 2 ^ 16 }].all (fun x => !x.fits) = true := by decide

def zBuildP : BuildP := ⟨0, 0, 0, 0, 0, 0, 0, 0⟩
/-- Every field of BuildP fits at 0, and one past its range is refused. -/
theorem test_BuildP_fields_too_wide_are_refused : [{ zBuildP with tidFirst := 2 ^ 8 },
    { zBuildP with ntables := 2 ^ 8 },
    { zBuildP with metric := 2 ^ 8 },
    { zBuildP with width := 2 ^ 8 },
    { zBuildP with qprec := 2 ^ 8 },
    { zBuildP with pageFirst := 2 ^ 8 },
    { zBuildP with quantAddr := 2 ^ 32 },
    { zBuildP with vecAddr := 2 ^ 32 }].all (fun x => !x.fits) = true := by decide

def zScoreP : ScoreP := ⟨0, 0, 0, 0, 0, 0⟩
/-- Every field of ScoreP fits at 0, and one past its range is refused. -/
theorem test_ScoreP_fields_too_wide_are_refused : [{ zScoreP with tid := 2 ^ 8 },
    { zScoreP with codeAddr := 2 ^ 32 },
    { zScoreP with idAddr := 2 ^ 32 },
    { zScoreP with outAddr := 2 ^ 32 },
    { zScoreP with count := 2 ^ 32 },
    { zScoreP with aux := 2 ^ 16 }].all (fun x => !x.fits) = true := by decide

def zSaveP : SaveP := ⟨0, 0⟩
/-- Every field of SaveP fits at 0, and one past its range is refused. -/
theorem test_SaveP_fields_too_wide_are_refused : [{ zSaveP with tid := 2 ^ 8 },
    { zSaveP with imgAddr := 2 ^ 32 }].all (fun x => !x.fits) = true := by decide

def zLoadP : LoadP := ⟨0, 0, 0⟩
/-- Every field of LoadP fits at 0, and one past its range is refused. -/
theorem test_LoadP_fields_too_wide_are_refused : [{ zLoadP with tid := 2 ^ 8 },
    { zLoadP with pageFirst := 2 ^ 8 },
    { zLoadP with imgAddr := 2 ^ 32 }].all (fun x => !x.fits) = true := by decide

def zMatmulP : MatmulP := ⟨0, 0, 0, 0, 0, 0, 0, 0, 0, 0, 0, 0, 0, 0⟩
/-- Every field of MatmulP fits at 0, and one past its range is refused. -/
theorem test_MatmulP_fields_too_wide_are_refused : [{ zMatmulP with aAddr := 2 ^ 32 },
    { zMatmulP with bAddr := 2 ^ 32 },
    { zMatmulP with cAddr := 2 ^ 32 },
    { zMatmulP with m := 2 ^ 16 },
    { zMatmulP with n := 2 ^ 16 },
    { zMatmulP with k := 2 ^ 16 },
    { zMatmulP with fmtA := 2 ^ 8 },
    { zMatmulP with fmtB := 2 ^ 8 },
    { zMatmulP with fmtOut := 2 ^ 8 },
    { zMatmulP with flags := 2 ^ 8 },
    { zMatmulP with aScale := 2 ^ 32 },
    { zMatmulP with bScale := 2 ^ 32 },
    { zMatmulP with outScale := 2 ^ 32 },
    { zMatmulP with outScaleAddr := 2 ^ 16 }].all (fun x => !x.fits) = true := by decide

def zVecopP : VecopP := ⟨0, 0, 0, 0, 0, 0, 0, 0⟩
/-- Every field of VecopP fits at 0, and one past its range is refused. -/
theorem test_VecopP_fields_too_wide_are_refused : [{ zVecopP with dst := 2 ^ 8 },
    { zVecopP with srcA := 2 ^ 8 },
    { zVecopP with srcB := 2 ^ 8 },
    { zVecopP with srcC := 2 ^ 8 },
    { zVecopP with etype := 2 ^ 8 },
    { zVecopP with count := 2 ^ 16 },
    { zVecopP with scalar := 2 ^ 32 },
    { zVecopP with addr := 2 ^ 32 }].all (fun x => !x.fits) = true := by decide

def zActP : ActP := ⟨0, 0, 0, 0, 0⟩
/-- Every field of ActP fits at 0, and one past its range is refused. -/
theorem test_ActP_fields_too_wide_are_refused : [{ zActP with dst := 2 ^ 8 },
    { zActP with src := 2 ^ 8 },
    { zActP with count := 2 ^ 16 },
    { zActP with p0 := 2 ^ 32 },
    { zActP with p1 := 2 ^ 32 }].all (fun x => !x.fits) = true := by decide

def zConvertP : ConvertP := ⟨0, 0, 0, 0, 0, 0, 0, 0, 0, 0⟩
/-- Every field of ConvertP fits at 0, and one past its range is refused. -/
theorem test_ConvertP_fields_too_wide_are_refused : [{ zConvertP with fmtSrc := 2 ^ 8 },
    { zConvertP with fmtDst := 2 ^ 8 },
    { zConvertP with flags := 2 ^ 8 },
    { zConvertP with reg := 2 ^ 8 },
    { zConvertP with srcAddr := 2 ^ 32 },
    { zConvertP with dstAddr := 2 ^ 32 },
    { zConvertP with count := 2 ^ 32 },
    { zConvertP with srcScale := 2 ^ 32 },
    { zConvertP with dstScale := 2 ^ 32 },
    { zConvertP with preScale := 2 ^ 32 }].all (fun x => !x.fits) = true := by decide

def zSelectP : SelectP := ⟨0, 0, 0, 0, 0, 0, 0, 0, 0⟩
/-- Every field of SelectP fits at 0, and one past its range is refused. -/
theorem test_SelectP_fields_too_wide_are_refused : [{ zSelectP with qcap := 2 ^ 16 },
    { zSelectP with inAddr := 2 ^ 32 },
    { zSelectP with inCount := 2 ^ 32 },
    { zSelectP with runAddr := 2 ^ 32 },
    { zSelectP with runCount := 2 ^ 32 },
    { zSelectP with probeAddr := 2 ^ 32 },
    { zSelectP with outAddr := 2 ^ 32 },
    { zSelectP with k := 2 ^ 32 },
    { zSelectP with scratch := 2 ^ 32 }].all (fun x => !x.fits) = true := by decide

def zMergeP : MergeP := ⟨0, 0, 0, 0, 0, 0, 0⟩
/-- Every field of MergeP fits at 0, and one past its range is refused. -/
theorem test_MergeP_fields_too_wide_are_refused : [{ zMergeP with nin := 2 ^ 16 },
    { zMergeP with tableAddr := 2 ^ 32 },
    { zMergeP with outAddr := 2 ^ 32 },
    { zMergeP with k := 2 ^ 32 },
    { zMergeP with qcount := 2 ^ 32 },
    { zMergeP with scratch := 2 ^ 32 },
    { zMergeP with scratchCap := 2 ^ 32 }].all (fun x => !x.fits) = true := by decide

def zGatherP : GatherP := ⟨0, 0, 0, 0, 0, 0, 0, 0, 0, 0, 0, 0⟩
/-- Every field of GatherP fits at 0, and one past its range is refused. -/
theorem test_GatherP_fields_too_wide_are_refused : [{ zGatherP with table := 2 ^ 8 },
    { zGatherP with mode := 2 ^ 8 },
    { zGatherP with idxAddr := 2 ^ 32 },
    { zGatherP with count := 2 ^ 32 },
    { zGatherP with outAddr := 2 ^ 32 },
    { zGatherP with refAddr := 2 ^ 32 },
    { zGatherP with statusAddr := 2 ^ 32 },
    { zGatherP with outCap := 2 ^ 32 },
    { zGatherP with boxAddr := 2 ^ 32 },
    { zGatherP with snapAddr := 2 ^ 32 },
    { zGatherP with rowUnits := 2 ^ 16 },
    { zGatherP with pairCap := 2 ^ 16 }].all (fun x => !x.fits) = true := by decide

def zScatterP : ScatterP := ⟨0, 0, 0, 0, 0, 0⟩
/-- Every field of ScatterP fits at 0, and one past its range is refused. -/
theorem test_ScatterP_fields_too_wide_are_refused : [{ zScatterP with table := 2 ^ 8 },
    { zScatterP with idxAddr := 2 ^ 32 },
    { zScatterP with count := 2 ^ 32 },
    { zScatterP with srcAddr := 2 ^ 32 },
    { zScatterP with ordAddr := 2 ^ 32 },
    { zScatterP with rowUnits := 2 ^ 16 }].all (fun x => !x.fits) = true := by decide

def zSendP : SendP := ⟨0, 0, 0, 0, 0, 0⟩
/-- Every field of SendP fits at 0, and one past its range is refused. -/
theorem test_SendP_fields_too_wide_are_refused : [{ zSendP with kind := 2 ^ 8 },
    { zSendP with tag := 2 ^ 16 },
    { zSendP with peer := 2 ^ 16 },
    { zSendP with dstChamber := 2 ^ 8 },
    { zSendP with srcAddr := 2 ^ 32 },
    { zSendP with length := 2 ^ 32 }].all (fun x => !x.fits) = true := by decide

def zRecvP : RecvP := ⟨0, 0, 0, 0, 0, 0, 0, 0⟩
/-- Every field of RecvP fits at 0, and one past its range is refused. -/
theorem test_RecvP_fields_too_wide_are_refused : [{ zRecvP with kind := 2 ^ 8 },
    { zRecvP with tag := 2 ^ 16 },
    { zRecvP with peer := 2 ^ 16 },
    { zRecvP with srcChamber := 2 ^ 8 },
    { zRecvP with dstAddr := 2 ^ 32 },
    { zRecvP with cap := 2 ^ 32 },
    { zRecvP with resultAddr := 2 ^ 32 },
    { zRecvP with entryAddr := 2 ^ 32 }].all (fun x => !x.fits) = true := by decide

def zPimRunP : PimRunP := ⟨0, 0, 0, 0, 0, 0, 0, 0, 0⟩
/-- Every field of PimRunP fits at 0, and one past its range is refused. -/
theorem test_PimRunP_fields_too_wide_are_refused : [{ zPimRunP with stack := 2 ^ 8 },
    { zPimRunP with progAddr := 2 ^ 32 },
    { zPimRunP with pairMask := 2 ^ 32 },
    { zPimRunP with dieMask := 2 ^ 16 },
    { zPimRunP with count := 2 ^ 32 },
    { zPimRunP with row0 := 2 ^ 16 },
    { zPimRunP with row1 := 2 ^ 16 },
    { zPimRunP with row2 := 2 ^ 16 },
    { zPimRunP with row3 := 2 ^ 16 }].all (fun x => !x.fits) = true := by decide

def zPimSealP : PimSealP := ⟨0, 0, 0⟩
/-- Every field of PimSealP fits at 0, and one past its range is refused. -/
theorem test_PimSealP_fields_too_wide_are_refused : [{ zPimSealP with stack := 2 ^ 8 },
    { zPimSealP with rowFirst := 2 ^ 16 },
    { zPimSealP with rowCount := 2 ^ 16 }].all (fun x => !x.fits) = true := by decide

def zFlashReadP : FlashReadP := ⟨0, 0, 0, 0, 0, 0⟩
/-- Every field of FlashReadP fits at 0, and one past its range is refused. -/
theorem test_FlashReadP_fields_too_wide_are_refused : [{ zFlashReadP with mode := 2 ^ 8 },
    { zFlashReadP with listAddr := 2 ^ 32 },
    { zFlashReadP with count := 2 ^ 32 },
    { zFlashReadP with dstAddr := 2 ^ 32 },
    { zFlashReadP with dstCap := 2 ^ 32 },
    { zFlashReadP with statusAddr := 2 ^ 32 }].all (fun x => !x.fits) = true := by decide

def zFlashWriteP : FlashWriteP := ⟨0, 0, 0, 0⟩
/-- Every field of FlashWriteP fits at 0, and one past its range is refused. -/
theorem test_FlashWriteP_fields_too_wide_are_refused : [{ zFlashWriteP with srcAddr := 2 ^ 32 },
    { zFlashWriteP with lbn := 2 ^ 32 },
    { zFlashWriteP with page := 2 ^ 16 },
    { zFlashWriteP with pages := 2 ^ 16 }].all (fun x => !x.fits) = true := by decide

def zCheckRangeP : CheckRangeP := ⟨0, 0, 0, 0, 0, 0, 0⟩
/-- Every field of CheckRangeP fits at 0, and one past its range is refused. -/
theorem test_CheckRangeP_fields_too_wide_are_refused : [{ zCheckRangeP with poly := 2 ^ 8 },
    { zCheckRangeP with tap := 2 ^ 8 },
    { zCheckRangeP with fromTap := 2 ^ 8 },
    { zCheckRangeP with addr := 2 ^ 64 },
    { zCheckRangeP with length := 2 ^ 64 },
    { zCheckRangeP with expectAddr := 2 ^ 32 },
    { zCheckRangeP with resultAddr := 2 ^ 32 }].all (fun x => !x.fits) = true := by decide

def zCheckTapvalP : CheckTapvalP := ⟨0, 0, 0, 0, 0⟩
/-- Every field of CheckTapvalP fits at 0, and one past its range is refused. -/
theorem test_CheckTapvalP_fields_too_wide_are_refused : [{ zCheckTapvalP with poly := 2 ^ 8 },
    { zCheckTapvalP with tap := 2 ^ 8 },
    { zCheckTapvalP with tag := 2 ^ 64 },
    { zCheckTapvalP with expectAddr := 2 ^ 32 },
    { zCheckTapvalP with resultAddr := 2 ^ 32 }].all (fun x => !x.fits) = true := by decide

def zCheckWeightP : CheckWeightP := ⟨0, 0, 0, 0, 0, 0, 0, 0, 0, 0, 0, 0⟩
/-- Every field of CheckWeightP fits at 0, and one past its range is refused. -/
theorem test_CheckWeightP_fields_too_wide_are_refused : [{ zCheckWeightP with poly := 2 ^ 8 },
    { zCheckWeightP with addr := 2 ^ 64 },
    { zCheckWeightP with byteLength := 2 ^ 64 },
    { zCheckWeightP with rows := 2 ^ 16 },
    { zCheckWeightP with cols := 2 ^ 16 },
    { zCheckWeightP with rank := 2 ^ 16 },
    { zCheckWeightP with fmtW := 2 ^ 8 },
    { zCheckWeightP with fmtF := 2 ^ 8 },
    { zCheckWeightP with uFirst := 2 ^ 16 },
    { zCheckWeightP with uCount := 2 ^ 16 },
    { zCheckWeightP with vAll := 2 ^ 8 },
    { zCheckWeightP with resultAddr := 2 ^ 32 }].all (fun x => !x.fits) = true := by decide

def zNoteP : NoteP := ⟨0, 0, 0⟩
/-- Every field of NoteP fits at 0, and one past its range is refused. -/
theorem test_NoteP_fields_too_wide_are_refused : [{ zNoteP with span := 2 ^ 16 },
    { zNoteP with kinds := 2 ^ 8 },
    { zNoteP with currentPct := 2 ^ 16 }].all (fun x => !x.fits) = true := by decide

def zSumpP : SumpP := ⟨0, 0, 0⟩
/-- Every field of SumpP fits at 0, and one past its range is refused. -/
theorem test_SumpP_fields_too_wide_are_refused : [{ zSumpP with maxEntries := 2 ^ 16 },
    { zSumpP with maxSlots := 2 ^ 16 },
    { zSumpP with keep := 2 ^ 8 }].all (fun x => !x.fits) = true := by decide

/-- The parameters of every type are held to their fields. -/
theorem test_params_are_checked : ([(.scan { zScanP with probeAddr := 2 ^ 32 }),
    (.build { zBuildP with tidFirst := 2 ^ 8 }),
    (.score { zScoreP with tid := 2 ^ 8 }),
    (.save { zSaveP with tid := 2 ^ 8 }),
    (.load { zLoadP with tid := 2 ^ 8 }),
    (.matmul { zMatmulP with aAddr := 2 ^ 32 }),
    (.vecop .vAdd { zVecopP with dst := 2 ^ 8 }),
    (.activate .relu { zActP with dst := 2 ^ 8 }),
    (.convert { zConvertP with fmtSrc := 2 ^ 8 }),
    (.merge { zMergeP with nin := 2 ^ 16 }),
    (.gather .fetch { zGatherP with table := 2 ^ 8 }),
    (.scatter { zScatterP with table := 2 ^ 8 }),
    (.send { zSendP with kind := 2 ^ 8 }),
    (.recv { zRecvP with kind := 2 ^ 8 }),
    (.pimRun { zPimRunP with stack := 2 ^ 8 }),
    (.pimSeal { zPimSealP with stack := 2 ^ 8 }),
    (.flashRead { zFlashReadP with mode := 2 ^ 8 }),
    (.flashWrite { zFlashWriteP with srcAddr := 2 ^ 32 }),
    (.checkRange { zCheckRangeP with poly := 2 ^ 8 }),
    (.checkTapval { zCheckTapvalP with poly := 2 ^ 8 }),
    (.checkWeight { zCheckWeightP with poly := 2 ^ 8 }),
    (.note { zNoteP with span := 2 ^ 16 }),
    (.sump { zSumpP with maxEntries := 2 ^ 16 }),
    (.selectRecords { zSelectP with qcap := 2 ^ 16 }),
    (.selectRuns { zSelectP with qcap := 2 ^ 16 })] : List Params).all (fun x => !x.fits && !(Step.fits ⟨hd 0, x⟩)) = true := by decide

theorem test_the_header_is_checked : Step.fits ⟨{ hd 0 with flags := 256 }, .save ⟨0, 0⟩⟩ = false ∧ Step.fits ⟨hd 0, .save ⟨0, 0⟩⟩ = true := by decide

theorem test_upsets_at_no_place : ([.storeBad 0x200000,
    .regBad 16 0,
    .regBad 0 1024,
    .lutBad 65536,
    .devBad 0x400000000,
    .devBad 0xA000000000,
    .devCorrected 0x400000000 true,
    .mapBad 0x40000,
    .tileBad (2 ^ 20) false,
    .cvuBad 16 0,
    .cvuBad 0 (2 ^ 64)] : List Upset).all (fun x => !x.wf) = true := by decide

theorem test_trainings_out_of_range : ([⟨[(16, 0)], [], []⟩, ⟨[(0, 4)], [], []⟩, ⟨[], [(256, 0)], []⟩, ⟨[], [(0, 4)], []⟩, ⟨[], [], [6]⟩, ⟨[], [], List.replicate 33 0⟩] : List Training).all (fun x => !x.wf) = true := by decide

/-- A start that meets nothing unusual. -/
def zBoot : BootEnv := ⟨none, true, none, 0, [], true, [], [], ⟨[], [], []⟩, [], 0, 0, 0, 0⟩

theorem test_starts_out_of_range : ([{ zBoot with serial := 2 ^ 64 },
    { zBoot with train := ⟨[(16, 0)], [], []⟩ },
    { zBoot with bad := [(32, 0)] },
    { zBoot with bad := [(0, 2 ^ 20)] },
    { zBoot with mapBase := 2 ^ 64 },
    { zBoot with pbtBase := 2 ^ 64 },
    { zBoot with adopted := 2 ^ 32 },
    { zBoot with torn := 2 ^ 32 },
    { zBoot with hang := some 11 }] : List BootEnv).all (fun x => !x.wf) = true := by decide

theorem test_power_samples_out_of_range : ([⟨2 ^ 64, 0, 0, 0, 0, 0, 0, 0⟩,
    ⟨0, 2 ^ 32, 0, 0, 0, 0, 0, 0⟩,
    ⟨0, 0, 2 ^ 32, 0, 0, 0, 0, 0⟩,
    ⟨0, 0, 0, 0, 257, 0, 0, 0⟩,
    ⟨0, 0, 0, 0, 0, 257, 0, 0⟩,
    ⟨0, 0, 0, 0, 0, 0, 257, 0⟩,
    ⟨0, 0, 0, 0, 0, 0, 0, 257⟩] : List PowerIn).all (fun x => !x.wf) = true := by decide

theorem test_cairns_out_of_range : ([⟨2 ^ 64, [], [], [], []⟩,
    ⟨0, [], [(0x400000000, [])], [], []⟩,
    ⟨0, [], [], [(256, 0, 0)], []⟩,
    ⟨0, [], [], [(0, 64, 0)], []⟩,
    ⟨0, [], [], [(0, 0, 0x4000000)], []⟩,
    ⟨0, [], [], [], [(256, 0, 0, ⟨0, 0, 0, false, 0, 0, 0⟩)]⟩,
    ⟨0, [], [], [], [(0, 65536, 0, ⟨0, 0, 0, false, 0, 0, 0⟩)]⟩,
    ⟨0, [], [], [], [(0, 0, 2 ^ 64, ⟨0, 0, 0, false, 0, 0, 0⟩)]⟩,
    ⟨0, [], [], [], [(0, 0, 0, ⟨2 ^ 64, 0, 0, false, 0, 0, 0⟩)]⟩] : List CairnIn).all (fun x => !x.wf) = true := by decide

theorem test_index_work_out_of_range : ([{ IndexWork.none with code := ⟨3, [], none⟩ },
    { IndexWork.none with code := ⟨0, [(2 ^ 20, 0)], none⟩ },
    { IndexWork.none with code := ⟨0, [(0, 0x400000000)], none⟩ },
    { IndexWork.none with code := ⟨0, [], some 64⟩ },
    { IndexWork.none with sets := [⟨64, 0, 0, 0⟩] },
    { IndexWork.none with sets := [⟨0, 256, 0, 0⟩] },
    { IndexWork.none with sets := [⟨0, 0, 0x400000000, 0⟩] },
    { IndexWork.none with sets := [⟨0, 0, 0, 0x400000000⟩] },
    { IndexWork.none with first := [⟨256, 0, 0⟩] },
    { IndexWork.none with wide := [⟨256, 0, 0⟩] },
    { IndexWork.none with tids := [(65536, 0)] },
    { IndexWork.none with tids := [(0, 64)] },
    { IndexWork.none with exact := some ⟨256, 0, 0⟩ },
    { IndexWork.none with exact := some ⟨0, 0x200000, 0⟩ },
    { IndexWork.none with standby := [⟨256, 0, 0, 0⟩] }] : List IndexWork).all (fun x => !x.wf) = true := by decide

theorem test_small_supplies_out_of_range :
    (StepEnd.wf ⟨2 ^ 64, 0, 0, false, 0, 0, 0⟩ || DmaFail.wf ⟨true, 2 ^ 64, 1⟩ || DmaFail.wf ⟨true, 0, 2⟩ || Dma.wf ⟨6, none⟩ || Dma.wf ⟨0, some ⟨true, 0, 0⟩⟩
      || Place.wf ⟨2 ^ 64, 0, false⟩ || Place.wf ⟨0, 3, false⟩ || frameWf 8 0 || frameWf 0 (2 ^ 64) || Rx.wf (.frame 8 0 [] true) || Via.wf (.fabric (.frame 8 0 [] true))
      || WriteEnv.wf ⟨2 ^ 64, ⟨[], [], []⟩, []⟩ || WriteEnv.wf ⟨0, ⟨[(16, 0)], [], []⟩, []⟩ || ringWf 32 0 || ringWf 0 16 || lineWf (List.replicate 256 'A')) = false := by decide

theorem test_steps_with_fields_too_wide : ([.sump 0 (hd 0) { zSumpP with maxEntries := 2 ^ 16 } [],
    .barrierFreeNote 0 (hd 0) { zNoteP with span := 2 ^ 16 } [],
    .scan 0 (hd 0) { zScanP with probeAddr := 2 ^ 32 } [],
    .lookupBuild 0 (hd 0) { zBuildP with tidFirst := 2 ^ 8 } [],
    .lookupScore 0 (hd 0) { zScoreP with tid := 2 ^ 8 } [],
    .lookupSave 0 (hd 0) { zSaveP with tid := 2 ^ 8 } [],
    .lookupLoad 0 (hd 0) { zLoadP with tid := 2 ^ 8 } [],
    .matmul 0 (hd 0) { zMatmulP with aAddr := 2 ^ 32 } [],
    .vecopAdd 0 (hd 0) { zVecopP with dst := 2 ^ 8 } [],
    .vecopSub 0 (hd 0) { zVecopP with dst := 2 ^ 8 } [],
    .vecopMul 0 (hd 0) { zVecopP with dst := 2 ^ 8 } [],
    .vecopFma 0 (hd 0) { zVecopP with dst := 2 ^ 8 } [],
    .vecopFmas 0 (hd 0) { zVecopP with dst := 2 ^ 8 } [],
    .vecopMax 0 (hd 0) { zVecopP with dst := 2 ^ 8 } [],
    .vecopMin 0 (hd 0) { zVecopP with dst := 2 ^ 8 } [],
    .vecopAbs 0 (hd 0) { zVecopP with dst := 2 ^ 8 } [],
    .vecopNeg 0 (hd 0) { zVecopP with dst := 2 ^ 8 } [],
    .vecopAnd 0 (hd 0) { zVecopP with dst := 2 ^ 8 } [],
    .vecopOr 0 (hd 0) { zVecopP with dst := 2 ^ 8 } [],
    .vecopXor 0 (hd 0) { zVecopP with dst := 2 ^ 8 } [],
    .vecopShl 0 (hd 0) { zVecopP with dst := 2 ^ 8 } [],
    .vecopShra 0 (hd 0) { zVecopP with dst := 2 ^ 8 } [],
    .vecopSumr 0 (hd 0) { zVecopP with dst := 2 ^ 8 } [],
    .vecopMaxr 0 (hd 0) { zVecopP with dst := 2 ^ 8 } [],
    .vecopMinr 0 (hd 0) { zVecopP with dst := 2 ^ 8 } [],
    .vecopLoad 0 (hd 0) { zVecopP with dst := 2 ^ 8 } [],
    .vecopStore 0 (hd 0) { zVecopP with dst := 2 ^ 8 } [],
    .vecopBroadcast 0 (hd 0) { zVecopP with dst := 2 ^ 8 } [],
    .vecopCmpgt 0 (hd 0) { zVecopP with dst := 2 ^ 8 } [],
    .vecopSelect 0 (hd 0) { zVecopP with dst := 2 ^ 8 } [],
    .activateRelu 0 (hd 0) { zActP with dst := 2 ^ 8 } [],
    .activateClamp 0 (hd 0) { zActP with dst := 2 ^ 8 } [],
    .activateSign 0 (hd 0) { zActP with dst := 2 ^ 8 } [],
    .activateGelu 0 (hd 0) { zActP with dst := 2 ^ 8 } [],
    .activateSilu 0 (hd 0) { zActP with dst := 2 ^ 8 } [],
    .activateSigmoid 0 (hd 0) { zActP with dst := 2 ^ 8 } [],
    .activateTanh 0 (hd 0) { zActP with dst := 2 ^ 8 } [],
    .activateExp 0 (hd 0) { zActP with dst := 2 ^ 8 } [],
    .activateRecip 0 (hd 0) { zActP with dst := 2 ^ 8 } [],
    .activateRsqrt 0 (hd 0) { zActP with dst := 2 ^ 8 } [],
    .convert 0 (hd 0) { zConvertP with fmtSrc := 2 ^ 8 } [],
    .selectRecords 0 (hd 0) { zSelectP with qcap := 2 ^ 16 } [],
    .selectRuns 0 (hd 0) { zSelectP with qcap := 2 ^ 16 } [],
    .merge 0 (hd 0) { zMergeP with nin := 2 ^ 16 } [],
    .gatherFetch 0 (hd 0) { zGatherP with table := 2 ^ 8 } [],
    .gatherSplit 0 (hd 0) { zGatherP with table := 2 ^ 8 } [],
    .gatherServe 0 (hd 0) { zGatherP with table := 2 ^ 8 } [],
    .gatherFill 0 (hd 0) { zGatherP with table := 2 ^ 8 } [],
    .scatter 0 (hd 0) { zScatterP with table := 2 ^ 8 } [],
    .send 0 (hd 0) { zSendP with kind := 2 ^ 8 } [],
    .recv 0 (hd 0) { zRecvP with kind := 2 ^ 8 } [],
    .pimRun 0 (hd 0) { zPimRunP with stack := 2 ^ 8 } [],
    .pimSeal 0 (hd 0) { zPimSealP with stack := 2 ^ 8 } [],
    .flashread 0 (hd 0) { zFlashReadP with mode := 2 ^ 8 } [],
    .flashwrite 0 (hd 0) { zFlashWriteP with srcAddr := 2 ^ 32 } [],
    .checkRange 0 (hd 0) { zCheckRangeP with poly := 2 ^ 8 } [],
    .checkTapval 0 (hd 0) { zCheckTapvalP with poly := 2 ^ 8 } [],
    .checkWeight 0 (hd 0) { zCheckWeightP with poly := 2 ^ 8 } []] : List Instr).all (fun x => !x.wf) = true := by decide

theorem test_steps_on_no_chamber : ([.sump 256 (hd 0) zSumpP [],
    .barrierFreeNote 256 (hd 0) zNoteP [],
    .scan 256 (hd 0) zScanP [],
    .lookupBuild 256 (hd 0) zBuildP [],
    .lookupScore 256 (hd 0) zScoreP [],
    .lookupSave 256 (hd 0) zSaveP [],
    .lookupLoad 256 (hd 0) zLoadP [],
    .matmul 256 (hd 0) zMatmulP [],
    .vecopAdd 256 (hd 0) zVecopP [],
    .vecopSub 256 (hd 0) zVecopP [],
    .vecopMul 256 (hd 0) zVecopP [],
    .vecopFma 256 (hd 0) zVecopP [],
    .vecopFmas 256 (hd 0) zVecopP [],
    .vecopMax 256 (hd 0) zVecopP [],
    .vecopMin 256 (hd 0) zVecopP [],
    .vecopAbs 256 (hd 0) zVecopP [],
    .vecopNeg 256 (hd 0) zVecopP [],
    .vecopAnd 256 (hd 0) zVecopP [],
    .vecopOr 256 (hd 0) zVecopP [],
    .vecopXor 256 (hd 0) zVecopP [],
    .vecopShl 256 (hd 0) zVecopP [],
    .vecopShra 256 (hd 0) zVecopP [],
    .vecopSumr 256 (hd 0) zVecopP [],
    .vecopMaxr 256 (hd 0) zVecopP [],
    .vecopMinr 256 (hd 0) zVecopP [],
    .vecopLoad 256 (hd 0) zVecopP [],
    .vecopStore 256 (hd 0) zVecopP [],
    .vecopBroadcast 256 (hd 0) zVecopP [],
    .vecopCmpgt 256 (hd 0) zVecopP [],
    .vecopSelect 256 (hd 0) zVecopP [],
    .activateRelu 256 (hd 0) zActP [],
    .activateClamp 256 (hd 0) zActP [],
    .activateSign 256 (hd 0) zActP [],
    .activateGelu 256 (hd 0) zActP [],
    .activateSilu 256 (hd 0) zActP [],
    .activateSigmoid 256 (hd 0) zActP [],
    .activateTanh 256 (hd 0) zActP [],
    .activateExp 256 (hd 0) zActP [],
    .activateRecip 256 (hd 0) zActP [],
    .activateRsqrt 256 (hd 0) zActP [],
    .convert 256 (hd 0) zConvertP [],
    .selectRecords 256 (hd 0) zSelectP [],
    .selectRuns 256 (hd 0) zSelectP [],
    .merge 256 (hd 0) zMergeP [],
    .gatherFetch 256 (hd 0) zGatherP [],
    .gatherSplit 256 (hd 0) zGatherP [],
    .gatherServe 256 (hd 0) zGatherP [],
    .gatherFill 256 (hd 0) zGatherP [],
    .scatter 256 (hd 0) zScatterP [],
    .send 256 (hd 0) zSendP [],
    .recv 256 (hd 0) zRecvP [],
    .pimRun 256 (hd 0) zPimRunP [],
    .pimSeal 256 (hd 0) zPimSealP [],
    .flashread 256 (hd 0) zFlashReadP [],
    .flashwrite 256 (hd 0) zFlashWriteP [],
    .checkRange 256 (hd 0) zCheckRangeP [],
    .checkTapval 256 (hd 0) zCheckTapvalP [],
    .checkWeight 256 (hd 0) zCheckWeightP []] : List Instr).all (fun x => !x.wf) = true := by decide

theorem test_steps_with_a_bad_header : ([.sump 0 { hd 0 with slot := 65536 } zSumpP [],
    .barrierFreeNote 0 { hd 0 with slot := 65536 } zNoteP [],
    .scan 0 { hd 0 with slot := 65536 } zScanP [],
    .lookupBuild 0 { hd 0 with slot := 65536 } zBuildP [],
    .lookupScore 0 { hd 0 with slot := 65536 } zScoreP [],
    .lookupSave 0 { hd 0 with slot := 65536 } zSaveP [],
    .lookupLoad 0 { hd 0 with slot := 65536 } zLoadP [],
    .matmul 0 { hd 0 with slot := 65536 } zMatmulP [],
    .vecopAdd 0 { hd 0 with slot := 65536 } zVecopP [],
    .vecopSub 0 { hd 0 with slot := 65536 } zVecopP [],
    .vecopMul 0 { hd 0 with slot := 65536 } zVecopP [],
    .vecopFma 0 { hd 0 with slot := 65536 } zVecopP [],
    .vecopFmas 0 { hd 0 with slot := 65536 } zVecopP [],
    .vecopMax 0 { hd 0 with slot := 65536 } zVecopP [],
    .vecopMin 0 { hd 0 with slot := 65536 } zVecopP [],
    .vecopAbs 0 { hd 0 with slot := 65536 } zVecopP [],
    .vecopNeg 0 { hd 0 with slot := 65536 } zVecopP [],
    .vecopAnd 0 { hd 0 with slot := 65536 } zVecopP [],
    .vecopOr 0 { hd 0 with slot := 65536 } zVecopP [],
    .vecopXor 0 { hd 0 with slot := 65536 } zVecopP [],
    .vecopShl 0 { hd 0 with slot := 65536 } zVecopP [],
    .vecopShra 0 { hd 0 with slot := 65536 } zVecopP [],
    .vecopSumr 0 { hd 0 with slot := 65536 } zVecopP [],
    .vecopMaxr 0 { hd 0 with slot := 65536 } zVecopP [],
    .vecopMinr 0 { hd 0 with slot := 65536 } zVecopP [],
    .vecopLoad 0 { hd 0 with slot := 65536 } zVecopP [],
    .vecopStore 0 { hd 0 with slot := 65536 } zVecopP [],
    .vecopBroadcast 0 { hd 0 with slot := 65536 } zVecopP [],
    .vecopCmpgt 0 { hd 0 with slot := 65536 } zVecopP [],
    .vecopSelect 0 { hd 0 with slot := 65536 } zVecopP [],
    .activateRelu 0 { hd 0 with slot := 65536 } zActP [],
    .activateClamp 0 { hd 0 with slot := 65536 } zActP [],
    .activateSign 0 { hd 0 with slot := 65536 } zActP [],
    .activateGelu 0 { hd 0 with slot := 65536 } zActP [],
    .activateSilu 0 { hd 0 with slot := 65536 } zActP [],
    .activateSigmoid 0 { hd 0 with slot := 65536 } zActP [],
    .activateTanh 0 { hd 0 with slot := 65536 } zActP [],
    .activateExp 0 { hd 0 with slot := 65536 } zActP [],
    .activateRecip 0 { hd 0 with slot := 65536 } zActP [],
    .activateRsqrt 0 { hd 0 with slot := 65536 } zActP [],
    .convert 0 { hd 0 with slot := 65536 } zConvertP [],
    .selectRecords 0 { hd 0 with slot := 65536 } zSelectP [],
    .selectRuns 0 { hd 0 with slot := 65536 } zSelectP [],
    .merge 0 { hd 0 with slot := 65536 } zMergeP [],
    .gatherFetch 0 { hd 0 with slot := 65536 } zGatherP [],
    .gatherSplit 0 { hd 0 with slot := 65536 } zGatherP [],
    .gatherServe 0 { hd 0 with slot := 65536 } zGatherP [],
    .gatherFill 0 { hd 0 with slot := 65536 } zGatherP [],
    .scatter 0 { hd 0 with slot := 65536 } zScatterP [],
    .send 0 { hd 0 with slot := 65536 } zSendP [],
    .recv 0 { hd 0 with slot := 65536 } zRecvP [],
    .pimRun 0 { hd 0 with slot := 65536 } zPimRunP [],
    .pimSeal 0 { hd 0 with slot := 65536 } zPimSealP [],
    .flashread 0 { hd 0 with slot := 65536 } zFlashReadP [],
    .flashwrite 0 { hd 0 with slot := 65536 } zFlashWriteP [],
    .checkRange 0 { hd 0 with slot := 65536 } zCheckRangeP [],
    .checkTapval 0 { hd 0 with slot := 65536 } zCheckTapvalP [],
    .checkWeight 0 { hd 0 with slot := 65536 } zCheckWeightP []] : List Instr).all (fun x => !x.wf) = true := by decide

theorem test_steps_with_an_upset_at_no_place : ([.sump 0 (hd 0) zSumpP [.lutBad 65536],
    .barrierFreeNote 0 (hd 0) zNoteP [.lutBad 65536],
    .scan 0 (hd 0) zScanP [.lutBad 65536],
    .lookupBuild 0 (hd 0) zBuildP [.lutBad 65536],
    .lookupScore 0 (hd 0) zScoreP [.lutBad 65536],
    .lookupSave 0 (hd 0) zSaveP [.lutBad 65536],
    .lookupLoad 0 (hd 0) zLoadP [.lutBad 65536],
    .matmul 0 (hd 0) zMatmulP [.lutBad 65536],
    .vecopAdd 0 (hd 0) zVecopP [.lutBad 65536],
    .vecopSub 0 (hd 0) zVecopP [.lutBad 65536],
    .vecopMul 0 (hd 0) zVecopP [.lutBad 65536],
    .vecopFma 0 (hd 0) zVecopP [.lutBad 65536],
    .vecopFmas 0 (hd 0) zVecopP [.lutBad 65536],
    .vecopMax 0 (hd 0) zVecopP [.lutBad 65536],
    .vecopMin 0 (hd 0) zVecopP [.lutBad 65536],
    .vecopAbs 0 (hd 0) zVecopP [.lutBad 65536],
    .vecopNeg 0 (hd 0) zVecopP [.lutBad 65536],
    .vecopAnd 0 (hd 0) zVecopP [.lutBad 65536],
    .vecopOr 0 (hd 0) zVecopP [.lutBad 65536],
    .vecopXor 0 (hd 0) zVecopP [.lutBad 65536],
    .vecopShl 0 (hd 0) zVecopP [.lutBad 65536],
    .vecopShra 0 (hd 0) zVecopP [.lutBad 65536],
    .vecopSumr 0 (hd 0) zVecopP [.lutBad 65536],
    .vecopMaxr 0 (hd 0) zVecopP [.lutBad 65536],
    .vecopMinr 0 (hd 0) zVecopP [.lutBad 65536],
    .vecopLoad 0 (hd 0) zVecopP [.lutBad 65536],
    .vecopStore 0 (hd 0) zVecopP [.lutBad 65536],
    .vecopBroadcast 0 (hd 0) zVecopP [.lutBad 65536],
    .vecopCmpgt 0 (hd 0) zVecopP [.lutBad 65536],
    .vecopSelect 0 (hd 0) zVecopP [.lutBad 65536],
    .activateRelu 0 (hd 0) zActP [.lutBad 65536],
    .activateClamp 0 (hd 0) zActP [.lutBad 65536],
    .activateSign 0 (hd 0) zActP [.lutBad 65536],
    .activateGelu 0 (hd 0) zActP [.lutBad 65536],
    .activateSilu 0 (hd 0) zActP [.lutBad 65536],
    .activateSigmoid 0 (hd 0) zActP [.lutBad 65536],
    .activateTanh 0 (hd 0) zActP [.lutBad 65536],
    .activateExp 0 (hd 0) zActP [.lutBad 65536],
    .activateRecip 0 (hd 0) zActP [.lutBad 65536],
    .activateRsqrt 0 (hd 0) zActP [.lutBad 65536],
    .convert 0 (hd 0) zConvertP [.lutBad 65536],
    .selectRecords 0 (hd 0) zSelectP [.lutBad 65536],
    .selectRuns 0 (hd 0) zSelectP [.lutBad 65536],
    .merge 0 (hd 0) zMergeP [.lutBad 65536],
    .gatherFetch 0 (hd 0) zGatherP [.lutBad 65536],
    .gatherSplit 0 (hd 0) zGatherP [.lutBad 65536],
    .gatherServe 0 (hd 0) zGatherP [.lutBad 65536],
    .gatherFill 0 (hd 0) zGatherP [.lutBad 65536],
    .scatter 0 (hd 0) zScatterP [.lutBad 65536],
    .send 0 (hd 0) zSendP [.lutBad 65536],
    .recv 0 (hd 0) zRecvP [.lutBad 65536],
    .pimRun 0 (hd 0) zPimRunP [.lutBad 65536],
    .pimSeal 0 (hd 0) zPimSealP [.lutBad 65536],
    .flashread 0 (hd 0) zFlashReadP [.lutBad 65536],
    .flashwrite 0 (hd 0) zFlashWriteP [.lutBad 65536],
    .checkRange 0 (hd 0) zCheckRangeP [.lutBad 65536],
    .checkTapval 0 (hd 0) zCheckTapvalP [.lutBad 65536],
    .checkWeight 0 (hd 0) zCheckWeightP [.lutBad 65536]] : List Instr).all (fun x => !x.wf) = true := by decide

theorem test_such_steps_fit : ([.sump 0 (hd 0) zSumpP [],
    .barrierFreeNote 0 (hd 0) zNoteP [],
    .scan 0 (hd 0) zScanP [],
    .lookupBuild 0 (hd 0) zBuildP [],
    .lookupScore 0 (hd 0) zScoreP [],
    .lookupSave 0 (hd 0) zSaveP [],
    .lookupLoad 0 (hd 0) zLoadP [],
    .matmul 0 (hd 0) zMatmulP [],
    .vecopAdd 0 (hd 0) zVecopP [],
    .vecopSub 0 (hd 0) zVecopP [],
    .vecopMul 0 (hd 0) zVecopP [],
    .vecopFma 0 (hd 0) zVecopP [],
    .vecopFmas 0 (hd 0) zVecopP [],
    .vecopMax 0 (hd 0) zVecopP [],
    .vecopMin 0 (hd 0) zVecopP [],
    .vecopAbs 0 (hd 0) zVecopP [],
    .vecopNeg 0 (hd 0) zVecopP [],
    .vecopAnd 0 (hd 0) zVecopP [],
    .vecopOr 0 (hd 0) zVecopP [],
    .vecopXor 0 (hd 0) zVecopP [],
    .vecopShl 0 (hd 0) zVecopP [],
    .vecopShra 0 (hd 0) zVecopP [],
    .vecopSumr 0 (hd 0) zVecopP [],
    .vecopMaxr 0 (hd 0) zVecopP [],
    .vecopMinr 0 (hd 0) zVecopP [],
    .vecopLoad 0 (hd 0) zVecopP [],
    .vecopStore 0 (hd 0) zVecopP [],
    .vecopBroadcast 0 (hd 0) zVecopP [],
    .vecopCmpgt 0 (hd 0) zVecopP [],
    .vecopSelect 0 (hd 0) zVecopP [],
    .activateRelu 0 (hd 0) zActP [],
    .activateClamp 0 (hd 0) zActP [],
    .activateSign 0 (hd 0) zActP [],
    .activateGelu 0 (hd 0) zActP [],
    .activateSilu 0 (hd 0) zActP [],
    .activateSigmoid 0 (hd 0) zActP [],
    .activateTanh 0 (hd 0) zActP [],
    .activateExp 0 (hd 0) zActP [],
    .activateRecip 0 (hd 0) zActP [],
    .activateRsqrt 0 (hd 0) zActP [],
    .convert 0 (hd 0) zConvertP [],
    .selectRecords 0 (hd 0) zSelectP [],
    .selectRuns 0 (hd 0) zSelectP [],
    .merge 0 (hd 0) zMergeP [],
    .gatherFetch 0 (hd 0) zGatherP [],
    .gatherSplit 0 (hd 0) zGatherP [],
    .gatherServe 0 (hd 0) zGatherP [],
    .gatherFill 0 (hd 0) zGatherP [],
    .scatter 0 (hd 0) zScatterP [],
    .send 0 (hd 0) zSendP [],
    .recv 0 (hd 0) zRecvP [],
    .pimRun 0 (hd 0) zPimRunP [],
    .pimSeal 0 (hd 0) zPimSealP [],
    .flashread 0 (hd 0) zFlashReadP [],
    .flashwrite 0 (hd 0) zFlashWriteP [],
    .checkRange 0 (hd 0) zCheckRangeP [],
    .checkTapval 0 (hd 0) zCheckTapvalP [],
    .checkWeight 0 (hd 0) zCheckWeightP []] : List Instr).all Instr.wf = true := by decide

theorem test_events_out_of_range : ([.railPowerGoodMiss 11,
    .railPowerGoodLoss 11,
    .resetRelease { zBoot with serial := 2 ^ 64 } 0 0,
    .resetRelease zBoot (2 ^ 64) 0,
    .resetRelease zBoot 0 (2 ^ 64),
    .trainingComplete [12],
    .trainingTimeout [12],
    .resumeCmd ⟨[(16, 0)], [], []⟩ [],
    .resumeCmd ⟨[], [], []⟩ [2 ^ 32],
    .wakeNWake true (2 ^ 64),
    .perstNWake (2 ^ 64),
    .comparatorWake 3 0,
    .comparatorWake 0 (2 ^ 64),
    .aonCmpVinTrip (2 ^ 32) 0,
    .aonCmpVinTrip 0 (2 ^ 64),
    .aonCmpTempTrip 65536,
    .aonCmpAuxTrip 65536,
    .powerSample ⟨2 ^ 64, 0, 0, 0, 0, 0, 0, 0⟩,
    .thermalSample [128] [] [] [],
    .thermalSample [] [-129] [] [],
    .thermalSample [] [] [128] [],
    .thermalSample [] [] [] [(4, 0)],
    .thermalSample [] [] [] [(0, 256)],
    .oppStepDownComplete (some 11),
    .oppStepUpAbandon 11,
    .epochBoundary ⟨2 ^ 64, [], [], [], []⟩,
    .cairnOverrun (2 ^ 32),
    .slotStart 65536 0 .none,
    .slotStart 0 (2 ^ 64) .none,
    .slotStart 0 0 { IndexWork.none with sets := [⟨64, 0, 0, 0⟩] },
    .ingressCutoff false ⟨[⟨some 256, 64, 1⟩], []⟩,
    .ingressCutoff false ⟨[⟨none, 63, 1⟩], []⟩,
    .ingressCutoff false ⟨[⟨none, 1088, 1⟩], []⟩,
    .ingressCutoff false ⟨[⟨none, 64, 0⟩], []⟩,
    .ingressCutoff false ⟨[⟨none, 64, 513⟩], []⟩,
    .ingressCutoff false ⟨[], [⟨false, 65536, 0, 0⟩]⟩,
    .ingressCutoff false ⟨[], [⟨false, 0, 256, 0⟩]⟩,
    .ingressCutoff false ⟨[], [⟨false, 0, 0, 0x3EC0000⟩]⟩,
    .epochSyncEdge (2 ^ 64) true,
    .startGenerator (2 ^ 64),
    .verify 2,
    .planVerifyComplete 2,
    .invalidate 2,
    .planBankWrite 2 none 0 [] false,
    .planBankWrite 0 (some 256) 0 [] false,
    .planBankWrite 0 none 512 [0] false,
    .planBankWrite 0 (some 0) 0x80000 [0] false,
    .stepComplete 256 0 0 ⟨0, 0, 0, false, 0, 0, 0⟩,
    .stepComplete 0 65536 0 ⟨0, 0, 0, false, 0, 0, 0⟩,
    .stepComplete 0 0 (2 ^ 64) ⟨0, 0, 0, false, 0, 0, 0⟩,
    .stepComplete 0 0 0 ⟨2 ^ 64, 0, 0, false, 0, 0, 0⟩,
    .seqTimeout 256 0 0,
    .seqTimeout 0 256 0,
    .seqTimeout 0 0 65536,
    .sumpEntryExpire [(256, 0, 0)],
    .recvComplete 256 ⟨0, false⟩,
    .recvComplete 0 ⟨65536, false⟩,
    .pimQueueAdmit 12,
    .pimChunkEnd 12 0 0 0 [],
    .pimChunkEnd 0 16 0 0 [],
    .pimChunkEnd 0 0 0 0 [0x400000000],
    .sealStripeComplete 12 0,
    .sealStripeComplete 0 49152,
    .stackRefreshDue 12 0 true,
    .stackRefreshDue 0 16 true,
    .dieTempSample 12 0 0,
    .dieTempSample 0 16 0,
    .dieTempSample 0 0 128,
    .dieTempSample 0 0 (-129),
    .stkModeWrite 12 0 0,
    .stkModeWrite 0 3072 0,
    .stkModeWrite 0 0 (2 ^ 32),
    .flashreadDeadline 256 0,
    .flashreadDeadline 0 65536,
    .flashEraseComplete 32 0 true,
    .flashEraseComplete 0 (2 ^ 20) true,
    .fold (2 ^ 23) 0 [],
    .logMerge (2 ^ 23) 0 [],
    .gcMerge 32 0 [],
    .relocation (2 ^ 23) 0 [],
    .weightReload 256 0 0,
    .weightReload 0 0x400000000 0,
    .weightReload 0 0 (2 ^ 64),
    .mapTakeEffect [(256, 0, 0)],
    .stateClaim (2 ^ 64) 0 0 true true [],
    .stateClaim 0 65536 0 true true [],
    .stateClaim 0 0 0 true true [(256, ⟨hd 0, .save ⟨0, 0⟩⟩)],
    .stateClaim 0 0 0 true true [(0, ⟨hd 0, .save ⟨256, 0⟩⟩)],
    .overlayEntryFoldable (2 ^ 20) 0,
    .prevVersionFree (2 ^ 20) 0,
    .prevVersionFree 0 64,
    .sideStartAdvance (2 ^ 20),
    .flowstonePass (2 ^ 20) 0 ⟨0, [], none⟩ [],
    .flowstonePass 0 (2 ^ 64) ⟨0, [], none⟩ [],
    .flowstonePass 0 0 ⟨3, [], none⟩ [],
    .flowstoneFlip (2 ^ 20),
    .tableVersionFlip 64 0 0 0 0 0,
    .tableVersionFlip 0 (2 ^ 64) 0 0 0 0,
    .tableVersionFlip 0 0 3 0 0 0,
    .tableVersionFlip 0 0 0 (2 ^ 64) 0 0,
    .tableVersionFlip 0 0 0 0 (2 ^ 64) 0,
    .tableVersionFlip 0 0 0 0 0 (2 ^ 32),
    .tableVersionFree 64,
    .redirectFold 64 0 0,
    .redirectFold 0 0 8,
    .driplineRefresh 64 .built,
    .hotIndexFlip 64,
    .tierMoveRequest (2 ^ 32) 0 0 0 false,
    .tierMoveRequest 0 3 0 0 false,
    .tierMoveRequest 0 0 (2 ^ 64) 0 false,
    .tierMoveRequest 0 0 0 (2 ^ 32) false,
    .moveChunkCopy (2 ^ 32) 0 0,
    .moveCheckComplete (2 ^ 32),
    .homeFlip (2 ^ 32) [],
    .homeFlip 0 [(0x400000000, [])],
    .homeRangeFree (2 ^ 32),
    .moveCancel (2 ^ 32),
    .scrubAtomRead 0x400000000 0 .clean,
    .scrubAtomRead 32 0 .clean,
    .watchdogExpire 256] : List Instr).all (fun x => !x.wf) = true := by decide

theorem test_frames_and_requests_out_of_range : ([.planFrame 8 0 [] true,
    .siphonFrame 8 0 [] true,
    .queryMessage 8 0 [] true,
    .reply 8 0 [] true,
    .ackFrame 8 0 [] true,
    .echoReq 8 0 [] true,
    .echoRsp 8 0 [] true,
    .timeFrame 8 0 [] true,
    .mapAnnounce 8 0 [] true,
    .stateProbe 8 0 [] true,
    .stateHandoff 8 0 [] true,
    .heartbeat 8 0 [] true,
    .heartbeatSet 8 0 [] true,
    .downMessage 8 0 [] true,
    .tagsMessage 8 0 [] true,
    .receivedFrameDiscard 8 0 [] true,
    .bulk (.frame 8 0 [] true) ⟨0, 0, false⟩,
    .bulk .waiting ⟨0, 3, false⟩,
    .getVersion (.fabric (.frame 8 0 [] true)) none,
    .getCapabilities (.fabric (.frame 8 0 [] true)) none,
    .negotiateAlgorithms (.fabric (.frame 8 0 [] true)) none,
    .getDigests (.fabric (.frame 8 0 [] true)) none,
    .getCertificate (.fabric (.frame 8 0 [] true)) none,
    .challenge (.fabric (.frame 8 0 [] true)) none,
    .getMeasurements (.fabric (.frame 8 0 [] true)) none,
    .keyExchange (.fabric (.frame 8 0 [] true)) none,
    .spdmHeartbeat (.fabric (.frame 8 0 [] true)) none,
    .keyUpdate (.fabric (.frame 8 0 [] true)) none,
    .endSession (.fabric (.frame 8 0 [] true)) none,
    .finish (.fabric (.frame 8 0 [] true)) none true,
    .startGenerator (2 ^ 64),
    .ackTimer (2 ^ 64),
    .retransmitTimer (2 ^ 64),
    .timeFrameSend (2 ^ 64),
    .echoExchange (2 ^ 64),
    .timeLoss (2 ^ 64),
    .tokenRefill (2 ^ 64),
    .egressSample (2 ^ 64),
    .applyPoint (2 ^ 64),
    .snapshotPoint (2 ^ 64),
    .portTrainingTimeout 8,
    .portPhyUp 8,
    .portUp 8,
    .portAlignmentLoss 8,
    .fecWindow 8 0 0 0,
    .fecWindow 0 0 0 (2 ^ 64),
    .portEnableWrite 256,
    .egressChoice 8 0 none,
    .egressChoice 0 (2 ^ 64) none,
    .queueUrgent 8 0 0,
    .queueUrgent 0 0 (2 ^ 64)] : List Instr).all (fun x => !x.wf) = true := by decide

theorem test_host_and_monitor_commands_out_of_range : ([.sqTailDoorbell 32 0 0,
    .sqTailDoorbell 0 0 (2 ^ 32),
    .cqHeadDoorbell 0 16 0 0,
    .cqHeadDoorbell 0 0 (2 ^ 32) 0,
    .cqHeadDoorbell 0 0 0 (2 ^ 64),
    .hostQuery 32 0 [] [] ⟨0, none⟩,
    .hostQuery 0 0 [] [] ⟨6, none⟩,
    .hostOperation 32 0 [] [] ⟨0, none⟩,
    .hostOperation 0 0 [] [] ⟨6, none⟩,
    .bulkLoad 32 0 [] [] [] ⟨0, none⟩ ⟨0, 0, false⟩,
    .bulkLoad 0 0 [] [] [] ⟨6, none⟩ ⟨0, 0, false⟩,
    .bulkLoad 0 0 [] [] [] ⟨0, none⟩ ⟨0, 3, false⟩,
    .planSupply 32 0 [] [] [] ⟨0, none⟩,
    .planSupply 0 0 [] [] [] ⟨6, none⟩,
    .imageSupply 32 0 0 [] [] [] ⟨0, none⟩ none,
    .imageSupply 0 0 (2 ^ 64) [] [] [] ⟨0, none⟩ none,
    .imageSupply 0 0 0 [] [] [] ⟨6, none⟩ none,
    .completionPost 0 (2 ^ 64) ⟨0, none⟩,
    .completionPost 0 0 ⟨6, none⟩,
    .cqInterrupt 32 0 0,
    .cqInterrupt 0 0 (2 ^ 64),
    .functionLevelReset 32,
    .ideTlpFail 5,
    .hostLinkTrained 256 0,
    .hostLinkTrained 0 256,
    .ringEnableWrite 32 0 true,
    .bar4Read (2 ^ 64) 0,
    .bar4Read 0 (2 ^ 32),
    .registerWrite (2 ^ 32) 4 0 ⟨0, ⟨[], [], []⟩, []⟩,
    .registerWrite 0 2 0 ⟨0, ⟨[], [], []⟩, []⟩,
    .registerWrite 0 4 (2 ^ 64) ⟨0, ⟨[], [], []⟩, []⟩,
    .registerWrite 0 4 0 ⟨2 ^ 64, ⟨[], [], []⟩, []⟩,
    .lowerHalfWrite 0 (2 ^ 32) 0,
    .lowerHalfWrite 0 0 (2 ^ 32),
    .counterLowerRead 0 ⟨2 ^ 32, 4⟩,
    .sumpPeakRead 0 256,
    .lowerHalfWrite 3 0 0,
    .counterLowerRead 3 ⟨0, 4⟩,
    .counterLowerRead 0 ⟨0, 2⟩,
    .sumpPeakRead 3 0,
    .badAccess true (2 ^ 32) 0,
    .badAccess true 0 (2 ^ 32),
    .wr (List.replicate 256 'A') ⟨0, ⟨[], [], []⟩, []⟩,
    .wr [] ⟨2 ^ 64, ⟨[], [], []⟩, []⟩,
    .loadBlock [] (2 ^ 32),
    .norwrite (List.replicate 256 'A') 0 none,
    .norwrite [] (2 ^ 64) none,
    .stepCmd (List.replicate 256 'A') 0,
    .stepCmd [] (2 ^ 64),
    .lineTooLong 255,
    .comparatorRelease 3 0,
    .comparatorRelease 0 (2 ^ 64),
    .rd (List.replicate 256 'A'),
    .cnt (List.replicate 256 'A'),
    .memCmd (List.replicate 256 'A'),
    .faults (List.replicate 256 'A'),
    .stateCmd (List.replicate 256 'A'),
    .sensors (List.replicate 256 'A'),
    .links (List.replicate 256 'A'),
    .loadCmd (List.replicate 256 'A'),
    .bootstaged (List.replicate 256 'A'),
    .debugOn (List.replicate 256 'A'),
    .debugOff (List.replicate 256 'A'),
    .unknownCommand (List.replicate 256 'A')] : List Instr).all (fun x => !x.wf) = true := by decide


/-! ### Facts of the spec's own tables and worked examples -/

/-- "123456789" in ASCII. -/
def nineDigits : List Byte := [0x31, 0x32, 0x33, 0x34, 0x35, 0x36, 0x37, 0x38, 0x39]

/-- The CHECK column of R317, with the seed equal to INIT (address 0). -/
theorem test_check_values : (List.range 4).map (fun p => Crypto.check (Crypto.crcOf p) 0 nineDigits) = [0x29B1, 0xCBF43926, 0xE3069283, 0x6C40DF5F0B497347] := by
  decide +kernel

/-- The two addresses of R318's example collide under the 32-bit fold, and not under the 64-bit one. -/
theorem test_fold_collision : Crypto.fold 0x0224001040 32 = Crypto.fold 0x0324001041 32 ∧ Crypto.fold 0x0224001040 64 ≠ Crypto.fold 0x0324001041 64 := by decide +kernel

/-- SHA-256 of "abc", from its public standard. -/
theorem test_sha256_abc : Crypto.sha256 [0x61, 0x62, 0x63] =
    [0xba, 0x78, 0x16, 0xbf, 0x8f, 0x01, 0xcf, 0xea, 0x41, 0x41, 0x40, 0xde, 0x5d, 0xae, 0x22, 0x23,
     0xb0, 0x03, 0x61, 0xa3, 0x96, 0x17, 0x7a, 0x9c, 0xb4, 0x10, 0xff, 0x61, 0xf2, 0x00, 0x15, 0xad] := by decide +kernel

/-- The worked example of R83: 10.0, 0.3 and -7.0 in FP4 have scale byte 128 and elements 4, 0 and -4. -/
theorem test_fp4_block : (convertRun 5 [Fp.ofInt 10, Fp.f32 0x3E99999A, Fp.ofInt (-7)]).1.take 3 = [6, 0, 14]
    ∧ (convertRun 5 [Fp.ofInt 10, Fp.f32 0x3E99999A, Fp.ofInt (-7)]).2.1 = [128] := by decide +kernel

/-- 500.0 in FP8 (the same example): 0x7E, saturated and counted, in E4M3, and 0x60 in E5M2. -/
theorem test_fp8_of_500 : (convertTo 3 (Fp.ofInt 500)).1 = 0x7E ∧ (convertTo 4 (Fp.ofInt 500)).1 = 0x60 := by decide +kernel

/-- Chamber 137's registers and column (R14 and R503's examples). -/
theorem test_places_of_chamber_137 : (Reg.sumpDepth 137).off = 0x609800 ∧ columnBase 137 = 0x0224000000 := by decide

/-- Stripe 1,000 of stack 7, tenant 3, W0 of port 2 and peer 5 (the example of 21_register_map.md). -/
theorem test_register_offsets : (Reg.stkMode 7 62).off = 0x2740F8 ∧ (Reg.tntStackUsed 3).off = 0x1900E8 ∧ (Reg.egsWCfgQuantum 2 0).off = 0x83080
    ∧ (Reg.peerCfgNode 5).off = 0xE0050 := by decide

/-- The key of 0.71875, which is 0x3F38_0000 in FP32 (the example of 06_selection.md). -/
theorem test_score_key : scoreKey 0x3F380000 = some 0xBF380000 := by decide +kernel

/-- The lower id wins a tie (R152). -/
theorem test_ties_go_to_the_lower_id :
    candBefore ⟨0xBF380000, 0x0004000000012A10, 9, 0, 0, 0⟩ ⟨0xBF380000, 0x0009000000000FF1, 1, 0, 0, 0⟩ = true := by decide +kernel

/-! ### One step each -/

/-- A test of the state after a command. -/
def leaves (c : Instr) (s : State) (ok : State → Bool) : Bool := match exec c s with | .next t => ok t | _ => false

/-- What element 0 of register 2 holds after an operation on element 0 of registers 0 and 1. -/
def elem2 (c : VecopP → Instr) (etype a b : Nat) : Option Nat :=
  let s := (st 5 []).vput 0 0 [a] false
  let s := s.vput 0 1 [b] false
  match exec (c ⟨2, 0, 1, 0, etype, 1, 0, 0⟩) s with | .next t => some (t.vget 0 2 0) | _ => none

/-- R90: an INT32 sum saturates. -/
theorem test_vecop_add_saturates : elem2 (fun p => .vecopAdd 0 (hd 0) p []) 1 0x7FFFFFFF 1 = some 0x7FFFFFFF := by decide +kernel
/-- 1.0 + 2.0 = 3.0 in FP32. -/
theorem test_vecop_add_fp32 : elem2 (fun p => .vecopAdd 0 (hd 0) p []) 0 0x3F800000 0x40000000 = some 0x40400000 := by decide +kernel
theorem test_vecop_sub_fp32 : elem2 (fun p => .vecopSub 0 (hd 0) p []) 0 0x3F800000 0x40000000 = some 0xBF800000 := by decide +kernel
theorem test_vecop_mul_int32 : elem2 (fun p => .vecopMul 0 (hd 0) p []) 1 0xFFFFFFFE 3 = some 0xFFFFFFFA := by decide +kernel
/-- R91: the shift count is taken modulo 32. -/
theorem test_vecop_shl_modulo : elem2 (fun p => .vecopShl 0 (hd 0) p []) 1 1 33 = some 2 := by decide +kernel
theorem test_vecop_shra_sign : elem2 (fun p => .vecopShra 0 (hd 0) p []) 1 0x80000000 31 = some 0xFFFFFFFF := by decide +kernel
/-- R91: CMPGT gives 0 for a NaN operand. -/
theorem test_vecop_cmpgt_nan : elem2 (fun p => .vecopCmpgt 0 (hd 0) p []) 0 0x7FC00000 0 = some 0 := by decide +kernel
theorem test_vecop_max_nan : elem2 (fun p => .vecopMax 0 (hd 0) p []) 0 0x7FC00000 0 = some 0x7FC00000 := by decide +kernel

/-- The example of 21_register_map.md: a 16-bit read of 0x0001_0008 is a bad access, recorded with its address. -/
theorem test_bad_access : leaves (.badAccess false 0x10008 2) (st 5 []) (fun t => t.dev.rd Reg.glbAccessBadAccess = 1 && t.dev.rd Reg.glbAccessAddrOffset = 0x10008) = true := by
  decide +kernel

/-- The same example: a write of the lower half alone leaves the start time unchanged. -/
theorem test_lower_half_alone : leaves (.lowerHalfWrite agHost 0x10018 5) (st 4 []) (fun t => t.dev.rd Reg.epcStartTime = 0) = true := by decide +kernel

/-- R520: input power starts the rail sequence at its first row. -/
theorem test_input_valid : leaves .inputValid (st 0 [] { aon := { up := false } }) (fun t => t.dev.aon.seq = some 0) = true := by decide +kernel

/-- R481: DRAIN outside ACTIVE is refused. -/
theorem test_drain_refused : leaves .drainCmd (st 4 []) (fun t => t.dev.rd Reg.glbState = 4 && t.dev.rd Reg.btStatusStateRefused = 1) = true := by decide +kernel

/-- R480: DRAIN in ACTIVE. -/
theorem test_drain : leaves .drainCmd (st 5 []) (fun t => t.dev.rd Reg.glbState = 6) = true := by decide +kernel

/-- A step runs the command in front. -/
theorem test_step_takes_the_front : (match step { State.reset with pending := [.inputValid, .crystalStable] } with | .next t => t.pending | _ => []) = [.crystalStable] := by
  decide +kernel

/-- No row of the table has bits, so no word spells a command. -/
theorem test_no_word_is_a_command : decodeTableWord 32 0xFFFFFFFF = none := by decide

/-! ### The hypotheses of the statements can be met: for each clause, what it asks for -/

theorem meets_RailsComeUpAndFail :
    (∃ (s : State), s.dev.inState stSleep = true ∧ s.dev.aon.seq = none ∧ s.dev.aon.up = false)
    ∧ (∃ (s : State) (k : Nat), s.dev.aon.seq = some k ∧ k ≤ 6)
    ∧ (∃ (s : State), s.dev.aon.seq.isSome = true)
    ∧ (∃ (s : State), s.dev.inState stSleep = false ∧ s.dev.flag Reg.pwrStatusStepping = false)
    ∧ (∃ (s : State), s.dev.inState stSleep = false)
    ∧ (∃ (s : State), s.dev.aon.vinAt.isSome = true) :=
  ⟨⟨st 0 [] { aon := { up := false } }, by decide⟩,
   ⟨st 0 [] { aon := { seq := some 6 } }, 6, by decide⟩,
   ⟨st 0 [] { aon := { seq := some 3 } }, by decide⟩,
   ⟨st 4 [], by decide⟩,
   ⟨st 4 [], by decide⟩,
   ⟨st 5 [] { aon := { vinAt := some 7 } }, by decide⟩⟩

theorem meets_ResetReleaseRunsTheBootSequence :
    (∃ (s : State), s.dev.inState stBoot = true ∧ s.dev.boot.ran = false)
    ∧ (∃ (s : State), s.dev.inState stSleep = true ∧ s.dev.aon.seq = some 7)
    ∧ (∃ (s : State) (k : Nat), s.dev.inState stBoot = true ∧ s.dev.boot.hungAt = some k) :=
  ⟨⟨st 1 [], by decide⟩,
   ⟨st 0 [] { aon := { seq := some 7 } }, by decide⟩,
   ⟨st 1 [] { boot := { hungAt := some 3 } }, 3, by decide⟩⟩

theorem meets_TrainingAndStateCommands :
    (∃ (s : State), s.dev.inState stTraining = true ∧ s.trained = true)
    ∧ (∃ (s : State), s.dev.inState stTraining = true)
    ∧ (∃ (s : State), s.dev.commandable = true ∧ s.dev.inState stActive = true)
    ∧ (∃ (s : State), s.dev.commandable = true ∧ s.dev.inState stReady = true ∧ s.dev.running = false)
    ∧ (∃ (s : State), s.dev.commandable = true ∧ s.dev.inState stRetain = true)
    ∧ (∃ (s : State), s.dev.commandable = true ∧ s.dev.running = false ∧ (s.dev.inState stReady = true ∨ s.dev.inState stRetain = true ∨ s.dev.inState stRecovery = true))
    ∧ (∃ (s : State), s.dev.commandable = true ∧ s.dev.inState stSleep = false)
    ∧ (∃ (s : State), s.dev.inState stDrain = true ∧ s.dev.ingress.cohorts = []) :=
  ⟨⟨st 3 ((Reg.flsStatusReady, 1) :: (Reg.fabCtrlPortEn, 0) :: (List.range 32).map fun c => (Reg.chStatusTrained c, 1)), by decide⟩,
   ⟨st 3 [], by decide⟩,
   ⟨st 5 [], by decide⟩,
   ⟨st 4 [], by decide⟩,
   ⟨st 7 [], by decide⟩,
   ⟨st 2 [], by decide⟩,
   ⟨st 5 [], by decide⟩,
   ⟨st 6 [], by decide⟩⟩

theorem meets_RefusedStateCommandsChangeNoState :
    (∃ (s : State) (c : Instr), s.dev.commandable = true ∧ s.dev.inState stSleep = false ∧ ((c = .drainCmd ∧ s.dev.inState stActive = false) ∨ (c = .retainCmd ∧ (s.dev.inState stReady = false ∨ s.dev.running = true)) ∨ (∃ e lost, c = .resumeCmd e lost ∧ s.dev.inState stRetain = false) ∨ (c = .sleepCmd ∧ (s.dev.running = true ∨ (s.dev.inState stReady = false ∧ s.dev.inState stRetain = false ∧ s.dev.inState stRecovery = false))) ∨ (∃ v e, c = .registerWrite Reg.btStateCmd.off 4 v e ∧ 6 ≤ v % 16 ∧ e.t ≤ s.dev.now)))
    ∧ (∃ (s : State) (v : Nat) (e : WriteEnv), s.dev.inState stSleep = false ∧ e.t ≤ s.dev.now ∧ v % 16 = 0 ∧ s.dev.commandable = true)
    ∧ (∃ (s : State) (v : Nat) (e : WriteEnv), s.dev.inState stSleep = false ∧ e.t ≤ s.dev.now ∧ v % 16 = 1)
    ∧ (∃ (s : State) (v : Nat) (e : WriteEnv), s.dev.inState stSleep = false ∧ e.t ≤ s.dev.now ∧ v % 16 = 2)
    ∧ (∃ (s : State) (v : Nat) (e : WriteEnv), s.dev.inState stSleep = false ∧ e.t ≤ s.dev.now ∧ v % 16 = 3)
    ∧ (∃ (s : State) (v : Nat) (e : WriteEnv), s.dev.inState stSleep = false ∧ e.t ≤ s.dev.now ∧ v % 16 = 4)
    ∧ (∃ (s : State) (v : Nat) (e : WriteEnv), s.dev.inState stSleep = false ∧ e.t ≤ s.dev.now ∧ v % 16 = 5) :=
  ⟨⟨st 4 [], .registerWrite Reg.btStateCmd.off 4 6 ⟨0, ⟨[], [], []⟩, []⟩, by decide, by decide, .inr (.inr (.inr (.inr ⟨6, _, rfl, by decide⟩)))⟩,
   ⟨st 4 [], 16, ⟨0, ⟨[], [], []⟩, []⟩, by decide⟩,
   ⟨st 4 [], 1, ⟨0, ⟨[], [], []⟩, []⟩, by decide⟩,
   ⟨st 4 [], 2, ⟨0, ⟨[], [], []⟩, []⟩, by decide⟩,
   ⟨st 4 [], 3, ⟨0, ⟨[], [], []⟩, []⟩, by decide⟩,
   ⟨st 4 [], 4, ⟨0, ⟨[], [], []⟩, []⟩, by decide⟩,
   ⟨st 4 [], 5, ⟨0, ⟨[], [], []⟩, []⟩, by decide⟩⟩

theorem meets_AlwaysOnEventsAndWakes :
    (∃ (s : State), s.dev.inState stSleep = true ∧ s.dev.aon.up = true ∧ s.dev.aon.seq = none ∧ bit (s.dev.rd Reg.aonCtrlWake) 4 = true ∧ s.dev.rd Reg.aonStatusTripped = 0)
    ∧ (∃ (s : State), s.dev.inState stSleep = true ∧ s.dev.aon.up = true ∧ s.dev.aon.seq = none ∧ bit (s.dev.rd Reg.aonCtrlWake) 3 = true ∧ s.dev.rd Reg.aonStatusTripped = 0)
    ∧ (∃ (s : State) (k : Nat), k < 3 ∧ s.dev.inState stSleep = true ∧ s.dev.aon.up = true ∧ s.dev.aon.seq = none ∧ bit (s.dev.rd Reg.aonCtrlWake) k = true ∧ s.dev.rd Reg.aonStatusTripped = 2 ^ k)
    ∧ (∃ (s : State), s.dev.inState stSleep = false ∧ s.dev.aon.vinAt = none)
    ∧ (∃ (s : State), s.dev.inState stSleep = false)
    ∧ (∃ (s : State) (k : Nat), k < 3 ∧ s.dev.inState stSleep = false)
    ∧ (∃ (s : State), s.dev.aon.up = true) :=
  ⟨⟨st 0 [(Reg.aonCtrlWake, 16)], by decide⟩,
   ⟨st 0 [(Reg.aonCtrlWake, 8)], by decide⟩,
   ⟨st 0 [(Reg.aonCtrlWake, 4), (Reg.aonStatusTripped, 4)], 2, by decide⟩,
   ⟨st 4 [], by decide⟩,
   ⟨st 4 [], by decide⟩,
   ⟨st 4 [], 2, by decide⟩,
   ⟨st 0 [], by decide⟩⟩

theorem meets_PowerSamplesAndSteps :
    (∃ (s : State), s.dev.inState stSleep = false)
    ∧ (∃ (s : State), s.dev.inState stSleep = false ∧ s.dev.power.stretched = false)
    ∧ (∃ (s : State) (edges : Nat), s.dev.power.stretched = true ∧ 16 ≤ edges)
    ∧ (∃ (s : State) (n t0 : Nat), (s.dev.power.step = some (n, t0)) ∧ s.dev.rd Reg.pwrStatusOpp < n ∧ n < 8)
    ∧ (∃ (s : State) (n t0 : Nat), (s.dev.power.step = some (n, t0)) ∧ n < s.dev.rd Reg.pwrStatusOpp) :=
  ⟨⟨st 4 [], by decide⟩,
   ⟨st 4 [], by decide⟩,
   ⟨st 4 [] { power := { stretched := true } }, 16, by decide⟩,
   ⟨st 4 [] { power := { step := some (7, 0) } }, 7, 0, by decide⟩,
   ⟨st 4 [(Reg.pwrStatusOpp, 1)] { power := { step := some (0, 0) } }, 0, 0, by decide⟩⟩

theorem meets_TheGeneratorStartsAndStops :
    (∃ (s : State), s.dev.epc.monStep = 0 ∧ s.mayStart = true ∧ s.dev.epc.startPending = false)
    ∧ (∃ (s : State), s.dev.epc.monStep = 0 ∧ s.dev.epc.startPending = false ∧ s.dev.running = true)
    ∧ (∃ (s : State), s.dev.epc.monStep = 0 ∧ s.dev.epc.startPending = true ∧ s.dev.epc.heldWrites = []) :=
  ⟨⟨st 4 [(Reg.plnStatusValid 0, 1)], by decide⟩,
   ⟨st 5 [(Reg.epcStatusRunning, 1)], by decide⟩,
   ⟨st 4 [] { epc := { startPending := true } }, by decide⟩⟩

theorem meets_BoundariesAndOverruns :
    (∃ (s : State), s.dev.running = true ∧ s.dev.epc.stopPending = false ∧ s.dev.epc.monStep ≠ 1)
    ∧ (∃ (s : State), s.dev.running = true ∧ s.dev.epc.slot = none ∧ s.dev.epc.slotLate = none) :=
  ⟨⟨st 5 [(Reg.epcStatusRunning, 1)], by decide⟩,
   ⟨st 5 [(Reg.epcStatusRunning, 1)], by decide⟩⟩

theorem meets_SlotsStepsAndEdges :
    (∃ (s : State) (m t : Nat), s.dev.running = true ∧ s.nextSlot = some m ∧ s.slotStart m ≤ t)
    ∧ (∃ (s : State), s.dev.running = true ∧ s.dev.rd Reg.glbState ≠ 4 ∧ s.dev.epc.slot = some s.cutoffSlot ∧ s.dev.ingress.cutAt ≠ some s.dev.epoch)
    ∧ (∃ (s : State) (c idx origin : Nat) (e : StepEnd) (f : InFlight), c < 256 ∧ (s.dev.seq.inflight.find? fun f => f.chamber = c && f.step.hdr.index = idx && f.origin = origin && f.issued && f.executed) = some f ∧ (s.onDev (·.clock e.t)).dev.settled c idx origin = true)
    ∧ (∃ (c : Nat), c < 256)
    ∧ (∃ (s : State) (rising : Bool), (s.dev.on Reg.epcCtrlSyncEdge = !rising) ∧ s.dev.epc.startPending = true ∧ s.dev.epc.firstAt = none)
    ∧ (∃ (s : State), s.dev.running = false ∧ s.dev.inState stSleep = false)
    ∧ (∃ (s : State), s.dev.epc.inCairn = true) :=
  ⟨⟨st 5 [(Reg.epcStatusRunning, 1)] {} [(.hdr, 8, [120])], 0, 10000, by decide⟩,
   ⟨st 5 [(Reg.epcStatusRunning, 1)] { epc := { slot := some ((st 5 []).cutoffSlot) } }, by decide⟩,
   ⟨st 5 [] { seq := { inflight := [⟨255, ⟨⟨0, 0, 0, 0, 0xFFFF, 0, 0, 0, 0⟩, .sump ⟨1, 0, 0⟩⟩, 0, true, true, none, [], none, none⟩] } }, 255, 0, 0, ⟨0, 0, 0, false, 0, 0, 0⟩, ⟨255, ⟨⟨0, 0, 0, 0, 0xFFFF, 0, 0, 0, 0⟩, .sump ⟨1, 0, 0⟩⟩, 0, true, true, none, [], none, none⟩, by decide⟩,
   ⟨255, by decide⟩,
   ⟨st 4 [] { epc := { startPending := true } }, true, by decide⟩,
   ⟨st 4 [], by decide⟩,
   ⟨st 5 [] { epc := { inCairn := true } }, by decide +kernel⟩⟩

theorem meets_PlanBanksAreVerifiedAndSwitched :
    (∃ (s : State) (bank : Nat), bank < 2 ∧ bank ≠ s.dev.activeBank)
    ∧ (∃ (s : State) (bank : Nat), bank < 2 ∧ s.dev.flag (Reg.plnStatusVerifying bank) = true)
    ∧ (∃ (s : State) (bank off : Nat) (bs : List Byte), s.mem.wf = true ∧ s.dev.flt.ring = [] ∧ bank < 2 ∧ bank ≠ s.dev.activeBank ∧ off + bs.length ≤ 512)
    ∧ (∃ (s : State) (off : Nat) (bs : List Byte), s.dev.activeBank < 2 ∧ off + bs.length ≤ 512)
    ∧ (∃ (s : State), s.dev.epc.inCairn = true ∧ s.dev.now ≤ s.dev.rd Reg.epcBoundary + 500 ∧ s.dev.epc.switchedAt ≠ some s.dev.epoch ∧ s.dev.flag Reg.plnCtrlArm = true ∧ s.dev.rd Reg.plnSwitchEpoch ≤ s.dev.epoch ∧ s.dev.epc.armedIn.getD 0 ≤ s.dev.rd Reg.plnSwitchEpoch ∧ s.dev.flag (Reg.plnStatusValid s.dev.idleBank) = true ∧ s.agrees (s.hdrField s.dev.idleBank 8 2) .epcLen = true)
    ∧ (∃ (s : State), s.dev.flag (Reg.plnStatusValid s.dev.idleBank) = false)
    ∧ (∃ (s : State), s.dev.epc.armedIn = some s.dev.epoch ∧ s.dev.rd Reg.plnSwitchEpoch < s.dev.epoch) :=
  ⟨⟨st 4 [], 1, by decide⟩,
   ⟨st 4 [(Reg.plnStatusVerifying 1, 1)], 1, by decide⟩,
   ⟨st 4 [], 1, 511, [5], by decide⟩,
   ⟨st 4 [], 511, [5], by decide⟩,
   ⟨st 5 [(Reg.epcStatusRunning, 1), (Reg.plnCtrlArm, 1), (Reg.plnStatusValid 1, 1), (Reg.epcTime, 500), (Reg.epcLenLength, 25)] { epc := { inCairn := true } } [(.hdr, 512 + 8, [120])], by decide +kernel⟩,
   ⟨st 5 [], by decide⟩,
   ⟨st 5 [(Reg.epcNumber, 3), (Reg.plnSwitchEpoch, 2)] { epc := { armedIn := some 3 } }, by decide +kernel⟩⟩

def VecMeets (cmd : Nat → Hdr → VecopP → List Upset → Instr) (op : VecOp) : Prop :=
  ∃ (s : State) (c : Nat) (h : Hdr) (p : VecopP) (us : List Upset), MemorySafe s ∧ Accepted s (cmd c h p us) h (.vecop op p)

theorem meets_VecopElements :
    VecMeets .vecopAdd .vAdd ∧ VecMeets .vecopSub .vSub ∧ VecMeets .vecopMul .vMul ∧ VecMeets .vecopFma .vFma ∧ VecMeets .vecopFmas .vFmas ∧ VecMeets .vecopMax .vMax ∧ VecMeets .vecopMin .vMin ∧ VecMeets .vecopAnd .vAnd ∧ VecMeets .vecopOr .vOr ∧ VecMeets .vecopXor .vXor ∧ VecMeets .vecopShl .vShl ∧ VecMeets .vecopShra .vShra ∧ VecMeets .vecopAbs .vAbs ∧ VecMeets .vecopNeg .vNeg ∧ VecMeets .vecopBroadcast .vBroadcast ∧ VecMeets .vecopCmpgt .vCmpgt ∧ VecMeets .vecopSelect .vSelect :=
  ⟨⟨st 5 [], 255, hd 0, ⟨15, 15, 15, 0, 1, 1024, 0, 0⟩, [], safe_of (by decide), acc (by decide +kernel)⟩,
   ⟨st 5 [], 255, hd 0, ⟨15, 15, 15, 0, 1, 1024, 0, 0⟩, [], safe_of (by decide), acc (by decide +kernel)⟩,
   ⟨st 5 [], 255, hd 0, ⟨15, 15, 15, 0, 1, 1024, 0, 0⟩, [], safe_of (by decide), acc (by decide +kernel)⟩,
   ⟨st 5 [], 255, hd 0, ⟨15, 15, 15, 15, 1, 1024, 0, 0⟩, [], safe_of (by decide), acc (by decide +kernel)⟩,
   ⟨st 5 [], 255, hd 0, ⟨15, 15, 15, 0, 1, 1024, 3, 0⟩, [], safe_of (by decide), acc (by decide +kernel)⟩,
   ⟨st 5 [], 255, hd 0, ⟨15, 15, 15, 0, 1, 1024, 0, 0⟩, [], safe_of (by decide), acc (by decide +kernel)⟩,
   ⟨st 5 [], 255, hd 0, ⟨15, 15, 15, 0, 1, 1024, 0, 0⟩, [], safe_of (by decide), acc (by decide +kernel)⟩,
   ⟨st 5 [], 255, hd 0, ⟨15, 15, 15, 0, 1, 1024, 0, 0⟩, [], safe_of (by decide), acc (by decide +kernel)⟩,
   ⟨st 5 [], 255, hd 0, ⟨15, 15, 15, 0, 1, 1024, 0, 0⟩, [], safe_of (by decide), acc (by decide +kernel)⟩,
   ⟨st 5 [], 255, hd 0, ⟨15, 15, 15, 0, 1, 1024, 0, 0⟩, [], safe_of (by decide), acc (by decide +kernel)⟩,
   ⟨st 5 [], 255, hd 0, ⟨15, 15, 15, 0, 1, 1024, 0, 0⟩, [], safe_of (by decide), acc (by decide +kernel)⟩,
   ⟨st 5 [], 255, hd 0, ⟨15, 15, 15, 0, 1, 1024, 0, 0⟩, [], safe_of (by decide), acc (by decide +kernel)⟩,
   ⟨st 5 [], 255, hd 0, ⟨15, 15, 0, 0, 1, 1024, 0, 0⟩, [], safe_of (by decide), acc (by decide +kernel)⟩,
   ⟨st 5 [], 255, hd 0, ⟨15, 15, 0, 0, 1, 1024, 0, 0⟩, [], safe_of (by decide), acc (by decide +kernel)⟩,
   ⟨st 5 [], 255, hd 0, ⟨15, 0, 0, 0, 1, 1024, 3, 0⟩, [], safe_of (by decide), acc (by decide +kernel)⟩,
   ⟨st 5 [], 255, hd 0, ⟨15, 15, 15, 0, 1, 1024, 0, 0⟩, [], safe_of (by decide), acc (by decide +kernel)⟩,
   ⟨st 5 [], 255, hd 0, ⟨15, 15, 15, 15, 1, 1024, 0, 0⟩, [], safe_of (by decide), acc (by decide +kernel)⟩⟩

theorem meets_SaturationsAndNansAreCounted :
    (∃ (s : State) (c : Nat) (h : Hdr) (p : VecopP) (us : List Upset) (cmd : Nat → Hdr → VecopP → List Upset → Instr) (op : VecOp) (f : Int → Int → Int), ((cmd = .vecopAdd ∧ op = .vAdd ∧ f = (· + ·)) ∨ (cmd = .vecopSub ∧ op = .vSub ∧ f = (· - ·)) ∨ (cmd = .vecopMul ∧ op = .vMul ∧ f = (· * ·))) ∧ MemorySafe s ∧ Accepted s (cmd c h p us) h (.vecop op p) ∧ p.etype = 1)
    ∧ (∃ (s : State) (c : Nat) (h : Hdr) (p : VecopP) (us : List Upset), MemorySafe s ∧ Accepted s (.vecopAdd c h p us) h (.vecop .vAdd p) ∧ p.etype = 0) :=
  ⟨⟨st 5 [], 255, hd 0, ⟨15, 15, 15, 0, 1, 1024, 0, 0⟩, [], .vecopAdd, .vAdd, (· + ·), .inl ⟨rfl, rfl, rfl⟩, rfl, acc (by decide +kernel), rfl⟩,
   by refine ⟨st 5 [], 255, hd 0, ⟨15, 15, 15, 0, 0, 1024, 0, 0⟩, [], ?_, ?_, ?_⟩ <;> first | decide +kernel | exact ⟨by decide +kernel, by decide +kernel⟩ | exact acc (by decide +kernel) | exact ok_of (by decide +kernel) | exact safe_of (by decide +kernel) | exact rfl⟩

theorem meets_VecopReductionsAndTransfers :
    (∃ (s : State) (c : Nat) (h : Hdr) (p : VecopP) (us : List Upset), MemorySafe s ∧ Accepted s (.vecopSumr c h p us) h (.vecop .vSumr p))
    ∧ (∃ (s : State) (c : Nat) (h : Hdr) (p : VecopP) (us : List Upset), MemorySafe s ∧ Accepted s (.vecopMaxr c h p us) h (.vecop .vMaxr p))
    ∧ (∃ (s : State) (c : Nat) (h : Hdr) (p : VecopP) (us : List Upset), MemorySafe s ∧ Accepted s (.vecopMinr c h p us) h (.vecop .vMinr p))
    ∧ (∃ (s : State) (c : Nat) (h : Hdr) (p : VecopP) (us : List Upset), MemorySafe s ∧ Accepted s (.vecopLoad c h p us) h (.vecop .vLoad p))
    ∧ (∃ (s : State) (c : Nat) (h : Hdr) (p : VecopP) (us : List Upset), MemorySafe s ∧ Accepted s (.vecopStore c h p us) h (.vecop .vStore p) ∧ (bit p.addr 31 = true → us = [] ∧ Quiet s ∧ OnePlace s c p.addr (4 * p.count))) :=
  ⟨by refine ⟨st 5 [], 255, hd 0, ⟨15, 15, 0, 0, 1, 1024, 0, 0⟩, [], ?_, ?_⟩ <;> first | decide +kernel | exact ⟨by decide +kernel, by decide +kernel⟩ | exact acc (by decide +kernel) | exact ok_of (by decide +kernel) | exact safe_of (by decide +kernel) | exact rfl,
   by refine ⟨st 5 [], 255, hd 0, ⟨15, 15, 0, 0, 1, 1024, 0, 0⟩, [], ?_, ?_⟩ <;> first | decide +kernel | exact ⟨by decide +kernel, by decide +kernel⟩ | exact acc (by decide +kernel) | exact ok_of (by decide +kernel) | exact safe_of (by decide +kernel) | exact rfl,
   by refine ⟨st 5 [], 255, hd 0, ⟨15, 15, 0, 0, 1, 1024, 0, 0⟩, [], ?_, ?_⟩ <;> first | decide +kernel | exact ⟨by decide +kernel, by decide +kernel⟩ | exact acc (by decide +kernel) | exact ok_of (by decide +kernel) | exact safe_of (by decide +kernel) | exact rfl,
   by refine ⟨st 5 [], 255, hd 0, ⟨15, 0, 0, 0, 1, 1024, 0, 0x80000000⟩, [], ?_, ?_⟩ <;> first | decide +kernel | exact ⟨by decide +kernel, by decide +kernel⟩ | exact acc (by decide +kernel) | exact ok_of (by decide +kernel) | exact safe_of (by decide +kernel) | exact rfl,
   ⟨st 5 [], 255, hd 0, ⟨0, 15, 0, 0, 1, 1024, 0, 0x80000000⟩, [], rfl, acc (by decide +kernel), fun _ => ⟨rfl, rfl, onePlace (by decide +kernel) (by decide) (by decide)⟩⟩⟩

def ActMeets (cmd : Nat → Hdr → ActP → List Upset → Instr) (fn : ActFn) : Prop :=
  ∃ (s : State) (c : Nat) (h : Hdr) (p : ActP) (us : List Upset), MemorySafe s ∧ Accepted s (cmd c h p us) h (.activate fn p)

theorem meets_ActivateFunctions :
    ActMeets .activateRelu .relu ∧ ActMeets .activateClamp .clamp ∧ ActMeets .activateSign .sign ∧ ActMeets .activateGelu .gelu ∧ ActMeets .activateSilu .silu ∧ ActMeets .activateSigmoid .sigmoid ∧ ActMeets .activateTanh .tanh ∧ ActMeets .activateExp .exp ∧ ActMeets .activateRecip .recip ∧ ActMeets .activateRsqrt .rsqrt :=
  ⟨⟨st 5 [], 255, hd 0, ⟨15, 15, 1024, 0, 0⟩, [], safe_of (by decide), acc (by decide +kernel)⟩,
   ⟨st 5 [], 255, hd 0, ⟨15, 15, 1024, 0, 0⟩, [], safe_of (by decide), acc (by decide +kernel)⟩,
   ⟨st 5 [], 255, hd 0, ⟨15, 15, 1024, 0, 0⟩, [], safe_of (by decide), acc (by decide +kernel)⟩,
   ⟨st 5 [], 255, hd 0, ⟨15, 15, 1024, 0, 0⟩, [], safe_of (by decide), acc (by decide +kernel)⟩,
   ⟨st 5 [], 255, hd 0, ⟨15, 15, 1024, 0, 0⟩, [], safe_of (by decide), acc (by decide +kernel)⟩,
   ⟨st 5 [], 255, hd 0, ⟨15, 15, 1024, 0, 0⟩, [], safe_of (by decide), acc (by decide +kernel)⟩,
   ⟨st 5 [], 255, hd 0, ⟨15, 15, 1024, 0, 0⟩, [], safe_of (by decide), acc (by decide +kernel)⟩,
   ⟨st 5 [], 255, hd 0, ⟨15, 15, 1024, 0, 0⟩, [], safe_of (by decide), acc (by decide +kernel)⟩,
   ⟨st 5 [], 255, hd 0, ⟨15, 15, 1024, 0, 0⟩, [], safe_of (by decide), acc (by decide +kernel)⟩,
   ⟨st 5 [], 255, hd 0, ⟨15, 15, 1024, 0, 0⟩, [], safe_of (by decide), acc (by decide +kernel)⟩⟩

theorem meets_MatmulAndConvert :
    (∃ (s : State) (c : Nat) (h : Hdr) (p : MatmulP) (us : List Upset), MemorySafe s ∧ Accepted s (.matmul c h p us) h (.matmul p))
    ∧ (∃ (s : State) (c : Nat) (h : Hdr) (p : ConvertP) (us : List Upset), MemorySafe s ∧ Accepted s (.convert c h p us) h (.convert p) ∧ (s.dev.stepCtx c h).resume = [] ∧ 16 + 16 * ceilDiv p.count 4096 ≤ h.budget)
    ∧ (∃ (s : State) (c : Nat) (h : Hdr) (p : ConvertP) (us : List Upset), Accepted s (.convert c h p us) h (.convert p) ∧ h.sumpable = true ∧ (∀ f ∈ s.dev.seq.inflight, f.chamber ≠ c) ∧ (s.dev.sumpOf c).length < 4096 ∧ h.budget < 32 ∧ 4096 < p.count) :=
  ⟨by refine ⟨st 5 [], 255, hd 0, ⟨0, 64, 128, 1, 1, 1, 6, 6, 9, 0, 0, 0, 0x3F800000, 0⟩, [], ?_, ?_⟩ <;> first | decide +kernel | exact ⟨by decide +kernel, by decide +kernel⟩ | exact acc (by decide +kernel) | exact ok_of (by decide +kernel) | exact safe_of (by decide +kernel) | exact rfl,
   ⟨st 5 [], 255, ⟨0, 0, 32, 0, 0xFFFF, 0, 0, 0, 0⟩, ⟨9, 6, 1, 15, 0, 0, 1024, 0, 0, 0⟩, [], safe_of (by decide +kernel), acc (by decide +kernel), by decide +kernel, by decide +kernel⟩,
   ⟨st 5 [], 255, hds 0, ⟨9, 6, 0, 0, 0, 0x2000, 4097, 0, 0, 0⟩, [], acc (by decide +kernel), by decide +kernel, by decide +kernel, by decide +kernel, by decide +kernel, by decide +kernel⟩⟩

theorem meets_LookupSteps :
    (∃ (s : State) (c : Nat) (h : Hdr) (p : BuildP) (us : List Upset), Accepted s (.lookupBuild c h p us) h (.build p) ∧ (let r := s.upsets c h.index us; (let b := (r.devRead (columnBase c + p.quantAddr) 64).1; (let q := quantParse b; (quantField (columnBase c + p.quantAddr) b = none ∧ quantTest q p (words32 (r.devRead (columnBase c + q.scaleAddr) (4 * q.d)).1) = none)))))
    ∧ (∃ (s : State) (c : Nat) (h : Hdr) (p : BuildP) (us : List Upset), Accepted s (.lookupBuild c h p us) h (.build p) ∧ (let r := s.upsets c h.index us; (let b := (r.devRead (columnBase c + p.quantAddr) 64).1; (quantField (columnBase c + p.quantAddr) b).isSome = true)))
    ∧ (∃ (s : State) (c : Nat) (h : Hdr) (p : ScoreP) (us : List Upset) (e : LutEntry), MemorySafe s ∧ Accepted s (.lookupScore c h p us) h (.score p) ∧ s.dev.table c p.tid = some e)
    ∧ (∃ (s : State) (c : Nat) (h : Hdr) (p : ScoreP) (us : List Upset), Accepted s (.lookupScore c h p us) h (.score p) ∧ s.dev.table c p.tid = none)
    ∧ (∃ (s : State) (c : Nat) (h : Hdr) (p : SaveP) (e : LutEntry), MemorySafe s ∧ Quiet s ∧ Accepted s (.lookupSave c h p []) h (.save p) ∧ s.dev.table c p.tid = some e ∧ p.imgAddr + 64 + e.bytes ≤ columnEnd ∧ OnePlace s c (2 ^ 31 + p.imgAddr) (64 + e.bytes))
    ∧ (∃ (s : State) (c : Nat) (h : Hdr) (p : LoadP) (us : List Upset) (e : LutEntry), Accepted s (.lookupLoad c h p us) h (.load p) ∧ (let r := s.upsets c h.index us; (let a := columnBase c + p.imgAddr; (let head := (r.devRead a 64).1; imageEntry head p.pageFirst = some e ∧ fieldAt head 60 4 = Crypto.check32c a (head.take 60 ++ (r.devRead (a + 64) e.bytes).1))))) :=
  ⟨by refine ⟨st 5 [] {} (quantAt (columnBase 255)), 255, hd 0, ⟨63, 1, 0, 8, 1, 0, 0, 0⟩, [], ?_, ?_⟩ <;> first | decide +kernel | exact ⟨by decide +kernel, by decide +kernel⟩ | exact acc (by decide +kernel) | exact ok_of (by decide +kernel) | exact safe_of (by decide +kernel) | exact rfl,
   by refine ⟨st 5 [], 255, hd 0, ⟨63, 1, 0, 8, 1, 0, 0, 0⟩, [], ?_, ?_⟩ <;> first | decide +kernel | exact ⟨by decide +kernel, by decide +kernel⟩ | exact acc (by decide +kernel) | exact ok_of (by decide +kernel) | exact safe_of (by decide +kernel) | exact rfl,
   by refine ⟨st 5 [] { lutDir := [(255 * 64 + 63, lutEntry)] }, 255, hd 0, ⟨63, 0x80000000, 64, 0, 1, 0⟩, [], lutEntry, ?_, ?_, ?_⟩ <;> first | decide +kernel | exact ⟨by decide +kernel, by decide +kernel⟩ | exact acc (by decide +kernel) | exact ok_of (by decide +kernel) | exact safe_of (by decide +kernel) | exact rfl,
   by refine ⟨st 5 [], 255, hd 0, ⟨63, 0x80000000, 64, 0, 1, 0⟩, [], ?_, ?_⟩ <;> first | decide +kernel | exact ⟨by decide +kernel, by decide +kernel⟩ | exact acc (by decide +kernel) | exact ok_of (by decide +kernel) | exact safe_of (by decide +kernel) | exact rfl,
   ⟨st 5 [] { lutDir := [(255 * 64 + 63, lutEntry)] }, 255, hd 0, ⟨63, 0⟩, lutEntry, rfl, rfl, acc (by decide +kernel), rfl, by decide, onePlace (by decide +kernel) (by decide) (by decide)⟩,
   by refine ⟨st 5 [] {} (imageAt (columnBase 255)), 255, hd 0, ⟨63, 63, 0⟩, [], lutEntry, ?_, ?_, ?_⟩ <;> first | decide +kernel | exact ⟨by decide +kernel, by decide +kernel⟩ | exact acc (by decide +kernel) | exact ok_of (by decide +kernel) | exact safe_of (by decide +kernel) | exact rfl⟩

theorem meets_ScanWritesRecordsAndRuns :
    (∃ (s : State) (c : Nat) (h : Hdr) (p : ScanP) (m : Probe) (e : LutEntry) (hd : ListHead) (dirty : Bool), MemorySafe s ∧ Quiet s ∧ Accepted s (.scan c h p []) h (.scan p) ∧ (s.dev.stepCtx c h).resume = [] ∧ p.probeFirst = 0 ∧ p.parts = 2 ∧ (let x := s.dev.stepCtx c h; (let hb := (s.devRead (columnBase c + p.probeAddr) 16).1; let hbad := (s.devRead (columnBase c + p.probeAddr) 16).2; fieldAt hb 0 4 = 1 ∧ fieldAt hb 4 4 = 0 ∧ p.probeAddr + 32 ≤ columnEnd ∧ readProbes s x p hbad 0 1 none = .ok [m] ∧ m.filtered = false ∧ s.dev.table c m.tid = some e ∧ e.fmt = p.fmt ∧ e.metric = p.metric ∧ (s.readHead m.list = .ok (hd, dirty)) ∧ hd.tenant = m.tenant ∧ 0 < sideCount hd ∧ sideCount hd ≤ p.recCap)))
    ∧ (∃ (s : State) (c : Nat) (h : Hdr) (p : ScanP) (us : List Upset), Accepted s (.scan c h p us) h (.scan p) ∧ fieldAt ((s.upsets c h.index us).devRead (columnBase c + p.probeAddr) 16).1 4 4 ≠ 0) :=
  ⟨by refine ⟨st 5 idxRegs { lutDir := [(255 * 64 + 63, lutEntry)] } (listAt listHead ++ [(.hdr, 16, [1]), (.dram, columnBase 255, [1]), (.dram, columnBase 255 + 22, [63])]), 255, hds 0, ⟨0, 0, 1, 0xA, 0, 1, 2, 0, 1, 16, 1, 16⟩, ⟨0, 0, 0, 63, false, false, 0, 0, false, none, none, true⟩, lutEntry, listHead, false, ?_, ?_, ?_, ?_, ?_, ?_, ?_, ?_, ?_, ?_, ?_, ?_, ?_, ?_, ?_, ?_, ?_, ?_⟩ <;> first | decide +kernel | exact ⟨by decide +kernel, by decide +kernel⟩ | exact acc (by decide +kernel) | exact ok_of (by decide +kernel) | exact safe_of (by decide +kernel) | exact rfl,
   by refine ⟨st 5 [] {} [(.dram, columnBase 255 + 4, [1])], 255, hds 0, ⟨0, 0, 1, 0xA, 0, 1, 2, 0, 1, 16, 1, 16⟩, [], ?_, ?_⟩ <;> first | decide +kernel | exact ⟨by decide +kernel, by decide +kernel⟩ | exact acc (by decide +kernel) | exact ok_of (by decide +kernel) | exact safe_of (by decide +kernel) | exact rfl⟩

theorem meets_SelectAndMergeFormLists :
    (∃ (s : State) (c : Nat) (h : Hdr) (p : SelectP) (us : List Upset), MemorySafe s ∧ Accepted s (.selectRecords c h p us) h (.selectRecords p) ∧ (s.dev.stepCtx c h).resume = [] ∧ bit p.outAddr 31 = false)
    ∧ (∃ (s : State) (c : Nat) (h : Hdr) (p : SelectP) (us : List Upset) (gs : List Group) (missed : Bool), MemorySafe s ∧ Accepted s (.selectRuns c h p us) h (.selectRuns p) ∧ (s.dev.stepCtx c h).resume = [] ∧ bit p.outAddr 31 = false ∧ (let r := s.upsets c h.index us; (let probe := columnBase c + p.probeAddr; (takeRuns p (fieldAt (r.devRead probe 16).1 0 4) (fun i => r.devNat (probe + 20 + 16 * i) 2) (chunks 16 (r.locRead c (.store p.runAddr) (16 * p.runCount)).1) 0 ([], false) = .ok (gs, missed)))))
    ∧ (∃ (s : State) (c : Nat) (h : Hdr) (p : MergeP) (us : List Upset), MemorySafe s ∧ Accepted s (.merge c h p us) h (.merge p) ∧ (s.dev.stepCtx c h).resume = [] ∧ p.qcount = 1 ∧ bit p.outAddr 31 = false ∧ (let r := s.upsets c h.index us; (let tab := (r.locRead c (.store p.tableAddr) (8 * p.nin)).1; (let es := (List.range p.nin).map fun i => (readEntry p (s.dev.stepCtx c h) ((tab.drop (8 * i)).take 8) i r).2; (let ins := es.filterMap fun e => match e with | .present i => some i | _ => none; (ins.map (·.n)).sum ≤ p.scratchCap))))) :=
  ⟨by refine ⟨st 5 [], 255, hd 0, ⟨1, 0, 1, 0, 0, 0, 64, 1, 16⟩, [], ?_, ?_, ?_, ?_⟩ <;> first | decide +kernel | exact ⟨by decide +kernel, by decide +kernel⟩ | exact acc (by decide +kernel) | exact ok_of (by decide +kernel) | exact safe_of (by decide +kernel) | exact rfl,
   by refine ⟨st 5 [] {} [(.dram, columnBase 255, [1]), (.store, 255 * 0x200000 + 128 + 8, [1])], 255, hd 0, ⟨1, 0, 1, 128, 1, 0, 192, 1, 16⟩, [], [⟨0, [(0, false)]⟩], false, ?_, ?_, ?_, ?_, ?_⟩ <;> first | decide +kernel | exact ⟨by decide +kernel, by decide +kernel⟩ | exact acc (by decide +kernel) | exact ok_of (by decide +kernel) | exact safe_of (by decide +kernel) | exact rfl,
   by refine ⟨st 5 [], 255, hd 0, ⟨1, 0, 64, 1, 1, 256, 1⟩, [], ?_, ?_, ?_, ?_, ?_, ?_⟩ <;> first | decide +kernel | exact ⟨by decide +kernel, by decide +kernel⟩ | exact acc (by decide +kernel) | exact ok_of (by decide +kernel) | exact safe_of (by decide +kernel) | exact rfl⟩

theorem meets_BadStepsAreReportedOnly :
    ∃ (s : State) (i : Instr) (c : Nat) (h : Hdr) (p : Params), MemorySafe s ∧ Quiet s ∧ (stepOf i = some (c, h, p)) ∧ ((256 ≤ c) ∨ stepOk ⟨h, p⟩ = false) :=
  ⟨st 5 [], .vecopAdd 256 (hd 0) ⟨0, 0, 0, 0, 0, 1, 0, 0⟩ [], 256, hd 0, .vecop .vAdd ⟨0, 0, 0, 0, 0, 1, 0, 0⟩, rfl, rfl, rfl, .inl (by decide)⟩

theorem meets_GatherReadsOneRow :
    (∃ (s : State) (c : Nat) (h : Hdr) (p : GatherP) (us : List Upset) (cmd : Nat → Hdr → GatherP → List Upset → Instr) (op : GatherOp) (tb : RowTable), ((cmd = .gatherFetch ∧ op = .fetch) ∨ (cmd = .gatherSplit ∧ op = .split)) ∧ MemorySafe s ∧ Accepted s (cmd c h p us) h (.gather op p) ∧ (s.dev.stepCtx c h).resume = [] ∧ p.count = 1 ∧ p.mode = 0 ∧ bit p.outAddr 31 = false ∧ bit p.statusAddr 31 = false ∧ (let r := s.upsets c h.index us; r.tableFor p.table h.tenant p.rowUnits = .ok tb ∧ (let v := leNat (r.locRead c (locOf c p.idxAddr) 8).1; v = padIndex)))
    ∧ (∃ (s : State) (c : Nat) (h : Hdr) (p : GatherP) (us : List Upset) (cmd : Nat → Hdr → GatherP → List Upset → Instr) (op : GatherOp) (tb : RowTable), ((cmd = .gatherFetch ∧ op = .fetch) ∨ (cmd = .gatherSplit ∧ op = .split)) ∧ MemorySafe s ∧ Accepted s (cmd c h p us) h (.gather op p) ∧ (s.dev.stepCtx c h).resume = [] ∧ p.count = 1 ∧ p.mode = 0 ∧ bit p.outAddr 31 = false ∧ bit p.statusAddr 31 = false ∧ (let r := s.upsets c h.index us; r.tableFor p.table h.tenant p.rowUnits = .ok tb ∧ (let v := leNat (r.locRead c (locOf c p.idxAddr) 8).1; v ≠ padIndex ∧ localRow tb v = none)))
    ∧ (∃ (s : State) (c : Nat) (h : Hdr) (p : GatherP) (us : List Upset) (cmd : Nat → Hdr → GatherP → List Upset → Instr) (op : GatherOp) (tb : RowTable), ((cmd = .gatherFetch ∧ op = .fetch) ∨ (cmd = .gatherSplit ∧ op = .split)) ∧ MemorySafe s ∧ Accepted s (cmd c h p us) h (.gather op p) ∧ (s.dev.stepCtx c h).resume = [] ∧ p.count = 1 ∧ p.mode = 0 ∧ bit p.outAddr 31 = false ∧ bit p.statusAddr 31 = false ∧ (let r := s.upsets c h.index us; r.tableFor p.table h.tenant p.rowUnits = .ok tb ∧ (let v := leNat (r.locRead c (locOf c p.idxAddr) 8).1; (let snap := r.devNat (columnBase c + p.snapAddr) 8; ∃ a, (rowRead r tb (minesOf r (s.dev.stepCtx c h).cohort) v (snap % 2 ^ 32) = (rsFound, some (.home a))))))) :=
  ⟨⟨st 5 rowRegs {} (rowDesc 1 ++ [(.store, 255 * 0x200000, leBytes 8 padIndex)]), 255, hds 0, ⟨0, 0, 0, 1, 64, 0, 128, 1, 0, 0, 1, 0⟩, [], .gatherFetch, .fetch, rowTab (st 5 rowRegs {} (rowDesc 1 ++ [(.store, 255 * 0x200000, leBytes 8 padIndex)])), .inl ⟨rfl, rfl⟩, safe_of (by decide +kernel), acc (by decide +kernel), by decide +kernel, rfl, rfl, rfl, rfl, ok_of (by decide +kernel), by decide +kernel⟩,
   ⟨st 5 rowRegs {} (rowDesc 1 ++ [(.store, 255 * 0x200000, leBytes 8 9)]), 255, hds 0, ⟨0, 0, 0, 1, 64, 0, 128, 1, 0, 0, 1, 0⟩, [], .gatherFetch, .fetch, rowTab (st 5 rowRegs {} (rowDesc 1 ++ [(.store, 255 * 0x200000, leBytes 8 9)])), .inl ⟨rfl, rfl⟩, safe_of (by decide +kernel), acc (by decide +kernel), by decide +kernel, rfl, rfl, rfl, rfl, ok_of (by decide +kernel), ⟨by decide +kernel, by decide +kernel⟩⟩,
   ⟨st 5 rowRegs {} (rowDesc 1 ++ [(.store, 255 * 0x200000, leBytes 8 2)]), 255, hds 0, ⟨0, 0, 0, 1, 64, 0, 128, 1, 0, 0, 1, 0⟩, [], .gatherFetch, .fetch, rowTab (st 5 rowRegs {} (rowDesc 1 ++ [(.store, 255 * 0x200000, leBytes 8 2)])), .inl ⟨rfl, rfl⟩, safe_of (by decide +kernel), acc (by decide +kernel), by decide +kernel, rfl, rfl, rfl, rfl, ok_of (by decide +kernel), 0x10080, by decide +kernel⟩⟩

theorem meets_ServeFillAndScatter :
    (∃ (s : State) (c : Nat) (h : Hdr) (p : GatherP) (us : List Upset) (tb : RowTable) (m : SiphonIn), MemorySafe s ∧ Accepted s (.gatherServe c h p us) h (.gather .serve p) ∧ (let r := s.upsets c h.index us; r.tableFor p.table h.tenant p.rowUnits = .ok tb ∧ r.inboxAt c p.idxAddr = some m ∧ (let b := (r.locRead c (locOf c p.idxAddr) 32).1; (let n := fieldAt b 4 2; (let body := (r.locRead c ((locOf c p.idxAddr).plus 32) (8 * n)).1; m.complete = true ∧ batchField 1 p.table p.rowUnits m.seq b body = none ∧ bit p.outAddr 31 = false ∧ bits p.outAddr 0 26 + 32 + roundUp n 64 + n * tb.rowBytes ≤ 0x4000000)))))
    ∧ (∃ (s : State) (c : Nat) (h : Hdr) (p : GatherP) (us : List Upset) (tb : RowTable) (m : SiphonIn), MemorySafe s ∧ Accepted s (.gatherServe c h p us) h (.gather .serve p) ∧ (let r := s.upsets c h.index us; r.tableFor p.table h.tenant p.rowUnits = .ok tb ∧ r.inboxAt c p.idxAddr = some m ∧ m.complete = false))
    ∧ (∃ (s : State) (c : Nat) (h : Hdr) (p : GatherP) (us : List Upset) (tb : RowTable) (m : SiphonIn) (q : SplitBatch), MemorySafe s ∧ Accepted s (.gatherFill c h p us) h (.gather .fill p) ∧ (let r := s.upsets c h.index us; (let box := locOf c (2 ^ 31 + p.boxAddr); (let b := (r.locRead c box 32).1; (let n := fieldAt b 4 2; (let body := (r.locRead c (box.plus 32) (roundUp n 64 + n * tb.rowBytes)).1; r.tableFor p.table h.tenant p.rowUnits = .ok tb ∧ r.inboxAt c (2 ^ 31 + p.boxAddr) = some m ∧ m.complete = true ∧ gatherCost p.count 0 (p.count * (tb.rowBytes + 1)) tb.rowBytes ≤ h.budget ∧ batchField 2 p.table p.rowUnits m.seq b body = none ∧ q ∈ r.dev.rows.splits ∧ q.chamber = c ∧ q.table = p.table ∧ q.idxAddr = p.idxAddr ∧ q.outAddr = p.outAddr ∧ q.statusAddr = p.statusAddr ∧ q.owner = m.peer ∧ q.round = fieldAt b 2 1 ∧ n = q.indices.length ∧ (∀ q' ∈ r.dev.rows.splits, q'.chamber = c → q'.table = p.table → q'.idxAddr = p.idxAddr → q'.owner = m.peer → q'.round = q.round → q' = q)))))))
    ∧ (∃ (s : State) (c : Nat) (h : Hdr) (p : ScatterP) (tb : RowTable) (row k : Nat), MemorySafe s ∧ Quiet s ∧ Accepted s (.scatter c h p []) h (.scatter p) ∧ s.tableFor p.table h.tenant p.rowUnits = .ok tb ∧ tb.mutable' = true ∧ p.count = 1 ∧ (let v := leNat (s.locRead c (locOf c p.idxAddr) 8).1; (let commit := ((s.dev.stepCtx c h).cohort + 2) % 2 ^ 32; v ≠ padIndex ∧ (localRow tb v = some (row, none)) ∧ (∀ e ∈ s.dev.rows.staged, ¬ (e.table = tb.t ∧ e.row = row ∧ e.commit = commit)) ∧ (s.bucketEntries tb (rowBucket row tb.rdrLog)).countP (·.used) + (s.dev.rows.staged.countP fun e => e.table = tb.t && rowBucket e.row tb.rdrLog = rowBucket row tb.rdrLog) < 8 ∧ State.inTier (State.redirectAddr tb (rowBucket row tb.rdrLog) 0) 128 = true ∧ s.dev.freeSpill tb = some k ∧ State.inTier (State.spillAddr tb k) tb.rowBytes = true ∧ PlainAt s (State.spillAddr tb k) tb.rowBytes))) :=
  ⟨⟨st 5 rowRegs { rows := { inbox := [⟨255, 0, 3, 7, true⟩] } } (rowDesc 1 ++ [(.store, 255 * 0x200000, siphonBatch 1 7 (leBytes 8 2))]), 255, hds 0, ⟨0, 0, 0, 1, 1024, 0, 0, 1, 0, 0, 1, 0⟩, [], rowTab (st 5 rowRegs { rows := { inbox := [⟨255, 0, 3, 7, true⟩] } } (rowDesc 1 ++ [(.store, 255 * 0x200000, siphonBatch 1 7 (leBytes 8 2))])), ⟨255, 0, 3, 7, true⟩, safe_of (by decide +kernel), acc (by decide +kernel), ok_of (by decide +kernel), by decide +kernel, rfl, by decide +kernel, rfl, by decide +kernel⟩,
   ⟨st 5 rowRegs { rows := { inbox := [⟨255, 0, 3, 7, false⟩] } } (rowDesc 1 ++ [(.store, 255 * 0x200000, siphonBatch 1 7 (leBytes 8 2))]), 255, hds 0, ⟨0, 0, 0, 1, 1024, 0, 0, 1, 0, 0, 1, 0⟩, [], rowTab (st 5 rowRegs { rows := { inbox := [⟨255, 0, 3, 7, false⟩] } } (rowDesc 1 ++ [(.store, 255 * 0x200000, siphonBatch 1 7 (leBytes 8 2))])), ⟨255, 0, 3, 7, false⟩, safe_of (by decide +kernel), acc (by decide +kernel), ok_of (by decide +kernel), by decide +kernel, rfl⟩,
   ⟨st 5 rowRegs { rows := { inbox := [⟨255, 2 ^ 31 + 4096, 3, 7, true⟩], splits := [⟨255, 0, 0, 1024, 2048, 3, 0, [2]⟩] } } (rowDesc 1 ++ [(.dram, columnBase 255 + 4096, siphonBatch 2 7 (padTo 128 [0]))]), 255, ⟨1, 0, 1000, 0, 0xFFFF, 0, 0, 0, 1⟩, ⟨0, 0, 0, 1, 1024, 0, 2048, 1, 4096, 0, 1, 0⟩, [], rowTab (st 5 rowRegs { rows := { inbox := [⟨255, 2 ^ 31 + 4096, 3, 7, true⟩], splits := [⟨255, 0, 0, 1024, 2048, 3, 0, [2]⟩] } } (rowDesc 1 ++ [(.dram, columnBase 255 + 4096, siphonBatch 2 7 (padTo 128 [0]))])), ⟨255, 2 ^ 31 + 4096, 3, 7, true⟩, ⟨255, 0, 0, 1024, 2048, 3, 0, [2]⟩, safe_of (by decide +kernel), acc (by decide +kernel), ok_of (by decide +kernel), by decide +kernel, rfl, by decide +kernel, by decide +kernel, .head _, rfl, rfl, rfl, rfl, rfl, rfl, by decide +kernel, by decide +kernel, fun q hq _ _ _ _ _ => List.mem_singleton.mp hq⟩,
   ⟨st 5 rowRegs {} (rowDesc 3 ++ [(.store, 255 * 0x200000, leBytes 8 2)]), 255, hd 0, ⟨0, 0, 1, 64, 8, 1⟩, rowTab (st 5 rowRegs {} (rowDesc 3 ++ [(.store, 255 * 0x200000, leBytes 8 2)])), 2, 0, safe_of (by decide +kernel), quiet_of (by decide +kernel), acc (by decide +kernel), ok_of (by decide +kernel), by decide +kernel, rfl, by decide +kernel, by decide +kernel, fun e he => absurd he (by rw [show (st 5 rowRegs {} _).dev.rows.staged = [] by decide +kernel]; exact List.not_mem_nil), by decide +kernel, by decide +kernel, by decide +kernel, by decide +kernel, plainAt (by decide +kernel) (by decide +kernel) (by decide +kernel)⟩⟩

theorem meets_TransfersBetweenChambers :
    (∃ (s : State) (c : Nat) (h : Hdr) (p : SendP) (us : List Upset), Accepted s (.send c h p us) h (.send p) ∧ (p.kind = tySiphon → (c, p.srcAddr) ∉ s.dev.rows.noReply) ∧ (p.kind = tyPlan → p.peer ≠ galleryPeer → (s.dev.stepCtx c h).cohort ∉ s.dev.seq.missing))
    ∧ (∃ (s : State) (c : Nat) (h : Hdr) (p : RecvP) (us : List Upset), Accepted s (.recv c h p us) h (.recv p))
    ∧ (∃ (s : State) (c idx : Nat) (q : RecvSt) (n : Nat), MemorySafe s ∧ c < 256 ∧ s.recvSt c idx = some q ∧ q.completed = false ∧ q.lost = false ∧ q.total = some n ∧ coveredBytes q.got = n ∧ q.p.entryAddr = 0 ∧ q.p.resultAddr + 16 ≤ 0x200000) :=
  ⟨⟨st 5 [], 255, hd 0, ⟨1, 0, 0xFFFF, 255, 0, 1⟩, [], acc (by decide +kernel), fun _ => by decide +kernel, fun _ h => absurd rfl h⟩,
   ⟨st 5 [], 255, hd 0, ⟨1, 0, 0xFFFF, 255, 0, 1, 64, 0⟩, [], acc (by decide +kernel)⟩,
   by refine ⟨st 5 [] { fab := { recvs := [⟨255, 0, 1, 2, ⟨1, 0, 0xFFFF, 255, 0, 1, 64, 0⟩, some 1, [(0, 1)], false, false, 0, false⟩] } }, 255, 0, ⟨255, 0, 1, 2, ⟨1, 0, 0xFFFF, 255, 0, 1, 64, 0⟩, some 1, [(0, 1)], false, false, 0, false⟩, 1, ?_, ?_, ?_, ?_, ?_, ?_, ?_, ?_, ?_⟩ <;> first | decide +kernel | exact ⟨by decide +kernel, by decide +kernel⟩ | exact acc (by decide +kernel) | exact ok_of (by decide +kernel) | exact safe_of (by decide +kernel) | exact rfl⟩

theorem meets_StackPrograms :
    (∃ (s : State) (c : Nat) (h : Hdr) (p : PimRunP) (us : List Upset), Accepted s (.pimRun c h p us) h (.pimRun p) ∧ s.dev.running = true ∧ s.dev.runWaits c h p = false ∧ (s.dev.stepCtx c h).resume = [] ∧ (let r := s.upsets c h.index us; (let prog := (r.devRead (columnBase c + p.progAddr) 1024).1; let poison := (r.devRead (columnBase c + p.progAddr) 1024).2; (let rows := [p.row0, p.row1, p.row2, p.row3]; r.dev.on (Reg.stkCtrlPimEn p.stack) = true ∧ programBad (columnBase c + p.progAddr) prog poison = none ∧ (∀ k ∈ pimOperands prog, pimEnd prog rows p.count k ≤ 0x6000000) ∧ modeBad r.dev p.stack prog rows p.count = none ∧ (r.dev.pim.queue.filter (·.stack = p.stack)).length < 16 ∧ s.dev.pim.held.any (·.stack = p.stack) = false))))
    ∧ (∃ (s : State) (st : Nat) (q : PimRun), st < 12 ∧ s.dev.running = true ∧ s.dev.pim.held.find? (·.stack = st) = some q ∧ (s.dev.pim.queue.filter (·.stack = st)).length < 16)
    ∧ (∃ (s : State) (st die groups rate : Nat) (q : PimRun), st < 12 ∧ die < 16 ∧ s.dev.running = true ∧ s.dev.dieRun st die = some q ∧ (s.dev.pim.chunks.find? (·.1 = st * 16 + die) = some (st * 16 + die, rate)) ∧ (let n := min groups (min (chunkGroups q.prog rate) (q.until' - assocD q.until' die q.next)); 0 < n))
    ∧ (∃ (s : State) (c : Nat) (h : Hdr) (p : PimSealP) (k : Nat), Accepted s (.pimSeal c h p []) h (.pimSeal p) ∧ s.dev.running = true ∧ (s.dev.stepCtx c h).resume = [] ∧ (unitsNow h 64 2048 p.rowCount = p.rowCount ∨ (h.sumpable = true ∧ (s.dev.sumpOf c).length < 4096)) ∧ s.dev.on (Reg.stkCtrlPimEn p.stack) = true ∧ p.rowFirst ≤ k ∧ k < p.rowFirst + p.rowCount ∧ s.dev.stripeMode p.stack k = 1 ∧ (∀ i, i < 16384 → s.devPoison (0x1000000000 + p.stack * 0xC00000000 + k * 0x100000 + 64 * i) 64 = false))
    ∧ (∃ (s : State) (st k w : Nat) (m : SealMark), st < 12 ∧ k < 49152 ∧ s.dev.epc.inCairn = true ∧ m ∈ s.dev.pim.seals ∧ m.stack = st ∧ m.stripe = k ∧ m.written = some w ∧ w < s.dev.epoch)
    ∧ (∃ (st die : Nat), st < 12 ∧ die < 16)
    ∧ (∃ (st die : Nat) (temp : Int), st < 12 ∧ die < 16 ∧ -128 ≤ temp ∧ temp < 128)
    ∧ (∃ (st j v : Nat), st < 12 ∧ j < 3072 ∧ v < 2 ^ 32) :=
  ⟨by refine ⟨st 5 [(Reg.stkCtrlPimEn 11, 1), (Reg.stkMode 11 0, 1), (Reg.epcStatusRunning, 1)] {} [(.dram, columnBase 255, pimProg)], 255, hd 0, ⟨11, 0, 1, 1, 1, 0, 0, 0, 0⟩, [], ?_, ?_, ?_, ?_, ?_, ?_, ?_, ?_, ?_, ?_⟩ <;> first | decide +kernel | exact ⟨by decide +kernel, by decide +kernel⟩ | exact acc (by decide +kernel) | exact ok_of (by decide +kernel) | exact safe_of (by decide +kernel) | exact rfl,
   by refine ⟨st 5 [(Reg.epcStatusRunning, 1)] { pim := { held := [pimRun0] } }, 0, pimRun0, ?_, ?_, ?_, ?_⟩ <;> first | decide +kernel | exact ⟨by decide +kernel, by decide +kernel⟩ | exact acc (by decide +kernel) | exact ok_of (by decide +kernel) | exact safe_of (by decide +kernel) | exact rfl,
   ⟨st 5 [(Reg.epcStatusRunning, 1)] { pim := { queue := [pimRun0], chunks := [(0, 0)] } }, 0, 0, 1, 0, pimRun0, by decide, by decide, by decide +kernel, by decide +kernel, by decide +kernel, by decide +kernel⟩,
   ⟨st 5 [(Reg.stkCtrlPimEn 11, 1), (Reg.stkMode 11 0, 1), (Reg.epcStatusRunning, 1)] {}, 255, ⟨0, 0, 2112, 0, 0xFFFF, 0, 0, 0, 0⟩, ⟨11, 0, 1⟩, 0, acc (by decide +kernel), by decide +kernel, by decide +kernel, .inl (by decide +kernel), by decide +kernel, by decide, by decide, by decide +kernel, fun i _ => by
    simp only [State.devPoison, Mem.isPoisoned, show (st 5 [(Reg.stkCtrlPimEn 11, 1), (Reg.stkMode 11 0, 1), (Reg.epcStatusRunning, 1)]).mem.poison = [] by decide +kernel, show (st 5 [(Reg.stkCtrlPimEn 11, 1), (Reg.stkMode 11 0, 1), (Reg.epcStatusRunning, 1)]).dev.tier.badMap = [] by decide +kernel]; simp⟩,
   ⟨st 5 [(Reg.epcNumber, 1)] { epc := { inCairn := true }, pim := { seals := [⟨0, 0, 0, 0, 0, some 0⟩] } }, 0, 0, 0, ⟨0, 0, 0, 0, 0, some 0⟩, by decide, by decide, by decide +kernel, .head _, rfl, rfl, rfl, by decide +kernel⟩,
   ⟨11, 15, by decide, by decide⟩,
   ⟨11, 15, -128, by decide, by decide, by decide, by decide⟩,
   ⟨11, 3071, 0xFFFFFFFF, by decide, by decide, by decide⟩⟩

theorem meets_FlashStepsAndCompletions :
    (∃ (s : State) (c : Nat) (h : Hdr) (p : FlashReadP) (us : List Upset), Accepted s (.flashread c h p us) h (.flashRead p) ∧ (s.dev.stepCtx c h).resume = [] ∧ (let r := s.upsets c h.index us; (let es := (chunks 16 (r.locRead c (locOf c p.listAddr) (16 * p.count)).1).map extentParse; (∀ e ∈ es, extentStatus r h.tenant p.dstCap e = 0))))
    ∧ (∃ (s : State) (c : Nat) (h : Hdr) (p : FlashWriteP) (us : List Upset), Accepted s (.flashwrite c h p us) h (.flashWrite p) ∧ (s.dev.stepCtx c h).resume = [] ∧ p.page + p.pages ≤ s.dev.lbPages ∧ writeReason (s.upsets c h.index us) h.tenant p = none)
    ∧ (∃ (s : State) (k : Nat) (q : FlashRead), s.dev.fls.reads[k]? = some q ∧ (∀ g ∈ s.dev.fls.progs, g.lbn ≠ q.lbn) ∧ 0 < q.len)
    ∧ (∃ (s u : State) (k : Nat) (ok : Bool) (q : FlashProg), s.dev.fls.progs[k]? = some q ∧ (∀ g ∈ s.dev.fls.progs, g.before q = false) ∧ s.writePage q.lbn q.page q.data q.poison ok = some u)
    ∧ (∃ (s : State) (ch pb : Nat), ch < 32 ∧ pb < 2 ^ 20 ∧ ((ch, pb) ∈ s.dev.fls.erases) ∧ (s.dev.on Reg.flsCtrlBgEn = true ∨ (s.blocksIn ch bFree).length < s.dev.val Reg.flsGcGcLow)) :=
  ⟨by refine ⟨st 5 (flashRegs 1) {} (mapData ++ [(.store, 255 * 0x200000, leBytes 8 0 ++ leBytes 8 1)]), 255, hd 0, ⟨0, 0, 1, 64, 1, 128⟩, [], ?_, ?_, ?_⟩ <;> first | decide +kernel | exact ⟨by decide +kernel, by decide +kernel⟩ | exact acc (by decide +kernel) | exact ok_of (by decide +kernel) | exact safe_of (by decide +kernel) | exact rfl,
   by refine ⟨st 5 (flashRegs 1) {} (mapData), 255, hd 0, ⟨64, 0, 0, 1⟩, [], ?_, ?_, ?_, ?_⟩ <;> first | decide +kernel | exact ⟨by decide +kernel, by decide +kernel⟩ | exact acc (by decide +kernel) | exact ok_of (by decide +kernel) | exact safe_of (by decide +kernel) | exact rfl,
   by refine ⟨st 5 (flashRegs 1) { fls := { reads := [⟨0, 0, 1, 0, 0, 0, 0, 1, [0], [64], false, 0, 0, false, false, false, []⟩] } } (mapData), 0, ⟨0, 0, 1, 0, 0, 0, 0, 1, [0], [64], false, 0, 0, false, false, false, []⟩, ?_, ?_, ?_⟩ <;> first | decide +kernel | exact ⟨by decide +kernel, by decide +kernel⟩ | exact acc (by decide +kernel) | exact ok_of (by decide +kernel) | exact safe_of (by decide +kernel) | exact rfl,
   ⟨st 5 (flashRegs 1) { fls := { progs := [⟨0, 0, 1, 0, 0, 0, 0, [], false⟩], logs := [⟨0, 0, [], 0⟩] } } (mapData), (State.writePage (st 5 (flashRegs 1) { fls := { progs := [⟨0, 0, 1, 0, 0, 0, 0, [], false⟩], logs := [⟨0, 0, [], 0⟩] } } (mapData)) 0 0 [] false true).get (by decide +kernel), 0, true, ⟨0, 0, 1, 0, 0, 0, 0, [], false⟩, by decide +kernel, by decide +kernel, (Option.some_get _).symm⟩,
   by refine ⟨st 5 (flashRegs 1) { fls := { erases := [(31, 7)] } } (mapData), 31, 7, ?_, ?_, ?_, ?_⟩ <;> first | decide +kernel | exact ⟨by decide +kernel, by decide +kernel⟩ | exact acc (by decide +kernel) | exact ok_of (by decide +kernel) | exact safe_of (by decide +kernel) | exact rfl⟩

theorem meets_FlashBackgroundMoves :
    (∃ (s : State) (lbn fails : Nat) (bad : List (Nat × Nat)) (b : BufSet), s.dev.aon.vinAt = none ∧ s.dev.flag Reg.flsStatusReady = true ∧ s.setOf lbn = some b ∧ s.dev.lbPages ≤ b.written ∧ s.dev.on Reg.flsCtrlBgEn = true ∧ s.readOnly (chanOf lbn) = false ∧ s.offline (chanOf lbn) = false ∧ (s.buildNative lbn false 6 (bad.filter fun x => x.1 < b.written) fails).isSome = true)
    ∧ (∃ (s : State) (lbn fails : Nat) (bad : List (Nat × Nat)) (l : LogBlock), s.dev.aon.vinAt = none ∧ s.dev.flag Reg.flsStatusReady = true ∧ s.logOf lbn = some l ∧ s.dev.slcPages ≤ l.pages.length ∧ s.dev.on Reg.flsCtrlBgEn = true ∧ s.readOnly (chanOf lbn) = false ∧ s.offline (chanOf lbn) = false ∧ (s.buildNative lbn false (s.mergeClass (chanOf lbn)) bad fails).isSome = true)
    ∧ (∃ (s : State) (ch fails : Nat) (bad : List (Nat × Nat)) (l : LogBlock), s.dev.aon.vinAt = none ∧ s.dev.flag Reg.flsStatusReady = true ∧ (s.blocksIn ch bFree).length < s.dev.val Reg.flsGcGcLow ∧ s.dev.on Reg.flsCtrlBgEn = true ∧ s.readOnly ch = false ∧ s.offline ch = false ∧ s.victim ch = some l ∧ (s.buildNative l.lbn false (s.mergeClass ch) bad fails).isSome = true)
    ∧ (∃ (s : State) (lbn fails : Nat) (bad : List (Nat × Nat)), s.dev.aon.vinAt = none ∧ s.dev.flag Reg.flsStatusReady = true ∧ lbn ∈ s.dev.fls.relocate ∧ s.dev.on Reg.flsCtrlBgEn = true ∧ s.offline (chanOf lbn) = false ∧ (s.mapEntry lbn).kind ≠ kUnmapped ∧ (s.buildNative lbn false 8 bad fails).isSome = true)
    ∧ (∃ (s : State), s.dev.aon.vinAt = none ∧ s.dev.flag Reg.flsStatusReady = true)
    ∧ (∃ (s : State) (ch pb : Nat), s.dev.aon.vinAt = none ∧ s.dev.flag Reg.flsStatusReady = true ∧ ch < 32 ∧ (∀ k, k < 32 → k ≠ ch → s.offline k = true) ∧ s.offline ch = false ∧ s.dev.on Reg.flsCtrlBgEn = true ∧ (let ecs := (s.blocksIn ch bFree ++ s.blocksIn ch bData).map fun b => (s.pbe ch b).erased; s.dev.val Reg.flsWearWearSpread < ecs.foldl max 0 - ecs.foldl min (ecs.headD 0) ∧ s.pickBlock ch false ((s.blocksIn ch bData).filter fun b => let e := s.mapEntry (s.pbe ch b).lbn;         e.kind = kData && e.pblock = b && !e.log) = some pb ∧ chanOf (s.pbe ch pb).lbn = ch ∧ (s.buildNative (s.pbe ch pb).lbn true 9 [] 0).isSome = true))
    ∧ (∃ (s : State) (c : Instr), (s.dev.aon.vinAt.isSome = true ∨ s.dev.flag Reg.flsStatusReady = false) ∧ ((∃ lbn fails bad, c = .fold lbn fails bad ∨ c = .logMerge lbn fails bad ∨ c = .relocation lbn fails bad ∨ c = .gcMerge lbn fails bad) ∨ c = .mapCheckpoint ∨ c = .wearCheck)) :=
  ⟨by refine ⟨st 5 (flashRegs 1) { fls := { sets := [⟨0, 0, [0], 1, 0⟩] } } (mapData), 0, 0, [], ⟨0, 0, [0], 1, 0⟩, ?_, ?_, ?_, ?_, ?_, ?_, ?_, ?_⟩ <;> first | decide +kernel | exact ⟨by decide +kernel, by decide +kernel⟩ | exact acc (by decide +kernel) | exact ok_of (by decide +kernel) | exact safe_of (by decide +kernel) | exact rfl,
   by refine ⟨st 5 (flashRegs 1) { fls := { logs := [⟨0, 0, [0], 0⟩] } } (mapData), 0, 0, [], ⟨0, 0, [0], 0⟩, ?_, ?_, ?_, ?_, ?_, ?_, ?_, ?_⟩ <;> first | decide +kernel | exact ⟨by decide +kernel, by decide +kernel⟩ | exact acc (by decide +kernel) | exact ok_of (by decide +kernel) | exact safe_of (by decide +kernel) | exact rfl,
   by refine ⟨st 5 (flashRegs 1) { fls := { logs := [⟨0, 0, [0], 0⟩] } } (mapData), 0, 0, [], ⟨0, 0, [0], 0⟩, ?_, ?_, ?_, ?_, ?_, ?_, ?_, ?_⟩ <;> first | decide +kernel | exact ⟨by decide +kernel, by decide +kernel⟩ | exact acc (by decide +kernel) | exact ok_of (by decide +kernel) | exact safe_of (by decide +kernel) | exact rfl,
   by refine ⟨st 5 (flashRegs 1) { fls := { relocate := [0] } } (mapData), 0, 0, [], ?_, ?_, ?_, ?_, ?_, ?_, ?_⟩ <;> first | decide +kernel | exact ⟨by decide +kernel, by decide +kernel⟩ | exact acc (by decide +kernel) | exact ok_of (by decide +kernel) | exact safe_of (by decide +kernel) | exact rfl,
   by refine ⟨st 5 [(Reg.flsStatusReady, 1)], ?_, ?_⟩ <;> first | decide +kernel | exact ⟨by decide +kernel, by decide +kernel⟩ | exact acc (by decide +kernel) | exact ok_of (by decide +kernel) | exact safe_of (by decide +kernel) | exact rfl,
   by refine ⟨st 5 (flashRegs 2 ++ (List.range 31).map fun k => (Reg.chStatusOffline (k + 1), 1)) {} (mapData ++ [(.dram, 0x1000000000, leBytes 8 (2 ^ 24) ++ leBytes 8 5)]), 0, 0, ?_, ?_, ?_, ?_, ?_, ?_, ?_, ?_, ?_, ?_⟩ <;> first | decide +kernel | exact ⟨by decide +kernel, by decide +kernel⟩ | exact acc (by decide +kernel) | exact ok_of (by decide +kernel) | exact safe_of (by decide +kernel) | exact rfl,
   ⟨st 5 [] { aon := { vinAt := some 0 } }, .mapCheckpoint, by decide +kernel, .inr (.inl rfl)⟩⟩

theorem meets_ChecksWriteTheirResult :
    (∃ (s : State) (c : Nat) (h : Hdr) (p : CheckRangeP) (us : List Upset), MemorySafe s ∧ Accepted s (.checkRange c h p us) h (.checkRange p) ∧ 32 + 256 * ceilDiv p.length 65536 ≤ h.budget ∧ (s.dev.stepCtx c h).resume = [] ∧ p.fromTap = 0 ∧ bit p.resultAddr 31 = false)
    ∧ (∃ (s : State) (c : Nat) (h : Hdr) (p : CheckTapvalP) (us : List Upset), MemorySafe s ∧ Accepted s (.checkTapval c h p us) h (.checkTapval p) ∧ bit p.resultAddr 31 = false)
    ∧ (∃ (s : State) (c : Nat) (h : Hdr) (p : CheckWeightP) (us : List Upset), MemorySafe s ∧ Accepted s (.checkWeight c h p us) h (.checkWeight p) ∧ bit p.resultAddr 31 = false) :=
  ⟨by refine ⟨st 5 [], 255, ⟨0, 0, 300, 0, 0xFFFF, 0, 0, 0, 0⟩, ⟨0, 0, 0, 0, 64, 64, 128⟩, [], ?_, ?_, ?_, ?_, ?_, ?_⟩ <;> first | decide +kernel | exact ⟨by decide +kernel, by decide +kernel⟩ | exact acc (by decide +kernel) | exact ok_of (by decide +kernel) | exact safe_of (by decide +kernel) | exact rfl,
   by refine ⟨st 5 [], 255, hd 0, ⟨0, 7, 0, 64, 128⟩, [], ?_, ?_, ?_⟩ <;> first | decide +kernel | exact ⟨by decide +kernel, by decide +kernel⟩ | exact acc (by decide +kernel) | exact ok_of (by decide +kernel) | exact safe_of (by decide +kernel) | exact rfl,
   by refine ⟨st 5 [], 255, hd 0, ⟨2, 0, 64, 1, 1, 1, 6, 6, 0, 0, 0, 128⟩, [], ?_, ?_, ?_⟩ <;> first | decide +kernel | exact ⟨by decide +kernel, by decide +kernel⟩ | exact acc (by decide +kernel) | exact ok_of (by decide +kernel) | exact safe_of (by decide +kernel) | exact rfl⟩

theorem meets_NotesAndSumpSteps :
    (∃ (s : State) (c : Nat) (h : Hdr) (p : NoteP) (us : List Upset), Accepted s (.barrierFreeNote c h p us) h (.note p))
    ∧ (∃ (s : State) (c : Nat) (h : Hdr) (p : SumpP) (us : List Upset), Accepted s (.sump c h p us) h (.sump p) ∧ (∀ f ∈ s.dev.seq.inflight, f.chamber ≠ c) ∧ s.dev.sumpOf c = [])
    ∧ (∃ (s : State) (c : Nat) (h : Hdr) (p : SumpP) (us : List Upset) (e : SumpEntry) (rest : List SumpEntry), Accepted s (.sump c h p us) h (.sump p) ∧ s.dev.seq.inflight = [] ∧ s.dev.sumpOf c = e :: rest ∧ e.step.hdr.depends = 0xFFFF ∧ e.step.hdr.budget ≤ s.dev.cyclesTo s.dev.now ((s.upsets c h.index us).slotEnd (h.slot + p.maxSlots - 1))) :=
  ⟨⟨st 5 [], 255, hd 0, ⟨1, 7, 100⟩, [], acc (by decide +kernel)⟩,
   by refine ⟨st 5 [], 255, hd 0, ⟨1, 1, 1⟩, [], ?_, ?_, ?_⟩ <;> first | decide +kernel | exact ⟨by decide +kernel, by decide +kernel⟩ | exact acc (by decide +kernel) | exact ok_of (by decide +kernel) | exact safe_of (by decide +kernel) | exact rfl,
   by refine ⟨st 5 [] { seq := { sump := [⟨255, ⟨hd 0, .note ⟨1, 0, 0⟩⟩, 0, 0, [], 0⟩] } }, 255, hd 0, ⟨1, 1, 1⟩, [], ⟨255, ⟨hd 0, .note ⟨1, 0, 0⟩⟩, 0, 0, [], 0⟩, [], ?_, ?_, ?_, ?_, ?_⟩ <;> first | decide +kernel | exact ⟨by decide +kernel, by decide +kernel⟩ | exact acc (by decide +kernel) | exact ok_of (by decide +kernel) | exact safe_of (by decide +kernel) | exact rfl⟩

theorem meets_TheIndexAges :
    (∃ (s : State) (list k : Nat) (o : Overlay), MemorySafe s ∧ Quiet s ∧ (s.overlays (s.headOf list))[k]? = some o ∧ ((list, o.slot, o.ord, o.ver, o.commit) ∉ s.dev.idx.folded) ∧ wrapLe o.commit (wrapSub (s.dev.epoch % 2 ^ 32) 16) = true)
    ∧ (∃ (s : State) (list ord : Nat), MemorySafe s ∧ Quiet s ∧ s.dev.epc.inCairn = true ∧ ord < (s.headOf list).ords ∧ (s.headOf list).tenant < 64 ∧ (let h := s.headOf list; (let d := s.segDesc h ord; d.prevValid = true ∧ d.freeAt = s.dev.epoch % 2 ^ 32 ∧ State.inTier (s.segDescAddr h ord) 32 = true ∧ PlainAt s (s.segDescAddr h ord) 32)))
    ∧ (∃ (s : State) (list : Nat), MemorySafe s ∧ Quiet s ∧ s.dev.epc.inCairn = true ∧ (s.headOf list).list = list ∧ (let h := s.headOf list; (h.mergeAt + 16) % 2 ^ 32 = s.dev.epoch % 2 ^ 32 ∧ sideCount h ≠ 0 ∧ wrapLt h.sideStart h.mergeEnd = true ∧ State.inTier (s.headAddr list) 64 = true ∧ PlainAt s (s.headAddr list) 64)) :=
  ⟨⟨st 5 (idxRegs) {} (listAt listHead ++ [(.dram, 0x3000, leBytes 4 0 ++ leBytes 4 0xFFFFFF00)]), 0, 0, ⟨0, 0, 0, 0xFFFFFF00⟩, safe_of (by decide +kernel), quiet_of (by decide +kernel), by decide +kernel, by decide +kernel, by decide +kernel⟩,
   ⟨st 5 (idxRegs) { epc := { inCairn := true } } (listAt listHead ++ [(.dram, 0x2000, segBytes ⟨7, 0, 0, true, 0, 6, 0, 0, 0⟩)]), 0, 0, safe_of (by decide +kernel), quiet_of (by decide +kernel), by decide +kernel, by decide +kernel, by decide +kernel, by decide +kernel, by decide +kernel, by decide +kernel, plainAt (by decide +kernel) (by decide +kernel) (by decide +kernel)⟩,
   ⟨st 5 (idxRegs) { epc := { inCairn := true } } (listAt ({ listHead with mergeAt := 0xFFFFFFF0, mergeEnd := 1 })), 0, safe_of (by decide +kernel), quiet_of (by decide +kernel), by decide +kernel, by decide +kernel, by decide +kernel, by decide +kernel, by decide +kernel, by decide +kernel, plainAt (by decide +kernel) (by decide +kernel) (by decide +kernel)⟩⟩

theorem meets_FlowstonePassesAndFlips :
    (∃ (s u : State) (list : Nat) (w : Encoding) (vers : List NewVersion), s.dev.flag Reg.epcStatusRunning = true ∧ s.dev.on Reg.idxCtrlFlowEn = true ∧ list < s.dev.val Reg.idxLists ∧ (∀ p ∈ s.dev.idx.passes, p.list ≠ list) ∧ (let h := s.headOf list; (let ords := s.rewritten h s.dev.epoch; (let live := ords.flatMap (s.segSurvivors h s.dev.epoch) ++ s.sideSurvivors h s.dev.epoch; (let more := ceilDiv live.length 4096 - ords.length; h.ords + more ≤ h.ordCap ∧ (State.buildVersions h.tenant (ords ++ (List.range more).map fun i => h.ords + i) (live.map (s.recode w h)) [] s = (u, some vers)))))))
    ∧ (∃ (s : State) (list : Nat) (p : FlowPass), s.flipNext = some p ∧ p.list = list ∧ s.stillDue (s.headOf list) = false ∧ p.base + 16 < s.dev.epoch)
    ∧ (∃ (s : State) (list : Nat) (p : FlowPass), s.flipNext = some p ∧ p.list = list ∧ s.stillDue (s.headOf list) = false ∧ (let busy := p.versions.any fun v => decide (v.ord < (s.headOf list).ords) && (s.segDesc (s.headOf list) v.ord).prevValid; s.dev.epoch ≤ p.base + 16 ∧ busy = true))
    ∧ (∃ (s : State) (list : Nat) (p : FlowPass), s.flipNext = some p ∧ p.list = list ∧ s.stillDue (s.headOf list) = false ∧ (let busy := p.versions.any fun v => decide (v.ord < (s.headOf list).ords) && (s.segDesc (s.headOf list) v.ord).prevValid; (let room := decide ((s.headOf list).ovlCount + (s.carriedDeletes (s.headOf list) p).length ≤ 64 * (s.headOf list).ovlCap); s.dev.epoch ≤ p.base + 16 ∧ busy = false ∧ room = false)))
    ∧ (∃ (s : State) (list : Nat) (p : FlowPass), s.flipNext = some p ∧ p.list = list ∧ s.stillDue (s.headOf list) = false ∧ (let busy := p.versions.any fun v => decide (v.ord < (s.headOf list).ords) && (s.segDesc (s.headOf list) v.ord).prevValid; (let room := decide ((s.headOf list).ovlCount + (s.carriedDeletes (s.headOf list) p).length ≤ 64 * (s.headOf list).ovlCap); s.dev.epoch ≤ p.base + 16 ∧ busy = false ∧ room = true))) :=
  ⟨⟨st 5 ((Reg.epcStatusRunning, 1) :: idxRegs ++ [(Reg.segMax, 1), (Reg.idxCtrlFlowEn, 1), (Reg.tntStackLimit 0, 2 ^ 20), (Reg.segBase, 0x1000000000), (Reg.tombBase, 0x1100000000)]) {} (listAt listHead), (State.buildVersions 0 ((st 5 ((Reg.epcStatusRunning, 1) :: idxRegs ++ [(Reg.segMax, 1), (Reg.idxCtrlFlowEn, 1), (Reg.tntStackLimit 0, 2 ^ 20), (Reg.segBase, 0x1000000000), (Reg.tombBase, 0x1100000000)]) {} (listAt listHead)).rewritten listHead 0 ++ (List.range 0).map fun i => 1 + i) ((((st 5 ((Reg.epcStatusRunning, 1) :: idxRegs ++ [(Reg.segMax, 1), (Reg.idxCtrlFlowEn, 1), (Reg.tntStackLimit 0, 2 ^ 20), (Reg.segBase, 0x1000000000), (Reg.tombBase, 0x1100000000)]) {} (listAt listHead)).rewritten listHead 0).flatMap ((st 5 ((Reg.epcStatusRunning, 1) :: idxRegs ++ [(Reg.segMax, 1), (Reg.idxCtrlFlowEn, 1), (Reg.tntStackLimit 0, 2 ^ 20), (Reg.segBase, 0x1000000000), (Reg.tombBase, 0x1100000000)]) {} (listAt listHead)).segSurvivors listHead 0) ++ (st 5 ((Reg.epcStatusRunning, 1) :: idxRegs ++ [(Reg.segMax, 1), (Reg.idxCtrlFlowEn, 1), (Reg.tntStackLimit 0, 2 ^ 20), (Reg.segBase, 0x1000000000), (Reg.tombBase, 0x1100000000)]) {} (listAt listHead)).sideSurvivors listHead 0).map ((st 5 ((Reg.epcStatusRunning, 1) :: idxRegs ++ [(Reg.segMax, 1), (Reg.idxCtrlFlowEn, 1), (Reg.tntStackLimit 0, 2 ^ 20), (Reg.segBase, 0x1000000000), (Reg.tombBase, 0x1100000000)]) {} (listAt listHead)).recode ⟨0, [], none⟩ listHead)) [] (st 5 ((Reg.epcStatusRunning, 1) :: idxRegs ++ [(Reg.segMax, 1), (Reg.idxCtrlFlowEn, 1), (Reg.tntStackLimit 0, 2 ^ 20), (Reg.segBase, 0x1000000000), (Reg.tombBase, 0x1100000000)]) {} (listAt listHead))).1, 0, ⟨0, [], none⟩, (State.buildVersions 0 ((st 5 ((Reg.epcStatusRunning, 1) :: idxRegs ++ [(Reg.segMax, 1), (Reg.idxCtrlFlowEn, 1), (Reg.tntStackLimit 0, 2 ^ 20), (Reg.segBase, 0x1000000000), (Reg.tombBase, 0x1100000000)]) {} (listAt listHead)).rewritten listHead 0 ++ (List.range 0).map fun i => 1 + i) ((((st 5 ((Reg.epcStatusRunning, 1) :: idxRegs ++ [(Reg.segMax, 1), (Reg.idxCtrlFlowEn, 1), (Reg.tntStackLimit 0, 2 ^ 20), (Reg.segBase, 0x1000000000), (Reg.tombBase, 0x1100000000)]) {} (listAt listHead)).rewritten listHead 0).flatMap ((st 5 ((Reg.epcStatusRunning, 1) :: idxRegs ++ [(Reg.segMax, 1), (Reg.idxCtrlFlowEn, 1), (Reg.tntStackLimit 0, 2 ^ 20), (Reg.segBase, 0x1000000000), (Reg.tombBase, 0x1100000000)]) {} (listAt listHead)).segSurvivors listHead 0) ++ (st 5 ((Reg.epcStatusRunning, 1) :: idxRegs ++ [(Reg.segMax, 1), (Reg.idxCtrlFlowEn, 1), (Reg.tntStackLimit 0, 2 ^ 20), (Reg.segBase, 0x1000000000), (Reg.tombBase, 0x1100000000)]) {} (listAt listHead)).sideSurvivors listHead 0).map ((st 5 ((Reg.epcStatusRunning, 1) :: idxRegs ++ [(Reg.segMax, 1), (Reg.idxCtrlFlowEn, 1), (Reg.tntStackLimit 0, 2 ^ 20), (Reg.segBase, 0x1000000000), (Reg.tombBase, 0x1100000000)]) {} (listAt listHead)).recode ⟨0, [], none⟩ listHead)) [] (st 5 ((Reg.epcStatusRunning, 1) :: idxRegs ++ [(Reg.segMax, 1), (Reg.idxCtrlFlowEn, 1), (Reg.tntStackLimit 0, 2 ^ 20), (Reg.segBase, 0x1000000000), (Reg.tombBase, 0x1100000000)]) {} (listAt listHead))).2.get (by decide +kernel), by decide +kernel, by decide +kernel, by decide +kernel, fun p hp => absurd hp (by rw [show (st 5 ((Reg.epcStatusRunning, 1) :: idxRegs ++ [(Reg.segMax, 1), (Reg.idxCtrlFlowEn, 1), (Reg.tntStackLimit 0, 2 ^ 20), (Reg.segBase, 0x1000000000), (Reg.tombBase, 0x1100000000)]) {} (listAt listHead)).dev.idx.passes = [] by decide +kernel]; exact List.not_mem_nil), by decide +kernel, by decide +kernel⟩,
   ⟨st 5 (idxRegs ++ [(Reg.epcNumber, 20)]) { epc := { inCairn := true }, idx := { passes := [⟨0, 3, [⟨0, 7, 0, []⟩], 0, 20, [], none⟩] } } (listAt listHead), 0, ⟨0, 3, [⟨0, 7, 0, []⟩], 0, 20, [], none⟩, by decide +kernel, by decide +kernel, by decide +kernel, by decide +kernel⟩,
   ⟨st 5 (idxRegs ++ [(Reg.epcNumber, 20)]) { epc := { inCairn := true }, idx := { passes := [⟨0, 4, [⟨0, 7, 0, []⟩], 0, 20, [], none⟩] } } (listAt listHead ++ [(.dram, 0x2000, segBytes ⟨7, 0, 0, true, 0, 6, 0, 0, 0⟩)]), 0, ⟨0, 4, [⟨0, 7, 0, []⟩], 0, 20, [], none⟩, by decide +kernel, by decide +kernel, by decide +kernel, by decide +kernel, by decide +kernel⟩,
   ⟨st 5 (idxRegs ++ [(Reg.epcNumber, 20)]) { epc := { inCairn := true }, idx := { passes := [⟨0, 4, [⟨0, 7, 0, []⟩], 0, 20, [], none⟩] } } (listAt { listHead with ovlCap := 0 }), 0, ⟨0, 4, [⟨0, 7, 0, []⟩], 0, 20, [], none⟩, by decide +kernel, by decide +kernel, by decide +kernel, by decide +kernel, by decide +kernel, by decide +kernel⟩,
   ⟨st 5 (idxRegs ++ [(Reg.epcNumber, 20)]) { epc := { inCairn := true }, idx := { passes := [⟨0, 4, [⟨0, 7, 0, []⟩], 0, 20, [], none⟩] } } (listAt listHead), 0, ⟨0, 4, [⟨0, 7, 0, []⟩], 0, 20, [], none⟩, by decide +kernel, by decide +kernel, by decide +kernel, by decide +kernel, by decide +kernel, by decide +kernel⟩⟩

theorem meets_TableVersionsFlipAndFree :
    (∃ (s : State) (t home tier present base expect : Nat), MemorySafe s ∧ Quiet s ∧ (Instr.tableVersionFlip t home tier present base expect).wf = true ∧ s.dev.epc.inCairn = true ∧ (s.rowTable t).valid = true ∧ (let r := s.rowTable t; (let readers := if tier = 2 then home * s.dev.rd Reg.flsLbBytes else home; (let bs := (s.tierRead tier home 0 (r.rows * r.rowBytes)).1; let bad := (s.tierRead tier home 0 (r.rows * r.rowBytes)).2; (bad = true ∨ Crypto.check32c readers bs ≠ expect)))))
    ∧ (∃ (s : State) (t home tier present base expect : Nat), MemorySafe s ∧ Quiet s ∧ (Instr.tableVersionFlip t home tier present base expect).wf = true ∧ s.dev.epc.inCairn = true ∧ (s.rowTable t).valid = true ∧ (let r := s.rowTable t; (let f := s.dev.epoch % 2 ^ 32; (let readers := if tier = 2 then home * s.dev.rd Reg.flsLbBytes else home; (let bs := (s.tierRead tier home 0 (r.rows * r.rowBytes)).1; let bad := (s.tierRead tier home 0 (r.rows * r.rowBytes)).2; bad = false ∧ Crypto.check32c readers bs = expect ∧ wrapLe (wrapSub f 16) (base % 2 ^ 32) = false)))))
    ∧ (∃ (s : State) (t home tier present base expect : Nat), MemorySafe s ∧ Quiet s ∧ (Instr.tableVersionFlip t home tier present base expect).wf = true ∧ s.dev.epc.inCairn = true ∧ (s.rowTable t).valid = true ∧ (let r := s.rowTable t; (let f := s.dev.epoch % 2 ^ 32; (let readers := if tier = 2 then home * s.dev.rd Reg.flsLbBytes else home; (let bs := (s.tierRead tier home 0 (r.rows * r.rowBytes)).1; let bad := (s.tierRead tier home 0 (r.rows * r.rowBytes)).2; bad = false ∧ Crypto.check32c readers bs = expect ∧ wrapLe (wrapSub f 16) (base % 2 ^ 32) = true ∧ r.prevValid = true)))))
    ∧ (∃ (s : State) (t home tier present base expect : Nat), MemorySafe s ∧ Quiet s ∧ (Instr.tableVersionFlip t home tier present base expect).wf = true ∧ s.dev.epc.inCairn = true ∧ (s.rowTable t).valid = true ∧ (let r := s.rowTable t; (let f := s.dev.epoch % 2 ^ 32; (let readers := if tier = 2 then home * s.dev.rd Reg.flsLbBytes else home; (let bs := (s.tierRead tier home 0 (r.rows * r.rowBytes)).1; let bad := (s.tierRead tier home 0 (r.rows * r.rowBytes)).2; bad = false ∧ Crypto.check32c readers bs = expect ∧ wrapLe (wrapSub f 16) (base % 2 ^ 32) = true ∧ r.prevValid = false ∧ r.mutable' = false ∧ (∀ e ∈ s.dev.rows.staged, e.table ≠ t) ∧ State.inTier (s.rowDescAddr t) 128 = true ∧ PlainAt s (s.rowDescAddr t) 128)))))
    ∧ (∃ (s : State) (t : Nat), MemorySafe s ∧ Quiet s ∧ t < 64 ∧ s.dev.epc.inCairn = true ∧ TableAlone s ∧ (s.rowTable t).valid = true ∧ (s.rowTable t).prevValid = true ∧ (s.rowTable t).mutable' = false ∧ (s.rowTable t).freeAt = s.dev.epoch % 2 ^ 32 ∧ State.inTier (s.rowDescAddr t) 128 = true ∧ PlainAt s (s.rowDescAddr t) 128 ∧ (∀ i j, i < 128 → j < 64 * s.dev.val Reg.homeCount → s.xlate (s.rowDescAddr t + i) ≠ s.xlate (s.dev.val Reg.homeBase + j)) ∧ (s.rowTable t).prev.tier ≠ 2) :=
  ⟨⟨st 5 rowRegs { epc := { inCairn := true } } (rowDesc 1), 0, 0x40000, 0, 0, 0, 0, safe_of (by decide +kernel), quiet_of (by decide +kernel), by decide +kernel, by decide +kernel, by decide +kernel, by decide +kernel⟩,
   ⟨st 5 rowRegs { epc := { inCairn := true } } (rowDesc 1), 0, 0x40000, 0, 0, 0xFFFFFF00, Crypto.check32c 0x40000 (zeros 256), safe_of (by decide +kernel), quiet_of (by decide +kernel), by decide +kernel, by decide +kernel, by decide +kernel, by decide +kernel, by decide +kernel, by decide +kernel⟩,
   ⟨st 5 rowRegs { epc := { inCairn := true } } (rowDesc 1 ++ [(.dram, 0x8000 + 58, [1])]), 0, 0x40000, 0, 0, 0xFFFFFFF8, Crypto.check32c 0x40000 (zeros 256), safe_of (by decide +kernel), quiet_of (by decide +kernel), by decide +kernel, by decide +kernel, by decide +kernel, by decide +kernel, by decide +kernel, by decide +kernel, by decide +kernel⟩,
   ⟨st 5 rowRegs { epc := { inCairn := true } } (rowDesc 1), 0, 0x40000, 0, 0, 0xFFFFFFF8, Crypto.check32c 0x40000 (zeros 256), safe_of (by decide +kernel), quiet_of (by decide +kernel), by decide +kernel, by decide +kernel, by decide +kernel, by decide +kernel, by decide +kernel, by decide +kernel, by decide +kernel, by decide +kernel, by decide +kernel, by decide +kernel, plainAt (by decide +kernel) (by decide +kernel) (by decide +kernel)⟩,
   ⟨st 5 (rowRegs ++ homeRegs) { epc := { inCairn := true } } (rowDesc 1 ++ homeAt (homeRec 0) ++ [(.dram, 0x8000 + 58, [1])]), 0, safe_of (by decide +kernel), quiet_of (by decide +kernel), by decide +kernel, by decide +kernel, tableAlone (by decide +kernel) (by decide +kernel), by decide +kernel, by decide +kernel, by decide +kernel, by decide +kernel, by decide +kernel, plainAt (by decide +kernel) (by decide +kernel) (by decide +kernel), apart_of (by decide +kernel) (by decide +kernel) (by decide +kernel) (by decide +kernel), by decide +kernel⟩⟩

theorem meets_RedirectsFoldAndHotIndicesFlip :
    (∃ (s : State) (t bucket k : Nat), MemorySafe s ∧ Quiet s ∧ t < 64 ∧ k < 8 ∧ (s.rowTable t).mutable' = true ∧ (let r := s.rowTable t; (let e := s.redirectAt r bucket k; e.used = true ∧ ((t, bucket, k) ∉ s.dev.rows.folded) ∧ e.ver = r.cur.ver % 2 ∧ wrapLe e.commit (wrapSub (s.dev.epoch % 2 ^ 32) 16) = true ∧ (∀ j, j < 8 → let f := s.redirectAt r bucket j;         f.used = true → f.row = e.row → f.ver = e.ver → wrapLt f.commit e.commit = true → (t, bucket, j) ∈ s.dev.rows.folded) ∧ r.cur.tier ≠ 2)))
    ∧ (∃ (s : State) (t : Nat), t < 64 ∧ s.dev.on Reg.rowCtrlDripEn = true ∧ (s.rowTable t).valid = true ∧ (s.rowTable t).drip = true ∧ s.dev.epoch % max 1 (s.dev.val Reg.dripPeriod) = 0 ∧ (let as := State.hotAssign (s.rowTable t) (s.dev.val (Reg.hotStrataRows t)) (s.dev.val (Reg.hotStackRows t)) (s.hotRanked (s.rowTable t)) []; (let charged := (s.chargeHot (s.rowTable t) (1 - (s.rowTable t).hotActive) (as.countP fun a => a.2.1 = 0) (as.countP fun a => a.2.1 = 1)).2; charged = true)))
    ∧ (∃ (s : State) (t : Nat), t < 64 ∧ s.dev.on Reg.rowCtrlDripEn = true ∧ (s.rowTable t).valid = true ∧ (s.rowTable t).drip = true ∧ s.dev.epoch % max 1 (s.dev.val Reg.dripPeriod) = 0 ∧ (let as := State.hotAssign (s.rowTable t) (s.dev.val (Reg.hotStrataRows t)) (s.dev.val (Reg.hotStackRows t)) (s.hotRanked (s.rowTable t)) []; (let charged := (s.chargeHot (s.rowTable t) (1 - (s.rowTable t).hotActive) (as.countP fun a => a.2.1 = 0) (as.countP fun a => a.2.1 = 1)).2; ∃ row ∈ as.map (·.1), charged = true)))
    ∧ (∃ (s : State) (t : Nat), t < 64 ∧ s.dev.on Reg.rowCtrlDripEn = true ∧ (s.rowTable t).valid = true ∧ (s.rowTable t).drip = true ∧ s.dev.epoch % max 1 (s.dev.val Reg.dripPeriod) = 0 ∧ (let as := State.hotAssign (s.rowTable t) (s.dev.val (Reg.hotStrataRows t)) (s.dev.val (Reg.hotStackRows t)) (s.hotRanked (s.rowTable t)) []; (let charged := (s.chargeHot (s.rowTable t) (1 - (s.rowTable t).hotActive) (as.countP fun a => a.2.1 = 0) (as.countP fun a => a.2.1 = 1)).2; charged = false)))
    ∧ (∃ (s : State) (t e : Nat), MemorySafe s ∧ Quiet s ∧ t < 64 ∧ s.dev.epc.inCairn = true ∧ ((t, e) ∈ s.dev.rows.hotReady) ∧ e < s.dev.epoch ∧ (s.rowTable t).hotActive < 2 ∧ State.inTier (s.rowDescAddr t) 128 = true ∧ PlainAt s (s.rowDescAddr t) 128) :=
  ⟨⟨foldSt, 0, 0, 0, safe_of (by decide +kernel), quiet_of (by decide +kernel), by decide +kernel, by decide +kernel, by decide +kernel, by decide +kernel, by decide +kernel, by decide +kernel, by decide +kernel, fun j hj _ _ _ hw => absurd hw (foldSt_last j hj), by decide +kernel⟩,
   ⟨st 5 (rowRegs ++ [(Reg.rowCtrlDripEn, 1), (Reg.hotStrataRows 0, 1), (Reg.tntStrataLimit 0, 2 ^ 20)]) {} (rowDesc 9 ++ hotOwn), 0, by decide +kernel, by decide +kernel, by decide +kernel, by decide +kernel, by decide +kernel, by decide +kernel⟩,
   ⟨st 5 (rowRegs ++ [(Reg.rowCtrlDripEn, 1), (Reg.hotStrataRows 0, 1), (Reg.tntStrataLimit 0, 2 ^ 20)]) {} (rowDesc 9 ++ hotOwn), 0, by decide +kernel, by decide +kernel, by decide +kernel, by decide +kernel, by decide +kernel, 0, by decide +kernel, by decide +kernel⟩,
   ⟨st 5 (rowRegs ++ [(Reg.rowCtrlDripEn, 1), (Reg.hotStrataRows 0, 1), (Reg.tntStrataLimit 0, 0)]) {} (rowDesc 9 ++ hotOwn), 0, by decide +kernel, by decide +kernel, by decide +kernel, by decide +kernel, by decide +kernel, by decide +kernel⟩,
   ⟨st 5 (rowRegs ++ [(Reg.epcNumber, 1)]) { epc := { inCairn := true }, rows := { hotReady := [(0, 0)] } } (rowDesc 9), 0, 0, safe_of (by decide +kernel), quiet_of (by decide +kernel), by decide +kernel, by decide +kernel, by decide +kernel, by decide +kernel, by decide +kernel, by decide +kernel, plainAt (by decide +kernel) (by decide +kernel) (by decide +kernel)⟩⟩

theorem meets_HomesAreMoved :
    (∃ (s : State) (datum tier dest arm : Nat) (r : HomeRec), MemorySafe s ∧ Quiet s ∧ (Instr.tierMoveRequest datum tier dest arm false).wf = true ∧ TableAlone s ∧ (∀ n, n < s.dev.val Reg.homeCount → (s.homeGet n).isSome = true) ∧ datum < s.dev.val Reg.homeCount ∧ s.homeGet datum = some r ∧ r.state = hsHome ∧ r.tier ≠ 2 ∧ tier ≠ 2 ∧ r.referrer ≠ 1 ∧ s.inTierRange tier dest r.length = true ∧ s.homeOverlap tier dest r.length = none ∧ (s.dev.charge (ownerOf r) tier (s.dev.chargeOf tier r.length)).2 = true)
    ∧ (∃ (s : State) (datum n : Nat) (r : HomeRec), MemorySafe s ∧ Quiet s ∧ TableAlone s ∧ datum < s.dev.val Reg.homeCount ∧ s.homeGet datum = some r ∧ r.state = hsCopying ∧ r.kind = 0 ∧ r.tier ≠ 2 ∧ r.destTier ≠ 2 ∧ (let k := ceilDiv r.length 4096 - r.chunksLeft; (let m := min (min n r.chunksLeft) (s.chunkAllowance (State.moveController r)); (let len := min (4096 * m) (r.length - 4096 * k); m ≠ 0 ∧ (∀ x ∈ [(r.tier, r.home), (r.destTier, r.dest)], x.1 = 1 → s.dev.runMeets (x.2 + 4096 * k) (4096 * m) = false) ∧ State.inTier (r.dest + 4096 * k) len = true ∧ PlainAt s (r.dest + 4096 * k) len ∧ (∀ i j, i < len → j < 64 → s.xlate (r.dest + 4096 * k + i) ≠ s.xlate (s.homeAddr datum + j))))))
    ∧ (∃ (s : State) (datum : Nat) (r : HomeRec), s.homeGet datum = some r ∧ r.state = hsCopying ∧ r.chunksLeft = 0 ∧ r.kind = 0 ∧ r.tier ≠ 2 ∧ r.destTier ≠ 2 ∧ (s.devRead r.dest r.length).2 = false ∧ (s.devRead r.dest r.length).1 = (s.devRead r.home r.length).1 ∧ MemorySafe s ∧ Quiet s ∧ TableAlone s ∧ datum < s.dev.val Reg.homeCount)
    ∧ (∃ (s : State) (datum : Nat) (r : HomeRec), s.homeGet datum = some r ∧ r.state = hsCopying ∧ r.chunksLeft = 0 ∧ r.kind = 0 ∧ r.tier ≠ 2 ∧ r.destTier ≠ 2 ∧ (s.devRead r.dest r.length).2 = true)
    ∧ (∃ (s : State) (datum : Nat) (r : HomeRec), MemorySafe s ∧ Quiet s ∧ TableAlone s ∧ datum < s.dev.val Reg.homeCount ∧ s.homeGet datum = some r ∧ s.flipsNow r = true ∧ r.tier ≠ 2 ∧ r.destTier ≠ 2)
    ∧ (∃ (s : State) (datum : Nat) (r : HomeRec), s.homeGet datum = some r ∧ s.flipsNow r = false)
    ∧ (∃ (s : State) (datum : Nat) (r : HomeRec), MemorySafe s ∧ Quiet s ∧ TableAlone s ∧ s.dev.epc.inCairn = true ∧ datum < s.dev.val Reg.homeCount ∧ s.homeGet datum = some r ∧ r.state = hsReleasing ∧ r.freeAt = s.dev.epoch % 2 ^ 32 ∧ r.destTier ≠ 2)
    ∧ (∃ (s : State) (datum : Nat) (r : HomeRec), MemorySafe s ∧ Quiet s ∧ TableAlone s ∧ datum < s.dev.val Reg.homeCount ∧ s.homeGet datum = some r ∧ (r.state = hsCopying ∨ r.state = hsCopied) ∧ r.tier ≠ 2) :=
  ⟨⟨st 5 (homeRegs) {} (homeAt (homeRec 1)), 0, 0, 0x20000, 0, homeRec 1, safe_of (by decide +kernel), quiet_of (by decide +kernel), by decide +kernel, tableAlone (by decide +kernel) (by decide +kernel), by decide +kernel, by decide +kernel, by decide +kernel, rfl, by decide +kernel, by decide +kernel, by decide +kernel, by decide +kernel, by decide +kernel, by decide +kernel⟩,
   ⟨st 5 (homeRegs) {} (homeAt (homeRec 2)), 0, 2, homeRec 2, safe_of (by decide +kernel), quiet_of (by decide +kernel), tableAlone (by decide +kernel) (by decide +kernel), by decide +kernel, by decide +kernel, rfl, rfl, by decide +kernel, by decide +kernel, by decide +kernel, by decide +kernel, by decide +kernel, plainAt (by decide +kernel) (by decide +kernel) (by decide +kernel), apart_of (by decide +kernel) (by decide +kernel) (by decide +kernel) (by decide +kernel)⟩,
   ⟨st 5 homeRegs {} (homeAt { homeRec 2 with length := 64, chunksLeft := 0 }), 0, { homeRec 2 with length := 64, chunksLeft := 0 }, by decide +kernel, by decide +kernel, by decide +kernel, by decide +kernel, by decide +kernel, by decide +kernel, by decide +kernel, by decide +kernel, safe_of (by decide +kernel), quiet_of (by decide +kernel), tableAlone (by decide +kernel) (by decide +kernel), by decide +kernel⟩,
   ⟨st 5 homeRegs {} (homeAt { homeRec 2 with length := 64, chunksLeft := 0, dest := 0x400000000 }), 0, { homeRec 2 with length := 64, chunksLeft := 0, dest := 0x400000000 }, by decide +kernel, by decide +kernel, by decide +kernel, by decide +kernel, by decide +kernel, by decide +kernel, by decide +kernel⟩,
   ⟨st 5 (homeRegs) { epc := { inCairn := true } } (homeAt (homeRec 3)), 0, homeRec 3, safe_of (by decide +kernel), quiet_of (by decide +kernel), tableAlone (by decide +kernel) (by decide +kernel), by decide +kernel, by decide +kernel, by decide +kernel, by decide +kernel, by decide +kernel⟩,
   ⟨st 5 (homeRegs) {} (homeAt (homeRec 1)), 0, homeRec 1, by decide +kernel, by decide +kernel⟩,
   ⟨st 5 (homeRegs) { epc := { inCairn := true } } (homeAt (homeRec 4)), 0, homeRec 4, safe_of (by decide +kernel), quiet_of (by decide +kernel), tableAlone (by decide +kernel) (by decide +kernel), by decide +kernel, by decide +kernel, by decide +kernel, by decide +kernel, by decide +kernel, by decide +kernel⟩,
   ⟨st 5 (homeRegs) {} (homeAt (homeRec 2)), 0, homeRec 2, safe_of (by decide +kernel), quiet_of (by decide +kernel), tableAlone (by decide +kernel) (by decide +kernel), by decide +kernel, by decide +kernel, .inl rfl, by decide +kernel⟩⟩

theorem meets_ScrubRepairAndReload :
    (∃ (s : State) (a : Nat), s.dev.on Reg.strCtrlScrubEn = true ∧ a % 64 = 0 ∧ a < 0x400000000)
    ∧ (∃ (s : State) (row st : Nat), s.dev.epc.inCairn = true ∧ ((s.dev.strata.repair.find? (·.1 = row)) = some (row, st)) ∧ st < 8 ∧ bits (s.dev.rd Reg.strSpares) (4 * st) 4 ≠ 0)
    ∧ (∃ (s : State) (c a copy : Nat) (bs : List Byte) (bad : Bool), MemorySafe s ∧ Quiet s ∧ c < 256 ∧ a ∉ s.dev.cvu.damaged ∧ s.lookDatum copy = s ∧ (s.reloadCopy copy = some (bs, bad)) ∧ State.inTier a bs.length = true ∧ PlainAt s a bs.length ∧ (∀ b ∈ s.dev.fls.blocks, b.base = a → s.mirrorParts (s.homeAddr b.datum) 64 = [] ∧ ∀ i j, i < bs.length → j < 64 → s.xlate (a + i) ≠ s.xlate (s.homeAddr b.datum + j)))
    ∧ (∃ (s : State) (c a : Nat), c < 256 ∧ a ∈ s.dev.cvu.damaged)
    ∧ (∃ (s : State) (c a copy : Nat), c < 256 ∧ a ∉ s.dev.cvu.damaged ∧ s.reloadCopy copy = none) :=
  ⟨⟨st 5 [(Reg.strCtrlScrubEn, 1)], 0x3FFFFFFC0, by decide +kernel, by decide +kernel, by decide +kernel⟩,
   ⟨st 5 [(Reg.strSpares, 0x88888888)] { epc := { inCairn := true }, strata := { repair := [(9, 7)] } }, 9, 7, by decide +kernel, by decide +kernel, by decide +kernel, by decide +kernel⟩,
   ⟨st 5 (homeRegs ++ [(Reg.flsLbBytes, 16384)]) {} (homeAt { homeRec 1 with tier := 2, home := 0, length := 1 }), 255, 0, 0, [0], false, safe_of (by decide +kernel), quiet_of (by decide +kernel), by decide +kernel, by decide +kernel, by decide +kernel, by decide +kernel, by decide +kernel, plainAt (by decide +kernel) (by decide +kernel) (by decide +kernel), fun b hb => absurd hb (by rw [show (st 5 (homeRegs ++ [(Reg.flsLbBytes, 16384)]) {} (homeAt { homeRec 1 with tier := 2, home := 0, length := 1 })).dev.fls.blocks = [] by decide +kernel]; exact List.not_mem_nil)⟩,
   ⟨st 5 [] { cvu := { damaged := [0] } }, 255, 0, by decide +kernel, by decide +kernel⟩,
   ⟨st 5 homeRegs {} (homeAt (homeRec 1)), 255, 0, 0, by decide +kernel, by decide +kernel, by decide +kernel⟩⟩

theorem meets_FramesAreCheckedAndPlanDataArrives :
    (∃ (s : State) (p t : Nat), p < 8 ∧ (s.dev.clock t).portUp p = true)
    ∧ (∃ (s u : State) (cmd : Nat → Nat → List Byte → Bool → Instr) (ty p t : Nat) (fr : List Byte) (fcs : Bool) (i : Nat) (z : Zft), ((cmd = .planFrame ∧ ty = tyPlan) ∨ (cmd = .siphonFrame ∧ ty = tySiphon)) ∧ Arrives s p t fr fcs i z u ∧ z.isPlan ty = true ∧ z.epoch < u.dev.epoch)
    ∧ (∃ (s u : State) (cmd : Nat → Nat → List Byte → Bool → Instr) (ty p t : Nat) (fr : List Byte) (fcs : Bool) (i : Nat) (z : Zft), ((cmd = .planFrame ∧ ty = tyPlan) ∨ (cmd = .siphonFrame ∧ ty = tySiphon)) ∧ Arrives s p t fr fcs i z u ∧ z.isPlan ty = true ∧ u.dev.epoch + 1 < z.epoch)
    ∧ (∃ (s u : State) (cmd : Nat → Nat → List Byte → Bool → Instr) (ty p t : Nat) (fr : List Byte) (fcs : Bool) (i : Nat) (z : Zft), ((cmd = .planFrame ∧ ty = tyPlan) ∨ (cmd = .siphonFrame ∧ ty = tySiphon)) ∧ Arrives s p t fr fcs i z u ∧ z.isPlan ty = true ∧ u.dev.epoch ≤ z.epoch ∧ z.epoch ≤ u.dev.epoch + 1 ∧ u.recvFor z.dstChamber i z.srcChamber z.tag = none)
    ∧ (∃ (s u : State) (cmd : Nat → Nat → List Byte → Bool → Instr) (ty p t : Nat) (fr : List Byte) (fcs : Bool) (i : Nat) (z : Zft), ((cmd = .planFrame ∧ ty = tyPlan) ∨ (cmd = .siphonFrame ∧ ty = tySiphon)) ∧ Arrives s p t fr fcs i z u ∧ z.isPlan ty = true ∧ ∃ idx q, z.epoch = u.dev.epoch + 1 ∧ (u.recvFor z.dstChamber i z.srcChamber z.tag = some (idx, q)) ∧ z.total ≤ q.cap ∧ u.landingBytes p + z.data.length ≤ 2097152)
    ∧ (∃ (s u : State) (cmd : Nat → Nat → List Byte → Bool → Instr) (ty p t : Nat) (fr : List Byte) (fcs : Bool) (i : Nat) (z : Zft), ((cmd = .planFrame ∧ ty = tyPlan) ∨ (cmd = .siphonFrame ∧ ty = tySiphon)) ∧ Arrives s p t fr fcs i z u ∧ z.isPlan ty = true ∧ ∃ idx q r, z.epoch = u.dev.epoch ∧ (u.recvFor z.dstChamber i z.srcChamber z.tag = some (idx, q)) ∧ z.total ≤ q.cap ∧ z.total ≤ r.p.cap ∧ u.recvSt z.dstChamber idx = some r ∧ r.completed = false ∧ MemorySafe s ∧ bit r.p.dstAddr 31 = false ∧ bits r.p.dstAddr 0 26 + z.offset + z.data.length ≤ 0x200000) :=
  ⟨⟨st 5 (fabRegs ++ [(Reg.portStatusState 7, 3)]) {}, 7, 0, by decide +kernel, by decide +kernel⟩,
   ⟨st 5 (fabRegs ++ [(Reg.epcNumber, 20)]) {}, after (st 5 (fabRegs ++ [(Reg.epcNumber, 20)]) {}) (zft tyPlan 0 19 7 1 [9]), .planFrame, tyPlan, 0, 0, frameOf (zft tyPlan 0 19 7 1 [9]), true, 0, zft tyPlan 0 19 7 1 [9], .inl ⟨rfl, rfl⟩, arrives_of (by decide +kernel) (by decide +kernel), by decide +kernel, by decide +kernel⟩,
   ⟨st 5 (fabRegs ++ [(Reg.epcNumber, 20)]) {}, after (st 5 (fabRegs ++ [(Reg.epcNumber, 20)]) {}) (zft tyPlan 0 22 7 1 [9]), .planFrame, tyPlan, 0, 0, frameOf (zft tyPlan 0 22 7 1 [9]), true, 0, zft tyPlan 0 22 7 1 [9], .inl ⟨rfl, rfl⟩, arrives_of (by decide +kernel) (by decide +kernel), by decide +kernel, by decide +kernel⟩,
   ⟨st 5 (fabRegs ++ [(Reg.epcNumber, 20)]) {}, after (st 5 (fabRegs ++ [(Reg.epcNumber, 20)]) {}) (zft tyPlan 0 20 7 1 [9]), .planFrame, tyPlan, 0, 0, frameOf (zft tyPlan 0 20 7 1 [9]), true, 0, zft tyPlan 0 20 7 1 [9], .inl ⟨rfl, rfl⟩, arrives_of (by decide +kernel) (by decide +kernel), by decide +kernel, by decide +kernel, by decide +kernel, by decide +kernel⟩,
   ⟨st 5 (fabRegs ++ [(Reg.epcNumber, 20)]) {} recvPlan, after (st 5 (fabRegs ++ [(Reg.epcNumber, 20)]) {} recvPlan) (zft tyPlan 0 21 7 1 [9]), .planFrame, tyPlan, 0, 0, frameOf (zft tyPlan 0 21 7 1 [9]), true, 0, zft tyPlan 0 21 7 1 [9], .inl ⟨rfl, rfl⟩, arrives_of (by decide +kernel) (by decide +kernel), by decide +kernel, 0, recvP0, by decide +kernel, by decide +kernel, by decide +kernel, by decide +kernel⟩,
   ⟨st 5 (fabRegs ++ [(Reg.epcNumber, 20)]) { fab := { recvs := [⟨0, 0, 20, 494, recvP0, none, [], false, false, 0, false⟩] } } recvPlan, after (st 5 (fabRegs ++ [(Reg.epcNumber, 20)]) { fab := { recvs := [⟨0, 0, 20, 494, recvP0, none, [], false, false, 0, false⟩] } } recvPlan) (zft tyPlan 0 20 7 1 [9]), .planFrame, tyPlan, 0, 0, frameOf (zft tyPlan 0 20 7 1 [9]), true, 0, zft tyPlan 0 20 7 1 [9], .inl ⟨rfl, rfl⟩, arrives_of (by decide +kernel) (by decide +kernel), by decide +kernel, 0, recvP0, ⟨0, 0, 20, 494, recvP0, none, [], false, false, 0, false⟩, by decide +kernel, by decide +kernel, by decide +kernel, by decide +kernel, by decide +kernel, by decide +kernel, safe_of (by decide +kernel), by decide +kernel, by decide +kernel⟩⟩

theorem meets_ReliableFramesKeepTheirOrder :
    (∃ (s u : State) (pl : Place) (cmd : Nat → Nat → List Byte → Bool → Instr) (is : Zft → Bool) (p t : Nat) (fr : List Byte) (fcs : Bool) (i : Nat) (z : Zft), ((cmd, is) ∈ reliableSteps pl) ∧ is z = true ∧ Arrives s p t fr fcs i z u ∧ u.dev.fab.inbox = [] ∧ (u.dev.peerSeq i).relIn < z.seq ∧ z.seq ≤ (u.dev.peerSeq i).relIn + 1024 ∧ (u.dev.peerSeq i).held.length < 1024)
    ∧ (∃ (s u : State) (pl : Place) (cmd : Nat → Nat → List Byte → Bool → Instr) (is : Zft → Bool) (p t : Nat) (fr : List Byte) (fcs : Bool) (i : Nat) (z : Zft), ((cmd, is) ∈ reliableSteps pl) ∧ is z = true ∧ ArrivesWhole s p t fr fcs i z u) :=
  ⟨⟨st 5 (fabRegs) {}, after (st 5 (fabRegs) {}) (zft tyQuery 1 0 1 16 (zeros 16)), ⟨0, 0, false⟩, .queryMessage, Zft.isMsg tyQuery, 0, 0, frameOf (zft tyQuery 1 0 1 16 (zeros 16)), true, 0, zft tyQuery 1 0 1 16 (zeros 16), .head _, by decide +kernel, arrives_of (by decide +kernel) (by decide +kernel), by decide +kernel, by decide +kernel, by decide +kernel, by decide +kernel⟩,
   ⟨st 5 (fabRegs) {}, after' (st 5 (fabRegs) {}) (message tyQuery (zeros 16)), ⟨0, 0, false⟩, .queryMessage, Zft.isMsg tyQuery, 0, 0, frameOf (message tyQuery (zeros 16)), true, 0, message tyQuery (zeros 16), .head _, by decide +kernel, whole_of (by decide +kernel) (by decide +kernel) (by decide +kernel)⟩⟩

theorem meets_ClientMessagesArrive :
    (∃ (s u : State) (p t : Nat) (fr : List Byte) (fcs : Bool) (i : Nat) (z : Zft), ArrivesWhole s p t fr fcs i z u ∧ z.isMsg tyQuery = true ∧ (let b := z.data; (let node := u.dev.val (Reg.peerCfgNode i); (let head := 16 ≤ b.length ∧ ∀ x ∈ (b.drop 1).take 7, x = 0#8; (let r : Request := { tenant := z.tenant, seq := fieldAt b 8 8, body := b.drop 16, origin := .client node }; head ∧ fieldAt b 0 1 = 1 ∧ queryOk r.body = true ∧ u.dev.rd Reg.glbState ≠ 6)))))
    ∧ (∃ (s u : State) (p t : Nat) (fr : List Byte) (fcs : Bool) (i : Nat) (z : Zft), ArrivesWhole s p t fr fcs i z u ∧ z.isMsg tyQuery = true ∧ (let b := z.data; (let node := u.dev.val (Reg.peerCfgNode i); (let head := 16 ≤ b.length ∧ ∀ x ∈ (b.drop 1).take 7, x = 0#8; (let r : Request := { tenant := z.tenant, seq := fieldAt b 8 8, body := b.drop 16, origin := .client node }; head ∧ fieldAt b 0 1 = 2 ∧ opBodyOk r.body = true ∧ u.dev.rd Reg.glbState ≠ 6)))))
    ∧ (∃ (s u : State) (p t : Nat) (fr : List Byte) (fcs : Bool) (i : Nat) (z : Zft), ArrivesWhole s p t fr fcs i z u ∧ z.isMsg tyQuery = true ∧ (let b := z.data; (let node := u.dev.val (Reg.peerCfgNode i); (let head := 16 ≤ b.length ∧ ∀ x ∈ (b.drop 1).take 7, x = 0#8; (let r : Request := { tenant := z.tenant, seq := fieldAt b 8 8, body := b.drop 16, origin := .client node }; head ∧ fieldAt b 0 1 = 2 ∧ opBodyOk r.body = false ∧ u.dev.rd Reg.glbState ≠ 6)))))
    ∧ (∃ (s u : State) (p t : Nat) (fr : List Byte) (fcs : Bool) (i : Nat) (z : Zft), ArrivesWhole s p t fr fcs i z u ∧ z.isMsg tyQuery = true ∧ (let b := z.data; (let head := 16 ≤ b.length ∧ ∀ x ∈ (b.drop 1).take 7, x = 0#8; (¬ head ∨ (fieldAt b 0 1 ≠ 1 ∧ fieldAt b 0 1 ≠ 2)))))
    ∧ (∃ (s u : State) (p t : Nat) (fr : List Byte) (fcs : Bool) (i : Nat) (z : Zft) (q : OpenQuery), ArrivesWhole s p t fr fcs i z u ∧ z.isMsg tyReply = true ∧ fieldAt z.data 0 1 = 1 ∧ (u.dev.host.queries.find? fun q => q.ref.seq = fieldAt z.data 8 8 && q.ref.tenant = z.tenant) = some q) :=
  ⟨⟨st 5 (fabRegs) {}, after' (st 5 (fabRegs) {}) (message tyQuery ([1] ++ zeros 7 ++ leBytes 8 4 ++ queryBody)), 0, 0, frameOf (message tyQuery ([1] ++ zeros 7 ++ leBytes 8 4 ++ queryBody)), true, 0, message tyQuery ([1] ++ zeros 7 ++ leBytes 8 4 ++ queryBody), whole_of (by decide +kernel) (by decide +kernel) (by decide +kernel), by decide +kernel, by decide +kernel, by decide +kernel, by decide +kernel, by decide +kernel⟩,
   ⟨st 5 (fabRegs) {}, after' (st 5 (fabRegs) {}) (message tyQuery ([2] ++ zeros 7 ++ leBytes 8 4 ++ ([3] ++ zeros 47))), 0, 0, frameOf (message tyQuery ([2] ++ zeros 7 ++ leBytes 8 4 ++ ([3] ++ zeros 47))), true, 0, message tyQuery ([2] ++ zeros 7 ++ leBytes 8 4 ++ ([3] ++ zeros 47)), whole_of (by decide +kernel) (by decide +kernel) (by decide +kernel), by decide +kernel, by decide +kernel, by decide +kernel, by decide +kernel, by decide +kernel⟩,
   ⟨st 5 (fabRegs) {}, after' (st 5 (fabRegs) {}) (message tyQuery ([2] ++ zeros 7 ++ leBytes 8 4 ++ ([9] ++ zeros 47))), 0, 0, frameOf (message tyQuery ([2] ++ zeros 7 ++ leBytes 8 4 ++ ([9] ++ zeros 47))), true, 0, message tyQuery ([2] ++ zeros 7 ++ leBytes 8 4 ++ ([9] ++ zeros 47)), whole_of (by decide +kernel) (by decide +kernel) (by decide +kernel), by decide +kernel, by decide +kernel, by decide +kernel, by decide +kernel, by decide +kernel⟩,
   ⟨st 5 (fabRegs) {}, after' (st 5 (fabRegs) {}) (message tyQuery ([3] ++ zeros 15)), 0, 0, frameOf (message tyQuery ([3] ++ zeros 15)), true, 0, message tyQuery ([3] ++ zeros 15), whole_of (by decide +kernel) (by decide +kernel) (by decide +kernel), by decide +kernel, by decide +kernel⟩,
   ⟨st 5 (fabRegs) { host := { queries := [⟨⟨1, 2, 4, 0, false⟩, 0x1000, 64, 7⟩] } }, after' (st 5 (fabRegs) { host := { queries := [⟨⟨1, 2, 4, 0, false⟩, 0x1000, 64, 7⟩] } }) (message tyReply ([1] ++ zeros 7 ++ leBytes 8 4 ++ zeros 32)), 0, 0, frameOf (message tyReply ([1] ++ zeros 7 ++ leBytes 8 4 ++ zeros 32)), true, 0, message tyReply ([1] ++ zeros 7 ++ leBytes 8 4 ++ zeros 32), ⟨⟨1, 2, 4, 0, false⟩, 0x1000, 64, 7⟩, whole_of (by decide +kernel) (by decide +kernel) (by decide +kernel), by decide +kernel, by decide +kernel, by decide +kernel⟩⟩

theorem meets_AcksEchoesAndTime :
    (∃ (s u : State) (p t : Nat) (fr : List Byte) (fcs : Bool) (i : Nat) (z : Zft), Arrives s p t fr fcs i z u ∧ z.isMgmt mgAck = true)
    ∧ (∃ (s u : State) (p t : Nat) (fr : List Byte) (fcs : Bool) (i : Nat) (z : Zft), Arrives s p t fr fcs i z u ∧ z.isMgmt mgEchoReq = true)
    ∧ (∃ (s u : State) (p t : Nat) (fr : List Byte) (fcs : Bool) (i : Nat) (z : Zft), Arrives s p t fr fcs i z u ∧ z.isMgmt mgEchoRsp = true ∧ i = u.dev.val Reg.fabTimeSourcePeer)
    ∧ (∃ (s u : State) (p t : Nat) (fr : List Byte) (fcs : Bool) (i : Nat) (z : Zft), Arrives s p t fr fcs i z u ∧ z.isPlan tyTime = true) :=
  ⟨⟨st 5 (fabRegs) {}, after (st 5 (fabRegs) {}) (mgmt ([1] ++ zeros 7 ++ leBytes 8 3)), 0, 0, frameOf (mgmt ([1] ++ zeros 7 ++ leBytes 8 3)), true, 0, mgmt ([1] ++ zeros 7 ++ leBytes 8 3), arrives_of (by decide +kernel) (by decide +kernel), by decide +kernel⟩,
   ⟨st 5 (fabRegs) {}, after (st 5 (fabRegs) {}) (mgmt ([2] ++ zeros 15)), 0, 0, frameOf (mgmt ([2] ++ zeros 15)), true, 0, mgmt ([2] ++ zeros 15), arrives_of (by decide +kernel) (by decide +kernel), by decide +kernel⟩,
   ⟨st 5 (fabRegs) {}, after (st 5 (fabRegs) {}) (mgmt ([3] ++ zeros 31)), 0, 0, frameOf (mgmt ([3] ++ zeros 31)), true, 0, mgmt ([3] ++ zeros 31), arrives_of (by decide +kernel) (by decide +kernel), by decide +kernel, by decide +kernel⟩,
   ⟨st 5 (fabRegs) {}, after (st 5 (fabRegs) {}) (zft tyTime 8 0 7 0 (zeros 32)), 0, 0, frameOf (zft tyTime 8 0 7 0 (zeros 32)), true, 0, zft tyTime 8 0 7 0 (zeros 32), arrives_of (by decide +kernel) (by decide +kernel), by decide +kernel⟩⟩

theorem meets_FabricTimers :
    (∃ (s : State) (q : PeerSeq), (s.dev.fab.peers.map (·.peer)).Nodup ∧ q ∈ s.dev.fab.peers ∧ (q.relIn ≠ 0 ∨ q.held ≠ []) ∧ s.dev.on (Reg.peerCfgValid q.peer) = true)
    ∧ (∃ (s : State) (t : Nat), (s.dev.fab.peers.map (·.peer)).Nodup ∧ (∀ q ∈ s.dev.fab.peers, (q.unacked.map (·.seq)).Nodup) ∧ (∀ q ∈ s.dev.fab.peers, ∀ x ∈ q.unacked, x.resends < s.dev.val Reg.fabReliableRetxMax) ∧ t < 2 ^ 64)
    ∧ (∃ (s : State) (t : Nat) (q : PeerSeq) (x : Unacked), s.dev.fab.peers = [q] ∧ q.unacked = [x] ∧ t < 2 ^ 64 ∧ x.sent + 1000 * s.dev.val Reg.fabReliableRetxUs ≤ max s.dev.now t ∧ s.dev.val Reg.fabReliableRetxMax ≤ x.resends)
    ∧ (∃ (s : State), s.dev.on Reg.fabCtrlTimeMaster = true)
    ∧ (∃ (s : State), s.dev.on Reg.fabCtrlTimeMaster = false)
    ∧ (∃ (s : State), s.dev.on (Reg.peerCfgValid (s.dev.val Reg.fabTimeSourcePeer)) = true)
    ∧ (∃ (s : State) (t : Nat), s.dev.on Reg.fabCtrlTimeEn = true ∧ s.dev.fab.timeLost = false ∧ t < 2 ^ 64 ∧ s.dev.fab.timeAt + s.dev.val Reg.fabTimeCfgLossPeriods * s.dev.timePeriod ≤ max s.dev.now t) :=
  ⟨⟨st 5 (fabRegs) { fab := { peers := [{ peer := 0, relIn := 1 }] } }, { peer := 0, relIn := 1 }, by decide +kernel, by decide +kernel, by decide +kernel, by decide +kernel⟩,
   ⟨st 5 (fabRegs) { fab := { peers := [{ peer := 0, unacked := [unacked 0] }] } }, 0, by decide +kernel, by decide +kernel, by decide +kernel, by decide +kernel⟩,
   ⟨st 5 (fabRegs) { fab := { peers := [{ peer := 0, unacked := [unacked 8] }] } }, 400000, { peer := 0, unacked := [unacked 8] }, unacked 8, by decide +kernel, by decide +kernel, by decide +kernel, by decide +kernel, by decide +kernel⟩,
   ⟨st 5 (fabRegs ++ [(Reg.fabCtrlTimeMaster, 1)]) {}, by decide +kernel⟩,
   ⟨st 5 (fabRegs) {}, by decide +kernel⟩,
   ⟨st 5 (fabRegs) {}, by decide +kernel⟩,
   ⟨st 5 (fabRegs ++ [(Reg.fabCtrlTimeEn, 1)]) {}, 8000000, by decide +kernel, by decide +kernel, by decide +kernel, by decide +kernel⟩⟩

theorem meets_PortsTrainAndGoDown :
    (∃ (s : State) (p : Nat), p < 8 ∧ s.dev.rd (Reg.portStatusState p) = 1)
    ∧ (∃ (s : State) (p : Nat), p < 8 ∧ s.dev.rd (Reg.portStatusState p) = 2)
    ∧ (∃ (s : State) (p : Nat), p < 8 ∧ s.dev.rd (Reg.portStatusState p) = 3)
    ∧ (∃ (v : Nat), v < 256) :=
  ⟨⟨st 5 [(Reg.portStatusState 7, 1)], 7, by decide +kernel, by decide +kernel⟩,
   ⟨st 5 [(Reg.portStatusState 7, 2)], 7, by decide +kernel, by decide +kernel⟩,
   ⟨st 5 [(Reg.portStatusState 7, 3)], 7, by decide +kernel, by decide +kernel⟩,
   ⟨255, by decide⟩⟩

theorem meets_EgressChoosesAndRefills :
    (∃ (s : State) (p t : Nat) (f : QFrame), p < 8 ∧ s.dev.portUp p = true ∧ (let d := s.dev.clock t; (d.strictHead p 0 <|> d.strictHead p 1 <|> d.strictHead p 2) = some f))
    ∧ (∃ (s : State) (p t : Nat) (f : QFrame), p < 8 ∧ s.dev.portUp p = true ∧ (let d := s.dev.clock t; ∃ w, (d.strictHead p 0 <|> d.strictHead p 1 <|> d.strictHead p 2) = none ∧ w < 12 ∧ p * 16 + 4 + w ∈ s.dev.egs.urgent ∧ (d.queueOf p (4 + w)).head? = some f ∧ d.conforms f = true ∧ (∀ x g, x < w → p * 16 + 4 + x ∈ s.dev.egs.urgent → (d.queueOf p (4 + x)).head? = some g → d.conforms g = false)))
    ∧ (∃ (s : State) (p : Nat), p < 8 ∧ s.dev.portUp p = true)
    ∧ (∃ (s : State), (∀ f ∈ s.dev.regs.waiting, f.app ≠ .refill) ∧ (s.dev.egs.levels.map (·.1)).Nodup)
    ∧ (∃ (s : State) (p w t : Nat) (f : QFrame), p < 8 ∧ w < 12 ∧ t < 2 ^ 64 ∧ (s.dev.queueOf p (4 + w)).head? = some f ∧ (s.dev.clock t).conforms f = true ∧ 1000 * s.dev.val (Reg.egsWCfgAgeUs p w) < max s.dev.now t - f.since ∧ p * 16 + 4 + w ∉ s.dev.egs.urgent ∧ p * 16 + 4 + w ∉ s.dev.egs.served)
    ∧ (∃ (s : State) (p q : Nat), s.dev.flag Reg.epcStatusRunning = true ∧ p < 8 ∧ q < 16) :=
  ⟨⟨st 5 (fabRegs ++ [(Reg.epcTime, 300000)]) { egs := { queues := [qframe 2] } }, 0, 0, qframe 2, by decide +kernel, by decide +kernel, by decide +kernel⟩,
   ⟨st 5 (fabRegs ++ [(Reg.epcTime, 300000)]) { egs := { queues := [qframe 4], urgent := [4] } }, 0, 0, qframe 4, by decide +kernel, by decide +kernel, 0, by decide +kernel, by decide +kernel, by decide +kernel, by decide +kernel, by decide +kernel, fun x g hx => absurd hx (Nat.not_lt_zero x)⟩,
   ⟨st 5 (fabRegs) {}, 0, by decide +kernel, by decide +kernel⟩,
   ⟨st 5 (fabRegs) {}, by decide +kernel, by decide +kernel⟩,
   ⟨st 5 (fabRegs ++ [(Reg.epcTime, 300000)]) { egs := { queues := [qframe 15] } }, 0, 11, 0, qframe 15, by decide +kernel, by decide +kernel, by decide +kernel, by decide +kernel, by decide +kernel, by decide +kernel, by decide +kernel, by decide +kernel⟩,
   ⟨st 5 [(Reg.epcStatusRunning, 1)], 7, 15, by decide +kernel, by decide +kernel, by decide +kernel⟩⟩

theorem meets_AnnouncedMapsAreChecked :
    (∃ (s u : State) (p t : Nat) (fr : List Byte) (fcs : Bool) (i : Nat) (z : Zft), ArrivesWhole s p t fr fcs i z u ∧ z.isCoord kdAnnounce = true ∧ (let b := z.data.drop 16; (let half := 1 - u.dev.rd Reg.tntStatusMapHalf; (let a := u.mapHalfAddr half; (let node := u.dev.val (Reg.peerCfgNode i); (¬ (u.dev.flag Reg.tntStatusMapPending = true ∧ u.dev.rd Reg.poolMapVersionPending = mapVersion b ∧ (u.devRead a b.length).1 = b)) ∧ ∃ f, mapBad u b a node = some f)))))
    ∧ (∃ (s u : State) (p t : Nat) (fr : List Byte) (fcs : Bool) (i : Nat) (z : Zft), ArrivesWhole s p t fr fcs i z u ∧ z.isCoord kdAnnounce = true ∧ (let b := z.data.drop 16; (let half := 1 - u.dev.rd Reg.tntStatusMapHalf; (let a := u.mapHalfAddr half; (let node := u.dev.val (Reg.peerCfgNode i); (¬ (u.dev.flag Reg.tntStatusMapPending = true ∧ u.dev.rd Reg.poolMapVersionPending = mapVersion b ∧ (u.devRead a b.length).1 = b)) ∧ ∃ x, mapBad u b a node = none ∧ domainShared u b = some x)))))
    ∧ (∃ (s u : State) (p t : Nat) (fr : List Byte) (fcs : Bool) (i : Nat) (z : Zft), ArrivesWhole s p t fr fcs i z u ∧ z.isCoord kdAnnounce = true ∧ (let b := z.data.drop 16; (let half := 1 - u.dev.rd Reg.tntStatusMapHalf; (let a := u.mapHalfAddr half; (let node := u.dev.val (Reg.peerCfgNode i); (¬ (u.dev.flag Reg.tntStatusMapPending = true ∧ u.dev.rd Reg.poolMapVersionPending = mapVersion b ∧ (u.devRead a b.length).1 = b)) ∧ mapBad u b a node = none ∧ domainShared u b = none ∧ mapEffective b < u.dev.epoch + 4)))))
    ∧ (∃ (s u : State) (p t : Nat) (fr : List Byte) (fcs : Bool) (i : Nat) (z : Zft), ArrivesWhole s p t fr fcs i z u ∧ z.isCoord kdAnnounce = true ∧ (let b := z.data.drop 16; (let half := 1 - u.dev.rd Reg.tntStatusMapHalf; (let a := u.mapHalfAddr half; (let node := u.dev.val (Reg.peerCfgNode i); (¬ (u.dev.flag Reg.tntStatusMapPending = true ∧ u.dev.rd Reg.poolMapVersionPending = mapVersion b ∧ (u.devRead a b.length).1 = b)) ∧ mapBad u b a node = none ∧ domainShared u b = none ∧ u.dev.epoch + 4 ≤ mapEffective b))))) :=
  ⟨⟨st 5 (fabRegs ++ [(Reg.poolMapBase, 0x300000), (Reg.poolMapLenBytes, 128), (Reg.epcNumber, 20)]) {}, after' (st 5 (fabRegs ++ [(Reg.poolMapBase, 0x300000), (Reg.poolMapLenBytes, 128), (Reg.epcNumber, 20)]) {}) (coord kdAnnounce (zeros 64)), 0, 0, frameOf (coord kdAnnounce (zeros 64)), true, 0, coord kdAnnounce (zeros 64), whole_of (by decide +kernel) (by decide +kernel) (by decide +kernel), by decide +kernel, by decide +kernel, 0, by decide +kernel⟩,
   ⟨st 5 (fabRegs ++ [(Reg.poolMapBase, 0x300000), (Reg.poolMapLenBytes, 128), (Reg.epcNumber, 20)]) {}, after' (st 5 (fabRegs ++ [(Reg.poolMapBase, 0x300000), (Reg.poolMapLenBytes, 128), (Reg.epcNumber, 20)]) {}) (coord kdAnnounce (mapOf 0x300080 24 0)), 0, 0, frameOf (coord kdAnnounce (mapOf 0x300080 24 0)), true, 0, coord kdAnnounce (mapOf 0x300080 24 0), whole_of (by decide +kernel) (by decide +kernel) (by decide +kernel), by decide +kernel, by decide +kernel, (0, 0, 0), by decide +kernel, by decide +kernel⟩,
   ⟨st 5 (fabRegs ++ [(Reg.poolMapBase, 0x300000), (Reg.poolMapLenBytes, 128), (Reg.epcNumber, 20), (Reg.fltDomainATray, 1), (Reg.fltDomainAShelf, 2), (Reg.fltDomainBLoop, 3), (Reg.fltDomainBSwitch, 4)]) {}, after' (st 5 (fabRegs ++ [(Reg.poolMapBase, 0x300000), (Reg.poolMapLenBytes, 128), (Reg.epcNumber, 20), (Reg.fltDomainATray, 1), (Reg.fltDomainAShelf, 2), (Reg.fltDomainBLoop, 3), (Reg.fltDomainBSwitch, 4)]) {}) (coord kdAnnounce (mapOf 0x300080 23 0xFFFF)), 0, 0, frameOf (coord kdAnnounce (mapOf 0x300080 23 0xFFFF)), true, 0, coord kdAnnounce (mapOf 0x300080 23 0xFFFF), whole_of (by decide +kernel) (by decide +kernel) (by decide +kernel), by decide +kernel, by decide +kernel, by decide +kernel, by decide +kernel, by decide +kernel⟩,
   ⟨st 5 (fabRegs ++ [(Reg.poolMapBase, 0x300000), (Reg.poolMapLenBytes, 128), (Reg.epcNumber, 20), (Reg.fltDomainATray, 1), (Reg.fltDomainAShelf, 2), (Reg.fltDomainBLoop, 3), (Reg.fltDomainBSwitch, 4)]) {}, after' (st 5 (fabRegs ++ [(Reg.poolMapBase, 0x300000), (Reg.poolMapLenBytes, 128), (Reg.epcNumber, 20), (Reg.fltDomainATray, 1), (Reg.fltDomainAShelf, 2), (Reg.fltDomainBLoop, 3), (Reg.fltDomainBSwitch, 4)]) {}) (coord kdAnnounce (mapOf 0x300080 24 0xFFFF)), 0, 0, frameOf (coord kdAnnounce (mapOf 0x300080 24 0xFFFF)), true, 0, coord kdAnnounce (mapOf 0x300080 24 0xFFFF), whole_of (by decide +kernel) (by decide +kernel) (by decide +kernel), by decide +kernel, by decide +kernel, by decide +kernel, by decide +kernel, by decide +kernel⟩⟩

theorem meets_CoordMessagesAreKept :
    (∃ (s u : State) (p t : Nat) (fr : List Byte) (fcs : Bool) (i : Nat) (z : Zft), ArrivesWhole s p t fr fcs i z u ∧ z.isCoord kdProbe = true)
    ∧ (∃ (s u : State) (p t : Nat) (fr : List Byte) (fcs : Bool) (i : Nat) (z : Zft), ArrivesWhole s p t fr fcs i z u ∧ (let b := z.data; z.isCoord kdHandoff = true ∧ 28 ≤ b.length ∧ fieldAt b (b.length - 4) 4 = Crypto.check32c (fieldAt b 8 8) ((b.drop 24).take (b.length - 28))))
    ∧ (∃ (s u : State) (p t : Nat) (fr : List Byte) (fcs : Bool) (i : Nat) (z : Zft), ArrivesWhole s p t fr fcs i z u ∧ z.isCoord kdHeartbeat = true)
    ∧ (∃ (s u : State) (p t : Nat) (fr : List Byte) (fcs : Bool) (i : Nat) (z : Zft), ArrivesWhole s p t fr fcs i z u ∧ (let b := z.data; ∃ map e, z.isCoord kdSet = true ∧ u.storedMap = some map ∧ e ∈ chunks 8 ((b.drop 24).take (8 * fieldAt b 18 2)) ∧ bit (fieldAt e 4 1) 7 = true ∧ fieldAt e 0 2 < mapMembers map ∧ u.dev.epoch ≤ fieldAt b 8 8 + 2))
    ∧ (∃ (s u : State) (p t : Nat) (fr : List Byte) (fcs : Bool) (i : Nat) (z : Zft), ArrivesWhole s p t fr fcs i z u ∧ (let b := z.data; z.isCoord kdDown = true ∧ (∀ x ∈ u.dev.job.downDue, x.2.1 ≠ fieldAt b 16 2)))
    ∧ (∃ (s u : State) (p t : Nat) (fr : List Byte) (fcs : Bool) (i : Nat) (z : Zft), ArrivesWhole s p t fr fcs i z u ∧ z.isCoord kdTags = true) :=
  ⟨⟨st 5 (fabRegs) {}, after' (st 5 (fabRegs) {}) (coord kdProbe (zeros 16)), 0, 0, frameOf (coord kdProbe (zeros 16)), true, 0, coord kdProbe (zeros 16), whole_of (by decide +kernel) (by decide +kernel) (by decide +kernel), by decide +kernel⟩,
   ⟨st 5 (fabRegs) {}, after' (st 5 (fabRegs) {}) (coord kdHandoff (zeros 8 ++ leBytes 4 (Crypto.check32c 0 []))), 0, 0, frameOf (coord kdHandoff (zeros 8 ++ leBytes 4 (Crypto.check32c 0 []))), true, 0, coord kdHandoff (zeros 8 ++ leBytes 4 (Crypto.check32c 0 [])), whole_of (by decide +kernel) (by decide +kernel) (by decide +kernel), by decide +kernel, by decide +kernel, by decide +kernel⟩,
   ⟨st 5 (fabRegs) {}, after' (st 5 (fabRegs) {}) (coord kdHeartbeat (zeros 16)), 0, 0, frameOf (coord kdHeartbeat (zeros 16)), true, 0, coord kdHeartbeat (zeros 16), whole_of (by decide +kernel) (by decide +kernel) (by decide +kernel), by decide +kernel⟩,
   ⟨st 5 (fabRegs ++ mapRegs) { pool := { haveMap := true } } [(.dram, 0x300000, mapOf 0x300000 0 0xFFFF)], after' (st 5 (fabRegs ++ mapRegs) { pool := { haveMap := true } } [(.dram, 0x300000, mapOf 0x300000 0 0xFFFF)]) (coord kdSet ([0, 0, 1, 0] ++ zeros 4 ++ [0, 0, 0, 0, 0x80, 0, 0, 0])), 0, 0, frameOf (coord kdSet ([0, 0, 1, 0] ++ zeros 4 ++ [0, 0, 0, 0, 0x80, 0, 0, 0])), true, 0, coord kdSet ([0, 0, 1, 0] ++ zeros 4 ++ [0, 0, 0, 0, 0x80, 0, 0, 0]), whole_of (by decide +kernel) (by decide +kernel) (by decide +kernel), mapOf 0x300000 0 0xFFFF, [0, 0, 0, 0, 0x80, 0, 0, 0], by decide +kernel, by decide +kernel, by decide +kernel, by decide +kernel, by decide +kernel, by decide +kernel⟩,
   ⟨st 5 (fabRegs) {}, after' (st 5 (fabRegs) {}) (coord kdDown (zeros 16)), 0, 0, frameOf (coord kdDown (zeros 16)), true, 0, coord kdDown (zeros 16), whole_of (by decide +kernel) (by decide +kernel) (by decide +kernel), by decide +kernel, by decide +kernel⟩,
   ⟨st 5 (fabRegs) {}, after' (st 5 (fabRegs) {}) (coord kdTags (zeros 16)), 0, 0, frameOf (coord kdTags (zeros 16)), true, 0, coord kdTags (zeros 16), whole_of (by decide +kernel) (by decide +kernel) (by decide +kernel), by decide +kernel⟩⟩

theorem meets_MapsTakeEffectAndStateIsClaimed :
    (∃ (s : State) (me : Nat), s.dev.epc.inCairn = true ∧ s.dev.on Reg.tntCtrlPoolEn = true ∧ s.dev.flag Reg.tntStatusMapPending = true ∧ s.dev.pool.pendingAt ≤ s.dev.epoch ∧ (let half := 1 - s.dev.rd Reg.tntStatusMapHalf; (let b := s.mapIn half; memberOf b (s.dev.rd Reg.fabNodeNodeId) = some me ∧ me < 65536 ∧ (memberPlan b me ≠ s.planId % 2 ^ 32 ∨ (memberRole b me ≠ 3 ∧ memberRole b me ≠ s.planRole)))))
    ∧ (∃ (s : State) (me : Nat), s.dev.epc.inCairn = true ∧ s.dev.on Reg.tntCtrlPoolEn = true ∧ s.dev.flag Reg.tntStatusMapPending = true ∧ s.dev.pool.pendingAt ≤ s.dev.epoch ∧ (let half := 1 - s.dev.rd Reg.tntStatusMapHalf; (let b := s.mapIn half; memberOf b (s.dev.rd Reg.fabNodeNodeId) = some me ∧ me < 65536 ∧ memberPlan b me = s.planId % 2 ^ 32 ∧ (memberRole b me = 3 ∨ memberRole b me = s.planRole))))
    ∧ (∃ (s : State), (s.dev.epc.inCairn = false ∨ s.dev.flag Reg.tntStatusMapPending = false ∨ s.dev.epoch < s.dev.pool.pendingAt))
    ∧ (∃ (s : State) (cohort shard kind : Nat) (shadow replica : Bool) (q : Claim), s.dev.epc.inCairn = true ∧ (s.dev.pool.claims.find? fun q => q.cohort = cohort && q.shard = shard && q.kind = kind && q.due = s.dev.epoch) = some q ∧ q.handoff = none ∧ shadow = false ∧ replica = false)
    ∧ (∃ (s : State) (cohort shard kind : Nat) (shadow replica : Bool) (steps : List (Nat × Step)) (q : Claim), s.dev.epc.inCairn = true ∧ (s.dev.pool.claims.find? fun q => q.cohort = cohort && q.shard = shard && q.kind = kind && q.due = s.dev.epoch) = some q ∧ (q.handoff.isSome = true ∨ shadow = true ∨ replica = true) ∧ (∀ c, (s.dev.sumpOf c).length + steps.length ≤ 4096)) :=
  ⟨⟨pendSt 0, 1, by decide +kernel, by decide +kernel, by decide +kernel, by decide +kernel, by decide +kernel, by decide +kernel, by decide +kernel⟩,
   ⟨pendSt 2, 1, by decide +kernel, by decide +kernel, by decide +kernel, by decide +kernel, by decide +kernel, by decide +kernel, by decide +kernel, by decide +kernel⟩,
   ⟨st 5 [], by decide +kernel⟩,
   ⟨st 5 [] { epc := { inCairn := true }, pool := { claims := [⟨7, 3, 1, 2, 0, none⟩] } }, 7, 3, 1, false, false, ⟨7, 3, 1, 2, 0, none⟩, by decide +kernel, by decide +kernel, by decide +kernel, by decide +kernel, by decide +kernel⟩,
   ⟨st 5 [] { epc := { inCairn := true }, pool := { claims := [⟨7, 3, 1, 2, 0, none⟩] } }, 7, 3, 1, true, false, [(255, ⟨hd 0, .note ⟨1, 0, 0⟩⟩)], ⟨7, 3, 1, 2, 0, none⟩, by decide +kernel, by decide +kernel, by decide +kernel, fun c => by simp [Dev.sumpOf, show (st 5 [] { epc := { inCairn := true }, pool := { claims := [⟨7, 3, 1, 2, 0, none⟩] } }).dev.seq.sump = [] by decide +kernel]⟩⟩

theorem meets_HeartbeatsAndTheDownSet :
    (∃ (s : State) (b : List Byte) (me : Nat), s.storedMap = some b ∧ s.selfMember = some me ∧ s.dev.job.beatSent ≠ some s.dev.epoch)
    ∧ (∃ (s : State) (b : List Byte) (me : Nat), s.storedMap = some b ∧ s.selfMember = some me ∧ s.dev.job.beatSent = some s.dev.epoch)
    ∧ (∃ (s : State) (b : List Byte) (me : Nat), s.storedMap = some b ∧ s.selfMember = some me ∧ relayed b = true ∧ isRelay me = true)
    ∧ (∃ (s : State) (b : List Byte) (me : Nat), s.storedMap = some b ∧ s.selfMember = some me ∧ ∃ m cause, me = s.actingCoordinator b ∧ m < mapMembers b ∧ m ≠ me ∧ memberOf b (memberNode b m) = some m ∧ memberNode b m ∉ s.dev.job.down ∧ memberNode b m ∉ s.dev.job.declared ∧ (∀ x ∈ s.dev.job.downDue, x.2.1 ≠ m) ∧ s.downCause b m = some cause)
    ∧ (∃ (s : State) (b : List Byte), s.storedMap = some b ∧ s.dev.epc.inCairn = true ∧ s.mapFirst = false)
    ∧ (∃ (s : State) (core : Nat), core < 8 ∧ core ∉ s.dev.job.retired ∧ bit (s.dev.rd Reg.fltStatusPairs) (core % 4) = true) :=
  ⟨⟨mapSt 5, mapOf 0x300000 0 0xFFFF, 1, by decide +kernel, by decide +kernel, by decide +kernel⟩,
   ⟨mapSt 5 { beatSent := some 0 }, mapOf 0x300000 0 0xFFFF, 1, by decide +kernel, by decide +kernel, by decide +kernel⟩,
   ⟨relaySt, relayMap, 1, by decide +kernel, by decide +kernel, by decide +kernel, by decide +kernel⟩,
   ⟨mapSt 3, mapOf 0x300000 0 0xFFFF, 0, by decide +kernel, by decide +kernel, 1, 0, by decide +kernel, by decide +kernel, by decide +kernel, by decide +kernel, by decide +kernel, by decide +kernel, by decide +kernel, by decide +kernel⟩,
   ⟨{ mapSt 5 with dev := { (mapSt 5).dev with epc := { inCairn := true } } }, mapOf 0x300000 0 0xFFFF, by decide +kernel, by decide +kernel, by decide +kernel⟩,
   ⟨st 5 [], 7, by decide +kernel, by decide +kernel, by decide +kernel⟩⟩

theorem meets_HostEntriesAreTestedFirst :
    ∃ (s : State) (d : Dev) (c : Instr) (op fn ring len : Nat) (entry : List Byte) (x : Dma) (late : Bool), HostEntry c op fn ring entry len x ∧ (s.dev.takeEntry fn ring = some (d, late)) :=
  ⟨ringSt 5 0 [] [], ((ringSt 5 0 [] []).dev.takeEntry 0 0).elim (ringSt 5 0 [] []).dev (·.1), .hostQuery 0 0 (queryEntry 64) queryBody noFail, opQuery, 0, 0, 56, queryEntry 64, noFail, false, .inl ⟨queryBody, rfl, rfl, by decide +kernel⟩, taken_of (by decide +kernel)⟩

theorem meets_HostEntriesAreCarriedOut :
    (∃ (s u : State) (fn ring : Nat) (entry record : List Byte) (x : Dma) (e : HostRef) (late : Bool), Fetches s opQuery fn ring entry (fieldAt entry 4 4) x e late u ∧ (let n := fieldAt entry 4 4; (let addr := fieldAt entry 24 8; (let cap := fieldAt entry 32 4; (let r : Request := { tenant := e.tenant, seq := e.seq, body := padTo n record, origin := .ring fn ring addr cap }; 24 ≤ n ∧ n ≤ 16408 ∧ Dev.zeros entry 2 2 = true ∧ Dev.zeros entry 36 28 = true ∧ addr % 64 = 0 ∧ 48 + 16 * queryK r.body ≤ cap ∧ queryOk r.body = true)))))
    ∧ (∃ (s u : State) (fn ring : Nat) (entry record : List Byte) (x : Dma) (e : HostRef) (late : Bool), Fetches s opQuery fn ring entry (fieldAt entry 4 4) x e late u ∧ (let n := fieldAt entry 4 4; (let addr := fieldAt entry 24 8; (let cap := fieldAt entry 32 4; (let r : Request := { tenant := e.tenant, seq := e.seq, body := padTo n record, origin := .ring fn ring addr cap }; 24 ≤ n ∧ n ≤ 16408 ∧ Dev.zeros entry 2 2 = true ∧ Dev.zeros entry 36 28 = true ∧ addr % 64 = 0 ∧ 48 + 16 * queryK r.body ≤ cap ∧ queryOk r.body = false)))))
    ∧ (∃ (s u : State) (fn ring : Nat) (entry body : List Byte) (x : Dma) (e : HostRef) (late : Bool), Fetches s opOperation fn ring entry (fieldAt entry 4 4) x e late u ∧ (let r : Request := { tenant := e.tenant, seq := e.seq, body := padTo (fieldAt entry 4 4) body, origin := .ring fn ring 0 0 }; Dev.zeros entry 2 2 = true ∧ Dev.zeros entry 24 40 = true ∧ opBodyOk r.body = true))
    ∧ (∃ (s u : State) (fn ring : Nat) (entry body : List Byte) (x : Dma) (e : HostRef) (late : Bool), Fetches s opOperation fn ring entry (fieldAt entry 4 4) x e late u ∧ (let r : Request := { tenant := e.tenant, seq := e.seq, body := padTo (fieldAt entry 4 4) body, origin := .ring fn ring 0 0 }; Dev.zeros entry 2 2 = true ∧ Dev.zeros entry 24 40 = true ∧ opBodyOk r.body = false))
    ∧ (∃ (s u : State) (fn ring : Nat) (entry list content : List Byte) (x : Dma) (e : HostRef) (late : Bool) (v : Nat), Fetches s opPlan fn ring entry (list.length + content.length) x e late u ∧ State.mgmtOk entry list content = true ∧ s.dev.host.plan = none ∧ (u.dev.tap4 0 content).2 = some v ∧ v = fieldAt entry 56 4 ∧ MemorySafe s)
    ∧ (∃ (s u : State) (fn ring : Nat) (entry list content : List Byte) (x : Dma) (e : HostRef) (late : Bool) (v : Nat), Fetches s opPlan fn ring entry (list.length + content.length) x e late u ∧ State.mgmtOk entry list content = true ∧ s.dev.host.plan = none ∧ (u.dev.tap4 0 content).2 = some v ∧ v ≠ fieldAt entry 56 4)
    ∧ (∃ (s u : State) (fn ring t : Nat) (entry list content : List Byte) (x : Dma) (e : HostRef) (late : Bool) (v : Nat), Fetches (s.onDev (·.clock t)) opImage fn ring entry (list.length + content.length) x e late u ∧ State.mgmtOk entry list content = true ∧ Dev.zeros entry 24 8 = true ∧ content.length ≤ u.imageMax ∧ s.dev.mon.load = none ∧ (u.dev.tap4 0 content).2 = some v ∧ v = fieldAt entry 56 4 ∧ s.dev.inState stReady = true)
    ∧ (∃ (s u : State) (fn ring t : Nat) (entry list content : List Byte) (x : Dma) (e : HostRef) (late : Bool) (v : Nat), Fetches (s.onDev (·.clock t)) opImage fn ring entry (list.length + content.length) x e late u ∧ State.mgmtOk entry list content = true ∧ Dev.zeros entry 24 8 = true ∧ content.length ≤ u.imageMax ∧ s.dev.mon.load = none ∧ (u.dev.tap4 0 content).2 = some v ∧ v = fieldAt entry 56 4 ∧ s.dev.inState stRecovery = true) :=
  ⟨⟨ringSt 5 0 [] [], fetched (ringSt 5 0 [] []) (fieldAt (queryEntry 64) 4 4) (Dev.entryRef 0 0 (queryEntry 64)), 0, 0, queryEntry 64, queryBody, noFail, Dev.entryRef 0 0 (queryEntry 64), false, fetches_of (by decide +kernel) (by decide +kernel) (by decide +kernel) (by decide +kernel), by decide +kernel, by decide +kernel, by decide +kernel, by decide +kernel, by decide +kernel, by decide +kernel, by decide +kernel⟩,
   ⟨ringSt 5 0 [] [], fetched (ringSt 5 0 [] []) (fieldAt (queryEntry 64) 4 4) (Dev.entryRef 0 0 (queryEntry 64)), 0, 0, queryEntry 64, queryBody.set 10 9, noFail, Dev.entryRef 0 0 (queryEntry 64), false, fetches_of (by decide +kernel) (by decide +kernel) (by decide +kernel) (by decide +kernel), by decide +kernel, by decide +kernel, by decide +kernel, by decide +kernel, by decide +kernel, by decide +kernel, by decide +kernel⟩,
   ⟨ringSt 5 0 [] [], fetched (ringSt 5 0 [] []) (fieldAt opEntry 4 4) (Dev.entryRef 0 0 (opEntry)), 0, 0, opEntry, [3] ++ zeros 47, noFail, Dev.entryRef 0 0 (opEntry), false, fetches_of (by decide +kernel) (by decide +kernel) (by decide +kernel) (by decide +kernel), by decide +kernel, by decide +kernel, by decide +kernel⟩,
   ⟨ringSt 5 0 [] [], fetched (ringSt 5 0 [] []) (fieldAt opEntry 4 4) (Dev.entryRef 0 0 (opEntry)), 0, 0, opEntry, [9] ++ zeros 47, noFail, Dev.entryRef 0 0 (opEntry), false, fetches_of (by decide +kernel) (by decide +kernel) (by decide +kernel) (by decide +kernel), by decide +kernel, by decide +kernel, by decide +kernel⟩,
   ⟨ringSt 5 2 [] [], fetched (ringSt 5 2 [] []) ((oneBuf 64).length + (zeros 64).length) (Dev.entryRef 0 0 (mgmtEntry 0x20 (chk 0) (zeros 64))), 0, 0, mgmtEntry 0x20 (chk 0) (zeros 64), oneBuf 64, zeros 64, noFail, Dev.entryRef 0 0 (mgmtEntry 0x20 (chk 0) (zeros 64)), false, chk 0, fetches_of (by decide +kernel) (by decide +kernel) (by decide +kernel) (by decide +kernel), by decide +kernel, rfl, by decide +kernel, by decide +kernel, safe_of (by decide +kernel)⟩,
   ⟨ringSt 5 2 [] [], fetched (ringSt 5 2 [] []) ((oneBuf 64).length + (zeros 64).length) (Dev.entryRef 0 0 (mgmtEntry 0x20 (chk 9) (zeros 64))), 0, 0, mgmtEntry 0x20 (chk 9) (zeros 64), oneBuf 64, zeros 64, noFail, Dev.entryRef 0 0 (mgmtEntry 0x20 (chk 9) (zeros 64)), false, chk 0, fetches_of (by decide +kernel) (by decide +kernel) (by decide +kernel) (by decide +kernel), by decide +kernel, rfl, by decide +kernel, by decide +kernel⟩,
   ⟨ringSt stReady 2 [] [], fetched (State.onDev (ringSt stReady 2 [] []) (·.clock 0)) ((oneBuf 64).length + (zeros 64).length) (Dev.entryRef 0 0 (mgmtEntry 0x21 (chk 0) (zeros 64))), 0, 0, 0, mgmtEntry 0x21 (chk 0) (zeros 64), oneBuf 64, zeros 64, noFail, Dev.entryRef 0 0 (mgmtEntry 0x21 (chk 0) (zeros 64)), false, chk 0, fetches_of (by decide +kernel) (by decide +kernel) (by decide +kernel) (by decide +kernel), by decide +kernel, by decide +kernel, by decide +kernel, by decide +kernel, by decide +kernel, by decide +kernel, by decide +kernel⟩,
   ⟨ringSt stRecovery 2 [] [], fetched (State.onDev (ringSt stRecovery 2 [] []) (·.clock 0)) ((oneBuf 64).length + (zeros 64).length) (Dev.entryRef 0 0 (mgmtEntry 0x21 (chk 0) (zeros 64))), 0, 0, 0, mgmtEntry 0x21 (chk 0) (zeros 64), oneBuf 64, zeros 64, noFail, Dev.entryRef 0 0 (mgmtEntry 0x21 (chk 0) (zeros 64)), false, chk 0, fetches_of (by decide +kernel) (by decide +kernel) (by decide +kernel) (by decide +kernel), by decide +kernel, by decide +kernel, by decide +kernel, by decide +kernel, by decide +kernel, by decide +kernel, by decide +kernel⟩⟩

theorem meets_BulkLoadsReachTheirHome :
    (∃ (s u : State) (c : Instr) (entry content : List Byte) (p : Place) (e : HostRef) (r : HomeRec) (v : Nat), BulkStarts c s entry content true p e u ∧ (let flags := fieldAt entry 2 2; (let datum := fieldAt entry 24 4; (let tier := fieldAt entry 32 1; (let dest := if fieldAt entry 48 8 = 0 then p.dest else fieldAt entry 48 8; (let want := fieldAt entry 56 4; flags < 8 ∧ bit flags 2 = false ∧ Dev.zeros entry 28 4 = true ∧ Dev.zeros entry 33 3 = true ∧ Dev.zeros entry 60 4 = true ∧ tier < 2 ∧ TableAlone s ∧ (∀ n, n < s.dev.val Reg.homeCount → (s.homeGet n).isSome = true) ∧ datum < s.dev.val Reg.homeCount ∧ s.homeGet datum = some r ∧ bit flags 0 = true ∧ r.state = hsEmpty ∧ p.referrer ≤ 2 ∧ (p.referrer = 1 → dest % 65536 = 0) ∧ (let len := roundUp content.length (if p.referrer = 1 then 65536 else 64); s.inTierRange tier dest len = true ∧ s.homeOverlap tier dest len = none ∧ (u.dev.tap4 dest content).2 = some v ∧ (u.dev.charge e.tenant tier (u.dev.chargeOf tier len)).2 = true ∧ e.tenant < 64 ∧ v = want ∧ MemorySafe s ∧ Quiet s ∧ s.dev.cvu.faulty = [] ∧ PlainAt s dest len ∧ (∀ i j, i < len → j < 64 → s.xlate (dest + i) ≠ s.xlate (s.homeAddr datum + j)))))))))
    ∧ (∃ (s u : State) (c : Instr) (entry content : List Byte) (p : Place) (e : HostRef) (r : HomeRec) (v : Nat), BulkStarts c s entry content true p e u ∧ (let flags := fieldAt entry 2 2; (let datum := fieldAt entry 24 4; (let tier := fieldAt entry 32 1; (let dest := if fieldAt entry 48 8 = 0 then p.dest else fieldAt entry 48 8; (let want := fieldAt entry 56 4; flags < 8 ∧ bit flags 2 = false ∧ Dev.zeros entry 28 4 = true ∧ Dev.zeros entry 33 3 = true ∧ Dev.zeros entry 60 4 = true ∧ tier < 2 ∧ TableAlone s ∧ (∀ n, n < s.dev.val Reg.homeCount → (s.homeGet n).isSome = true) ∧ datum < s.dev.val Reg.homeCount ∧ s.homeGet datum = some r ∧ bit flags 0 = true ∧ r.state = hsEmpty ∧ p.referrer ≤ 2 ∧ (p.referrer = 1 → dest % 65536 = 0) ∧ (let len := roundUp content.length (if p.referrer = 1 then 65536 else 64); s.inTierRange tier dest len = true ∧ s.homeOverlap tier dest len = none ∧ (u.dev.tap4 dest content).2 = some v ∧ (u.dev.charge e.tenant tier (u.dev.chargeOf tier len)).2 = true ∧ e.tenant < 64 ∧ v ≠ want)))))))
    ∧ (∃ (s u : State) (c : Instr) (entry content : List Byte) (p : Place) (e : HostRef) (r : HomeRec), BulkStarts c s entry content true p e u ∧ (let flags := fieldAt entry 2 2; (let datum := fieldAt entry 24 4; (let tier := fieldAt entry 32 1; (let dest := if fieldAt entry 48 8 = 0 then p.dest else fieldAt entry 48 8; (let want := fieldAt entry 56 4; flags < 8 ∧ bit flags 2 = false ∧ Dev.zeros entry 28 4 = true ∧ Dev.zeros entry 33 3 = true ∧ Dev.zeros entry 60 4 = true ∧ tier < 2 ∧ TableAlone s ∧ (∀ n, n < s.dev.val Reg.homeCount → (s.homeGet n).isSome = true) ∧ datum < s.dev.val Reg.homeCount ∧ s.homeGet datum = some r ∧ bit flags 0 = false ∧ r.state = hsHome ∧ r.tier ≠ 2 ∧ r.referrer ≠ 1 ∧ content.length ≤ r.length ∧ s.inTierRange tier dest r.length = true ∧ s.homeOverlap tier dest r.length = none ∧ (u.dev.tap4 dest content).2 = some want ∧ (u.dev.charge (ownerOf r) tier (u.dev.chargeOf tier r.length)).2 = true ∧ MemorySafe s ∧ Quiet s ∧ s.dev.cvu.faulty = [])))))) :=
  ⟨⟨ringSt 5 1 homeRegs (homeAt (homeRec 0)), fetched (ringSt 5 1 homeRegs (homeAt (homeRec 0))) ((oneBuf 64).length + (zeros 64).length) (Dev.entryRef 0 0 (bulkEntry 1 (chk 0x40000))), .bulkLoad 0 0 (bulkEntry 1 (chk 0x40000)) (oneBuf 64) (zeros 64) noFail ⟨0, 0, false⟩, bulkEntry 1 (chk 0x40000), zeros 64, ⟨0, 0, false⟩, Dev.entryRef 0 0 (bulkEntry 1 (chk 0x40000)), homeRec 0, chk 0x40000, .inl ⟨0, 0, oneBuf 64, noFail, false, rfl, by decide +kernel, fetches_of (by decide +kernel) (by decide +kernel) (by decide +kernel) (by decide +kernel)⟩, by decide +kernel, by decide +kernel, by decide +kernel, by decide +kernel, by decide +kernel, by decide +kernel, tableAlone (by decide +kernel) (by decide +kernel), by decide +kernel, by decide +kernel, by decide +kernel, by decide +kernel, by decide +kernel, by decide +kernel, by decide +kernel, by decide +kernel, by decide +kernel, by decide +kernel, by decide +kernel, by decide +kernel, by decide +kernel, safe_of (by decide +kernel), quiet_of (by decide +kernel), by decide +kernel, plainAt (by decide +kernel) (by decide +kernel) (by decide +kernel), apart_of (by decide +kernel) (by decide +kernel) (by decide +kernel) (by decide +kernel)⟩,
   ⟨ringSt 5 1 homeRegs (homeAt (homeRec 0)), fetched (ringSt 5 1 homeRegs (homeAt (homeRec 0))) ((oneBuf 64).length + (zeros 64).length) (Dev.entryRef 0 0 (bulkEntry 1 (chk 9))), .bulkLoad 0 0 (bulkEntry 1 (chk 9)) (oneBuf 64) (zeros 64) noFail ⟨0, 0, false⟩, bulkEntry 1 (chk 9), zeros 64, ⟨0, 0, false⟩, Dev.entryRef 0 0 (bulkEntry 1 (chk 9)), homeRec 0, chk 0x40000, .inl ⟨0, 0, oneBuf 64, noFail, false, rfl, by decide +kernel, fetches_of (by decide +kernel) (by decide +kernel) (by decide +kernel) (by decide +kernel)⟩, by decide +kernel, by decide +kernel, by decide +kernel, by decide +kernel, by decide +kernel, by decide +kernel, tableAlone (by decide +kernel) (by decide +kernel), by decide +kernel, by decide +kernel, by decide +kernel, by decide +kernel, by decide +kernel, by decide +kernel, by decide +kernel, by decide +kernel, by decide +kernel, by decide +kernel, by decide +kernel, by decide +kernel, by decide +kernel⟩,
   ⟨ringSt 5 1 homeRegs (homeAt (homeRec 1)), fetched (ringSt 5 1 homeRegs (homeAt (homeRec 1))) ((oneBuf 64).length + (zeros 64).length) (Dev.entryRef 0 0 (bulkEntry 0 (chk 0x40000))), .bulkLoad 0 0 (bulkEntry 0 (chk 0x40000)) (oneBuf 64) (zeros 64) noFail ⟨0, 0, false⟩, bulkEntry 0 (chk 0x40000), zeros 64, ⟨0, 0, false⟩, Dev.entryRef 0 0 (bulkEntry 0 (chk 0x40000)), homeRec 1, .inl ⟨0, 0, oneBuf 64, noFail, false, rfl, by decide +kernel, fetches_of (by decide +kernel) (by decide +kernel) (by decide +kernel) (by decide +kernel)⟩, by decide +kernel, by decide +kernel, by decide +kernel, by decide +kernel, by decide +kernel, by decide +kernel, tableAlone (by decide +kernel) (by decide +kernel), by decide +kernel, by decide +kernel, by decide +kernel, by decide +kernel, by decide +kernel, by decide +kernel, by decide +kernel, by decide +kernel, by decide +kernel, by decide +kernel, by decide +kernel, by decide +kernel, safe_of (by decide +kernel), quiet_of (by decide +kernel), by decide +kernel⟩⟩

theorem meets_RingsAndCompletions :
    (∃ (s : State) (fn ring v : Nat), fn < 32 ∧ ring < 16 ∧ s.dev.ringLive fn ring = true ∧ (let n := s.dev.sqSize fn ring; (let head := s.dev.rd (Reg.ringPtrsSqHead fn ring); (let bad := n ≤ v % 65536 ∨ Dev.ringDist n head (v % 65536) < Dev.ringDist n head (s.dev.sqTail fn ring); (¬ bad)))))
    ∧ (∃ (s : State) (fn ring v : Nat), fn < 32 ∧ ring < 16 ∧ s.dev.ringLive fn ring = true ∧ (let n := s.dev.sqSize fn ring; (let head := s.dev.rd (Reg.ringPtrsSqHead fn ring); (let bad := n ≤ v % 65536 ∨ Dev.ringDist n head (v % 65536) < Dev.ringDist n head (s.dev.sqTail fn ring); bad))))
    ∧ (∃ (s : State) (fn ring v : Nat), fn < 32 ∧ ring < 16 ∧ s.dev.ringLive fn ring = true ∧ (let n := s.dev.cqSize fn ring; (let tail := s.dev.rd (Reg.ringPtrsCqTail fn ring); (let bad := n ≤ v % 65536 ∨ Dev.ringDist n (s.dev.cqHead fn ring) tail < Dev.ringDist n (s.dev.cqHead fn ring) (v % 65536); (¬ bad)))))
    ∧ (∃ (s : State) (fn ring v : Nat), fn < 32 ∧ ring < 16 ∧ s.dev.ringLive fn ring = true ∧ (let n := s.dev.cqSize fn ring; (let tail := s.dev.rd (Reg.ringPtrsCqTail fn ring); (let bad := n ≤ v % 65536 ∨ Dev.ringDist n (s.dev.cqHead fn ring) tail < Dev.ringDist n (s.dev.cqHead fn ring) (v % 65536); bad))))
    ∧ (∃ (s : State) (k : Nat) (x : Dma) (c : Completion), s.dev.host.ended[k]? = some c ∧ c.gone = false ∧ s.dev.ringLive c.fn c.ring = true ∧ s.dev.dmaFails x (if c.addr ≠ 0 then c.addr else s.dev.rd (Reg.cqBase c.fn c.ring)) = none ∧ s.dev.cqFull c.fn c.ring = false)
    ∧ (∃ (s : State) (k : Nat) (x : Dma) (c : Completion), s.dev.host.ended[k]? = some c ∧ c.gone = false ∧ s.dev.ringLive c.fn c.ring = true ∧ s.dev.dmaFails x (if c.addr ≠ 0 then c.addr else s.dev.rd (Reg.cqBase c.fn c.ring)) = none ∧ s.dev.cqFull c.fn c.ring = true ∧ s.dev.host.hold.length < 4096)
    ∧ (∃ (s : State) (k : Nat) (x : Dma) (c : Completion), s.dev.host.ended[k]? = some c ∧ c.gone = false ∧ s.dev.ringLive c.fn c.ring = true ∧ s.dev.dmaFails x (if c.addr ≠ 0 then c.addr else s.dev.rd (Reg.cqBase c.fn c.ring)) = none ∧ s.dev.cqFull c.fn c.ring = true ∧ 4096 ≤ s.dev.host.hold.length)
    ∧ (∃ (s : State) (fn ring t n since : Nat), s.dev.ringOn fn ring = true ∧ t < 2 ^ 64 ∧ ((s.dev.host.unsignalled.find? (·.1 = ringKey fn ring)) = some (ringKey fn ring, n, since)) ∧ (s.dev.rd (Reg.ringIntIntCount fn ring) ≤ n ∨ since + 1000 * s.dev.rd (Reg.ringIntIntUs fn ring) ≤ max s.dev.now t))
    ∧ (∃ (s : State) (fn ring : Nat), fn < 32 ∧ ring < 16 ∧ s.dev.inState stSleep = false) :=
  ⟨⟨st 5 (ringRegs 0) { host := {  } }, 0, 0, 3, by decide +kernel, by decide +kernel, by decide +kernel, by decide +kernel⟩,
   ⟨st 5 (ringRegs 0) { host := {  } }, 0, 0, 16, by decide +kernel, by decide +kernel, by decide +kernel, by decide +kernel⟩,
   ⟨st 5 (ringRegs 0) { host := {  } }, 0, 0, 0, by decide +kernel, by decide +kernel, by decide +kernel, by decide +kernel⟩,
   ⟨st 5 (ringRegs 0) { host := {  } }, 0, 0, 5, by decide +kernel, by decide +kernel, by decide +kernel, by decide +kernel⟩,
   ⟨st 5 (ringRegs 0) { host := { ended := [⟨0, 0, 0, 9, 0, 0, 0, 0, 0, 0, false⟩] } }, 0, noFail, ⟨0, 0, 0, 9, 0, 0, 0, 0, 0, 0, false⟩, by decide +kernel, by decide +kernel, by decide +kernel, by decide +kernel, by decide +kernel⟩,
   ⟨st 5 (ringRegs 0 ++ [(Reg.ringPtrsCqTail 0 0, 15)]) { host := { ended := [⟨0, 0, 0, 9, 0, 0, 0, 0, 0, 0, false⟩] } }, 0, noFail, ⟨0, 0, 0, 9, 0, 0, 0, 0, 0, 0, false⟩, by decide +kernel, by decide +kernel, by decide +kernel, by decide +kernel, by decide +kernel, by decide +kernel⟩,
   ⟨st 5 (ringRegs 0 ++ [(Reg.ringPtrsCqTail 0 0, 15)]) { host := { ended := [⟨0, 0, 0, 9, 0, 0, 0, 0, 0, 0, false⟩], hold := List.replicate 4096 ⟨0, 0, 0, 9, 0, 0, 0, 0, 0, 0, false⟩ } }, 0, noFail, ⟨0, 0, 0, 9, 0, 0, 0, 0, 0, 0, false⟩, by decide +kernel, by decide +kernel, by decide +kernel, by decide +kernel, by decide +kernel, by decide +kernel⟩,
   ⟨st 5 (ringRegs 0) { host := { unsignalled := [(0, 5000, 0)] } }, 0, 0, 0, 5000, 0, by decide +kernel, by decide +kernel, by decide +kernel, by decide +kernel⟩,
   ⟨st 5 [], 31, 15, by decide +kernel, by decide +kernel, by decide +kernel⟩⟩

theorem meets_HostResetsAndLink :
    (∃ (fn : Nat), fn < 32)
    ∧ (∃ (s : State), s.dev.inState stSleep = false)
    ∧ (∃ (s : State) (stream : Nat), stream ∈ s.dev.host.keyed)
    ∧ (∃ (s : State) (rate width : Nat), s.dev.inState stSleep = false ∧ rate ≤ 5 ∧ (width ∈ [1, 4, 8, 16]))
    ∧ (∃ (s : State) (a n : Nat), s.dev.inState stSleep = false ∧ a + n ≤ 0x400000000) :=
  ⟨⟨31, by decide⟩,
   ⟨st 5 [], by decide +kernel⟩,
   ⟨st 5 [] { host := { keyed := [4] } }, 4, by decide +kernel⟩,
   ⟨st 5 [], 5, 16, by decide +kernel, by decide, by decide⟩,
   ⟨st 5 [], 0x3FFFFFFFF, 1, by decide +kernel, by decide⟩⟩

theorem meets_RegisterAccesses :
    (∃ (s : State) (off size v : Nat) (e : WriteEnv), PlainReg off size ∧ s.dev.inState stSleep = false ∧ s.dev.accepts agHost off = true ∧ e.t ≤ s.dev.now ∧ (∀ f ∈ Reg.fieldsAt off, f.acc = .rw → s.dev.gateOpen f (bits v f.lsb f.width) = true ∧ Dev.inRange f (bits v f.lsb f.width) = true))
    ∧ (∃ (s : State) (off size : Nat) (e : WriteEnv), PlainReg off size ∧ s.dev.inState stSleep = false ∧ s.dev.accepts agHost off = true ∧ e.t ≤ s.dev.now)
    ∧ (∃ (s : State) (off : Nat) (e : WriteEnv), s.dev.inState stSleep = false ∧ off < 0x4000000 ∧ off % 4 = 0 ∧ e.t ≤ s.dev.now ∧ s.dev.accepts agHost off = false)
    ∧ (∃ (s : State) (off : Nat) (e : WriteEnv), s.dev.inState stSleep = false ∧ off < 0x4000000 ∧ off % 4 = 0 ∧ e.t ≤ s.dev.now ∧ s.dev.accepts agHost off = true ∧ Reg.listed off = false ∧ Reg.inDebug off = false)
    ∧ (∃ (s : State) (agent off : Nat), agent < 3 ∧ Ctr.isCounter off = true ∧ Reg.listed off = true ∧ Reg.inDebug off = false ∧ Reg.inHeaders off = false ∧ s.dev.inState stSleep = false ∧ s.dev.accepts agent off = true ∧ off % 4 = 0 ∧ off < 0x4000000)
    ∧ (∃ (s : State) (agent off : Nat), agent < 3 ∧ Ctr.isCounter off = true ∧ Reg.listed off = true ∧ Reg.inDebug off = false ∧ Reg.inHeaders off = false ∧ s.dev.inState stSleep = false ∧ s.dev.accepts agent off = true ∧ off % 8 = 0 ∧ off < 0x4000000)
    ∧ (∃ (s : State) (agent off hi : Nat), agent < 3 ∧ Ctr.isCounter off = true ∧ Reg.listed (off + 4) = true ∧ Reg.inDebug (off + 4) = false ∧ Reg.inHeaders (off + 4) = false ∧ Reg.wide (off + 4) = false ∧ Ctr.isCounter (off + 4) = false ∧ off % 4 = 0 ∧ off + 4 < 0x4000000 ∧ s.dev.inState stSleep = false ∧ s.dev.accepts agent (off + 4) = true ∧ ((s.dev.latch.read.find? fun x => x.1 = agent && x.2.1 = off) = some (agent, off, hi)))
    ∧ (∃ (s : State) (agent c : Nat), agent < 3 ∧ c < 256 ∧ s.dev.inState stSleep = false ∧ s.dev.accepts agent (Reg.sumpPeak c).off = true)
    ∧ (∃ (s : State) (off size : Nat), s.dev.inState stSleep = false ∧ off < 0x4000000 ∧ (¬ ((size = 4 ∧ off % 4 = 0) ∨ (size = 8 ∧ off % 8 = 0)))) :=
  ⟨⟨st 5 [], 0x80004, 4, 9, envNow, plain_of (by decide +kernel), by decide +kernel, by decide +kernel, by decide +kernel, by decide +kernel⟩,
   ⟨st 5 [], 0x80004, 4, envNow, plain_of (by decide +kernel), by decide +kernel, by decide +kernel, by decide +kernel⟩,
   ⟨st 3 [], 0x80004, envNow, by decide +kernel, by decide +kernel, by decide +kernel, by decide +kernel, by decide +kernel⟩,
   ⟨st 5 [], 0x2C0000, envNow, by decide +kernel, by decide +kernel, by decide +kernel, by decide +kernel, by decide +kernel, by decide +kernel, by decide +kernel⟩,
   ⟨st 5 [], 0, Ctr.flsFolds, by decide +kernel, by decide +kernel, by decide +kernel, by decide +kernel, by decide +kernel, by decide +kernel, by decide +kernel, by decide +kernel, by decide +kernel⟩,
   ⟨st 5 [], 0, Ctr.flsFolds, by decide +kernel, by decide +kernel, by decide +kernel, by decide +kernel, by decide +kernel, by decide +kernel, by decide +kernel, by decide +kernel, by decide +kernel⟩,
   ⟨st 5 [] { latch := { read := [(0, Ctr.flsFolds, 7)] } }, 0, Ctr.flsFolds, 7, by decide +kernel, by decide +kernel, by decide +kernel, by decide +kernel, by decide +kernel, by decide +kernel, by decide +kernel, by decide +kernel, by decide +kernel, by decide +kernel, by decide +kernel, by decide +kernel⟩,
   ⟨st 5 [], 2, 255, by decide +kernel, by decide +kernel, by decide +kernel, by decide +kernel⟩,
   ⟨st 5 [], 2, 4, by decide +kernel, by decide +kernel, by decide +kernel⟩⟩

theorem meets_WideWritesGoThroughTheLatch :
    (∃ (s : State) (agent off : Nat), agent < 3 ∧ Reg.wide off = true ∧ Reg.listed off = true ∧ Reg.inDebug off = false ∧ Reg.inHeaders off = false ∧ State.writable off = true ∧ s.dev.inState stSleep = false ∧ s.dev.accepts agent off = true)
    ∧ (∃ (s : State) (off v : Nat) (e : WriteEnv), PlainReg off 8 ∧ State.writable off = true ∧ Reg.listed (off + 4) = true ∧ Reg.inDebug (off + 4) = false ∧ Reg.inHeaders (off + 4) = false ∧ Reg.wide (off + 4) = false ∧ s.dev.inState stSleep = false ∧ s.dev.accepts agHost (off + 4) = true ∧ e.t ≤ s.dev.now ∧ (let whole := v % 2 ^ 32 * 2 ^ 32 + State.latchGet s.dev agHost off; (∀ f ∈ Reg.fieldsAt off, f.acc = .rw → s.dev.gateOpen f (bits whole f.lsb f.width) = true ∧ Dev.inRange f (bits whole f.lsb f.width) = true)))
    ∧ (∃ (s : State) (off v : Nat) (e : WriteEnv), PlainReg off 8 ∧ s.dev.inState stSleep = false ∧ s.dev.accepts agHost off = true ∧ e.t ≤ s.dev.now ∧ (∀ f ∈ Reg.fieldsAt off, f.acc = .rw → s.dev.gateOpen f (bits v f.lsb f.width) = true ∧ Dev.inRange f (bits v f.lsb f.width) = true))
    ∧ (∃ (d : Dev) (agent off : Nat), (∀ x ∈ d.latch.write, x.1 = agent → x.2.1 ≠ off)) :=
  ⟨⟨st 5 [], 2, 0x110010, by decide +kernel, by decide +kernel, by decide +kernel, by decide +kernel, by decide +kernel, by decide +kernel, by decide +kernel, by decide +kernel⟩,
   ⟨st 5 [], 0x110010, 1, envNow, plain_of (by decide +kernel), by decide +kernel, by decide +kernel, by decide +kernel, by decide +kernel, by decide +kernel, by decide +kernel, by decide +kernel, by decide +kernel, by decide +kernel⟩,
   ⟨st 5 [], 0x110010, 0x1000, envNow, plain_of (by decide +kernel), by decide +kernel, by decide +kernel, by decide +kernel, by decide +kernel⟩,
   ⟨{}, 2, 0x110010, by decide +kernel⟩⟩

theorem meets_ApplyPointsPutValuesIntoEffect :
    ∃ (s : State), s.dev.running = false ∧ s.dev.inState stSleep = false ∧ (∀ f ∈ s.dev.regs.waiting, ∀ g ∈ s.dev.regs.waiting, f.key = g.key → f = g) ∧ (∀ f ∈ s.dev.regs.waiting, ∀ g ∈ applyFields, g.key ≠ f.key) ∧ (∀ f ∈ s.dev.regs.waiting, ∀ c ∈ .epcLen :: cairnCouples, ∀ g ∈ c.fields, f.key = g.key → f = g) :=
  ⟨st 5 [] { regs := { waiting := [Reg.egsSamplePeriod] } }, by decide +kernel, by decide +kernel, by decide +kernel, by decide +kernel, by decide +kernel⟩

theorem meets_TheMonitorAnswersLines :
    (∃ (s : State) (line a : List Char) (off : Nat), (MonLine s line ['R', 'D'] [a]) ∧ parseHex a = some off ∧ off % 4 = 0 ∧ off + 4 ≤ 0x4000000)
    ∧ (∃ (s : State) (line a b : List Char) (off v : Nat), (MonLine s line ['W', 'R'] [a, b]) ∧ parseHex a = some off ∧ parseHex b = some v ∧ off % 4 = 0 ∧ off + 4 ≤ 0x4000000 ∧ v < 2 ^ 32)
    ∧ (∃ (s : State) (line a : List Char) (off : Nat), (MonLine s line ['C', 'N', 'T'] [a]) ∧ parseHex a = some off ∧ off % 8 = 0 ∧ off + 8 ≤ 0x4000000 ∧ Ctr.isCounter off = true ∧ (∀ o ∈ [off, off + 4], Reg.inDebug o = false ∧ Reg.listed o = true ∧ Reg.inHeaders o = false ∧ s.dev.accepts agMonitor o = true) ∧ Reg.wide (off + 4) = false ∧ Ctr.isCounter (off + 4) = false)
    ∧ (∃ (s : State) (line a b : List Char) (addr n : Nat), (MonLine s line ['M', 'E', 'M'] [a, b]) ∧ parseHex a = some addr ∧ parseHex b = some n ∧ 1 ≤ n ∧ n ≤ 4096 ∧ State.inTier addr n = true ∧ (addr < 0x1000000000 ∧ s.dev.bootToDrain = true ∨ s.dev.readyToDrain = true))
    ∧ (∃ (s : State) (line : List Char), (MonLine s line ['F', 'A', 'U', 'L', 'T', 'S'] []))
    ∧ (∃ (s : State) (line : List Char), (MonLine s line ['S', 'T', 'A', 'T', 'E'] []))
    ∧ (∃ (s : State) (line : List Char), (MonLine s line ['S', 'E', 'N', 'S', 'O', 'R', 'S'] []))
    ∧ (∃ (s : State) (line : List Char), (MonLine s line ['L', 'I', 'N', 'K', 'S'] []))
    ∧ (∃ (s : State) (line a : List Char), (MonLine s line ['D', 'E', 'B', 'U', 'G'] [a]) ∧ (a.map upper = ['O', 'N']))
    ∧ (∃ (s : State) (line a : List Char), (MonLine s line ['D', 'E', 'B', 'U', 'G'] [a]) ∧ (a.map upper = ['O', 'F', 'F']))
    ∧ (∃ (s : State) (n : Nat), s.listening false = true ∧ 255 < n)
    ∧ (∃ (s : State) (line w : List Char) (args : List (List Char)), words line = w :: args ∧ s.listening false = true ∧ line.length ≤ 255 ∧ w.map upper ∉ keywords)
    ∧ (∃ (s : State) (line : List Char) (args : List (List Char)) (c : Instr), ((c = .loadCmd line ∧ MonLine s line ['L', 'O', 'A', 'D'] args ∧ s.dev.inState stRecovery = false ∧ s.dev.inState stReady = false) ∨ (∃ t bad, c = .norwrite line t bad ∧ MonLine s line ['N', 'O', 'R', 'W', 'R', 'I', 'T', 'E'] args ∧ s.dev.inState stRecovery = false ∧ s.dev.inState stReady = false) ∨ (c = .bootstaged line ∧ MonLine s line ['B', 'O', 'O', 'T', 'S', 'T', 'A', 'G', 'E', 'D'] args ∧ s.dev.inState stRecovery = false) ∨ (∃ t, c = .stepCmd line t ∧ MonLine s line ['S', 'T', 'E', 'P'] args ∧ (s.dev.inState stReady = false ∨ s.dev.rd Reg.poolMapVersionCurrent ≠ 0 ∨ s.dev.flag (Reg.plnStatusValid s.dev.activeBank) = false)))) :=
  ⟨⟨st 5 [], ['r', 'd', ' ', '0', 'x', '8', '_', '0', '0', '0', '4'], ['0', 'x', '8', '_', '0', '0', '0', '4'], 0x80004, line_of (by decide +kernel) (by decide +kernel) ⟨by decide, by simp⟩, by decide +kernel, by decide +kernel, by decide +kernel⟩,
   ⟨st 5 [], ['W', 'R', ' ', '8', '0', '0', '0', '4', ' ', 'F', 'F', 'F', 'F', 'F', 'F', 'F', 'F'], ['8', '0', '0', '0', '4'], ['F', 'F', 'F', 'F', 'F', 'F', 'F', 'F'], 0x80004, 0xFFFFFFFF, line_of (by decide +kernel) (by decide +kernel) ⟨by decide, by simp⟩, by decide +kernel, by decide +kernel, by decide +kernel, by decide +kernel, by decide +kernel⟩,
   ⟨st 5 [], ['C', 'N', 'T', ' ', '1', '4', '0', '1', '3', '0'], ['1', '4', '0', '1', '3', '0'], 0x140130, line_of (by decide +kernel) (by decide +kernel) ⟨by decide, by simp⟩, by decide +kernel, by decide +kernel, by decide +kernel, by decide +kernel, by decide +kernel, by decide +kernel, by decide +kernel⟩,
   ⟨st 5 [], ['M', 'E', 'M', ' ', '1', '0', '0', '0', '0', '0', '0', '0', '0', '0', ' ', '1', '0', '0', '0'], ['1', '0', '0', '0', '0', '0', '0', '0', '0', '0'], ['1', '0', '0', '0'], 0x1000000000, 4096, line_of (by decide +kernel) (by decide +kernel) ⟨by decide, by simp⟩, by decide +kernel, by decide +kernel, by decide +kernel, by decide +kernel, by decide +kernel, by decide +kernel⟩,
   ⟨st 5 [], ['F', 'A', 'U', 'L', 'T', 'S'], line_of (by decide +kernel) (by decide +kernel) ⟨by decide, by simp⟩⟩,
   ⟨st 5 [], ['S', 'T', 'A', 'T', 'E'], line_of (by decide +kernel) (by decide +kernel) ⟨by decide, by simp⟩⟩,
   ⟨st 5 [], ['S', 'E', 'N', 'S', 'O', 'R', 'S'], line_of (by decide +kernel) (by decide +kernel) ⟨by decide, by simp⟩⟩,
   ⟨st 5 [], ['L', 'I', 'N', 'K', 'S'], line_of (by decide +kernel) (by decide +kernel) ⟨by decide, by simp⟩⟩,
   ⟨st 5 [], ['D', 'E', 'B', 'U', 'G', ' ', 'o', 'n'], ['o', 'n'], line_of (by decide +kernel) (by decide +kernel) ⟨by decide, by simp⟩, by decide +kernel⟩,
   ⟨st 5 [], ['D', 'E', 'B', 'U', 'G', ' ', 'O', 'F', 'F'], ['O', 'F', 'F'], line_of (by decide +kernel) (by decide +kernel) ⟨by decide, by simp⟩, by decide +kernel⟩,
   ⟨st 5 [], 256, by decide +kernel, by decide +kernel⟩,
   ⟨st 5 [], ['H', 'E', 'L', 'P', ' ', 'm', 'e'], ['H', 'E', 'L', 'P'], [['m', 'e']], by decide +kernel, by decide +kernel, by decide +kernel, by decide +kernel⟩,
   ⟨st 5 [], ['L', 'O', 'A', 'D', ' ', '2', '0', '0', '0'], [['2', '0', '0', '0']], .loadCmd ['L', 'O', 'A', 'D', ' ', '2', '0', '0', '0'], .inl ⟨rfl, line_of (by decide +kernel) (by decide +kernel) ⟨by decide, by simp⟩, by decide +kernel, by decide +kernel⟩⟩⟩

theorem meets_ImagesAreLoadedAndUsedByTheMonitor :
    (∃ (s : State) (line a : List Char) (len : Nat), (MonLine s line ['L', 'O', 'A', 'D'] [a]) ∧ parseHex a = some len ∧ (s.dev.inState stRecovery = true ∨ s.dev.inState stReady = true) ∧ 8192 ≤ len ∧ len ≤ s.imageMax)
    ∧ (∃ (s : State) (data : List Byte) (crc len : Nat), s.dev.inState stSleep = false ∧ s.dev.mon.load = some len ∧ (let off := 4096 * s.dev.mon.block; (let good := data.length = min 4096 (len - off) ∧ crc = Crypto.check32c off data; good ∧ off + data.length ≠ len)))
    ∧ (∃ (s : State) (data : List Byte) (crc len : Nat), s.dev.inState stSleep = false ∧ s.dev.mon.load = some len ∧ (let off := 4096 * s.dev.mon.block; (let good := data.length = min 4096 (len - off) ∧ crc = Crypto.check32c off data; good ∧ off + data.length = len)))
    ∧ (∃ (s : State) (data : List Byte) (crc len : Nat), s.dev.inState stSleep = false ∧ s.dev.mon.load = some len ∧ (let off := 4096 * s.dev.mon.block; (let good := data.length = min 4096 (len - off) ∧ crc = Crypto.check32c off data; (¬ good) ∧ s.dev.mon.rejects < 8)))
    ∧ (∃ (s : State) (data : List Byte) (crc len : Nat), s.dev.inState stSleep = false ∧ s.dev.mon.load = some len ∧ (let off := 4096 * s.dev.mon.block; (let good := data.length = min 4096 (len - off) ∧ crc = Crypto.check32c off data; (¬ good) ∧ s.dev.mon.rejects = 8)))
    ∧ (∃ (s : State) (len : Nat), s.dev.mon.load = some len)
    ∧ (∃ (s : State) (line : List Char), (MonLine s line ['N', 'O', 'R', 'W', 'R', 'I', 'T', 'E'] []) ∧ (s.dev.inState stRecovery = true ∨ s.dev.inState stReady = true) ∧ s.dev.mon.accepted = false)
    ∧ (∃ (s : State) (line : List Char) (tm : Nat) (bad : Option (Nat × Nat)), (MonLine s line ['N', 'O', 'R', 'W', 'R', 'I', 'T', 'E'] []) ∧ (s.dev.inState stRecovery = true ∨ s.dev.inState stReady = true) ∧ ∃ r : State, s.dev.mon.accepted = true ∧ tm ≤ s.dev.now ∧ MemorySafe s ∧ Quiet s ∧ s.policyVerdict = none ∧ s.fillCal = some r ∧ bad = none)
    ∧ (∃ (s : State) (line : List Char), (MonLine s line ['B', 'O', 'O', 'T', 'S', 'T', 'A', 'G', 'E', 'D'] []) ∧ s.dev.inState stRecovery = true ∧ s.dev.mon.accepted = false)
    ∧ (∃ (s : State) (line : List Char), (MonLine s line ['B', 'O', 'O', 'T', 'S', 'T', 'A', 'G', 'E', 'D'] []) ∧ s.dev.inState stRecovery = true ∧ s.dev.mon.accepted = true)
    ∧ (∃ (s : State) (line : List Char), (MonLine s line ['S', 'T', 'E', 'P'] []) ∧ s.dev.inState stReady = true ∧ s.dev.rd Reg.poolMapVersionCurrent = 0 ∧ s.dev.flag (Reg.plnStatusValid s.dev.activeBank) = true ∧ s.dev.rd Reg.epcCtrlEnable = 1)
    ∧ (∃ (s : State) (line : List Char) (tm : Nat), (MonLine s line ['S', 'T', 'E', 'P'] []) ∧ s.dev.inState stReady = true ∧ s.dev.rd Reg.poolMapVersionCurrent = 0 ∧ s.dev.flag (Reg.plnStatusValid s.dev.activeBank) = true ∧ s.dev.rd Reg.epcCtrlEnable = 0 ∧ tm < 2 ^ 64) :=
  ⟨⟨st 4 [(Reg.btNorSizeLog2, 21)], ['L', 'O', 'A', 'D', ' ', '2', '0', '0', '0'], ['2', '0', '0', '0'], 0x2000, line_of (by decide +kernel) (by decide +kernel) ⟨by decide, by simp⟩, by decide +kernel, by decide +kernel, by decide +kernel, by decide +kernel⟩,
   ⟨st 4 [] { mon := { load := some 8192, block := 0, rejects := 0 } }, zeros 4096, Crypto.check32c 0 (zeros 4096), 8192, by decide +kernel, by decide +kernel, ⟨by decide +kernel, rfl⟩, by decide +kernel⟩,
   ⟨st 4 [] { mon := { load := some 4100, block := 1, rejects := 0 } }, zeros 4, Crypto.check32c 4096 (zeros 4), 4100, by decide +kernel, by decide +kernel, by decide +kernel, by decide +kernel⟩,
   ⟨st 4 [] { mon := { load := some 4100, block := 1, rejects := 7 } }, zeros 5, 0, 4100, by decide +kernel, by decide +kernel, by decide +kernel, by decide +kernel⟩,
   ⟨st 4 [] { mon := { load := some 4100, block := 1, rejects := 8 } }, zeros 5, 0, 4100, by decide +kernel, by decide +kernel, by decide +kernel, by decide +kernel⟩,
   ⟨st 4 [] { mon := { load := some 8192, block := 0, rejects := 0 } }, 8192, by decide +kernel⟩,
   ⟨st 4 [], ['N', 'O', 'R', 'W', 'R', 'I', 'T', 'E'], line_of (by decide +kernel) (by decide +kernel) ⟨by decide, by simp⟩, by decide +kernel, by decide +kernel⟩,
   ⟨st 4 [] { mon := { accepted := true } } stagedCal, ['N', 'O', 'R', 'W', 'R', 'I', 'T', 'E'], 0, none, line_of (by decide +kernel) (by decide +kernel) ⟨by decide, by simp⟩, by decide +kernel, st 4 [] { mon := { accepted := true } } stagedCal, by decide +kernel, by decide +kernel, safe_of (by decide +kernel), quiet_of (by decide +kernel), by decide +kernel, rfl, rfl⟩,
   ⟨st 2 [], ['B', 'O', 'O', 'T', 'S', 'T', 'A', 'G', 'E', 'D'], line_of (by decide +kernel) (by decide +kernel) ⟨by decide, by simp⟩, by decide +kernel, by decide +kernel⟩,
   ⟨st 2 [] { mon := { accepted := true } }, ['B', 'O', 'O', 'T', 'S', 'T', 'A', 'G', 'E', 'D'], line_of (by decide +kernel) (by decide +kernel) ⟨by decide, by simp⟩, by decide +kernel, by decide +kernel⟩,
   ⟨st 4 [(Reg.plnStatusValid 0, 1), (Reg.epcCtrlEnable, 1)], ['S', 'T', 'E', 'P'], line_of (by decide +kernel) (by decide +kernel) ⟨by decide, by simp⟩, by decide +kernel, by decide +kernel, by decide +kernel, by decide +kernel⟩,
   ⟨st 4 [(Reg.plnStatusValid 0, 1)], ['S', 'T', 'E', 'P'], 0, line_of (by decide +kernel) (by decide +kernel) ⟨by decide, by simp⟩, by decide +kernel, by decide +kernel, by decide +kernel, by decide +kernel, by decide +kernel⟩⟩

theorem meets_SpdmRequestsAreAnswered :
    (∃ (s : State) (object b : List Byte), s.dev.inState stSleep = false ∧ s.dev.configured = true ∧ (doeParse object = some (0, b)) ∧ fieldAt b 0 1 < 3)
    ∧ (∃ (s u : State) (v : Via) (o : Option (List Byte)) (q : Req), SpdmServed s 0x84 v o q u)
    ∧ (∃ (s u : State) (v : Via) (o : Option (List Byte)) (q : Req), SpdmServed s 0xE1 v o q u ∧ Connected s q 1)
    ∧ (∃ (s u : State) (v : Via) (o : Option (List Byte)) (q : Req), SpdmServed s 0xE3 v o q u ∧ Connected s q 2)
    ∧ (∃ (s u : State) (v : Via) (o : Option (List Byte)) (q : Req), SpdmServed s 0x81 v o q u ∧ Connected s q 3)
    ∧ (∃ (s u : State) (v : Via) (o : Option (List Byte)) (q : Req), SpdmServed s 0x82 v o q u ∧ Connected s q 3 ∧ (let chain := s.dev.certChain; fieldAt q.msg 2 1 % 16 = 0 ∧ fieldAt q.msg 4 2 < chain.length))
    ∧ (∃ (s u : State) (v : Via) (o : Option (List Byte)) (q : Req), SpdmServed s 0x82 v o q u ∧ Connected s q 3 ∧ fieldAt q.msg 2 1 % 16 ≠ 0)
    ∧ (∃ (s u : State) (v : Via) (o : Option (List Byte)) (q : Req), SpdmServed s 0x83 v o q u ∧ Connected s q 3 ∧ s.dev.flag Reg.btStatusIdValid = false)
    ∧ (∃ (s u : State) (v : Via) (o : Option (List Byte)) (q : Req), SpdmServed s 0x83 v o q u ∧ Connected s q 3 ∧ s.dev.flag Reg.btStatusIdValid = true ∧ fieldAt q.msg 2 1 = 0)
    ∧ (∃ (s u : State) (v : Via) (o : Option (List Byte)) (q : Req), SpdmServed s 0xE0 v o q u ∧ Connected s q 3 ∧ fieldAt q.msg 3 1 = 0xFF ∧ bit (fieldAt q.msg 2 1) 0 = false)
    ∧ (∃ (s u : State) (v : Via) (o : Option (List Byte)) (q : Req), SpdmServed s 0xE0 v o q u ∧ Connected s q 3 ∧ bit (fieldAt q.msg 2 1) 0 = true ∧ s.dev.flag Reg.btStatusIdValid = false)
    ∧ (∃ (s u : State) (v : Via) (o : Option (List Byte)) (q : Req), SpdmServed s 0xE0 v o q u ∧ Connected s q 3 ∧ s.dev.inState stRecovery = true ∧ ∃ i, 1 ≤ i ∧ i ≤ 5) :=
  ⟨⟨st 5 [], doeObject 0 [2, 0, 0, 0], [2, 0, 0, 0], by decide +kernel, by decide +kernel, by decide +kernel, by decide +kernel⟩,
   ⟨doeSt 0, served (doeSt 0), .doe (doeObject 1 (request 0x84 0 0)), none, ⟨0, none, request 0x84 0 0⟩, served_of (by decide +kernel) (by decide +kernel)⟩,
   ⟨doeSt 1, served (doeSt 1), .doe (doeObject 1 (request 0xE1 0 0)), none, ⟨0, none, request 0xE1 0 0⟩, served_of (by decide +kernel) (by decide +kernel), connected_of (by decide +kernel) (by decide +kernel)⟩,
   ⟨doeSt 2, served (doeSt 2), .doe (doeObject 1 (request 0xE3 0 0)), none, ⟨0, none, request 0xE3 0 0⟩, served_of (by decide +kernel) (by decide +kernel), connected_of (by decide +kernel) (by decide +kernel)⟩,
   ⟨doeSt 3, served (doeSt 3), .doe (doeObject 1 (request 0x81 0 0)), none, ⟨0, none, request 0x81 0 0⟩, served_of (by decide +kernel) (by decide +kernel), connected_of (by decide +kernel) (by decide +kernel)⟩,
   ⟨doeSt 3, served (doeSt 3), .doe (doeObject 1 (request 0x82 0 0 (zeros 4))), none, ⟨0, none, request 0x82 0 0 (zeros 4)⟩, served_of (by decide +kernel) (by decide +kernel), connected_of (by decide +kernel) (by decide +kernel), by decide +kernel, by decide +kernel⟩,
   ⟨doeSt 3, served (doeSt 3), .doe (doeObject 1 (request 0x82 1 0)), none, ⟨0, none, request 0x82 1 0⟩, served_of (by decide +kernel) (by decide +kernel), connected_of (by decide +kernel) (by decide +kernel), by decide +kernel⟩,
   ⟨doeSt 3, served (doeSt 3), .doe (doeObject 1 (request 0x83 0 0)), none, ⟨0, none, request 0x83 0 0⟩, served_of (by decide +kernel) (by decide +kernel), connected_of (by decide +kernel) (by decide +kernel), by decide +kernel⟩,
   ⟨doeSt 3 [(Reg.btStatusIdValid, 1)], served (doeSt 3 [(Reg.btStatusIdValid, 1)]), .doe (doeObject 1 (request 0x83 0 0)), none, ⟨0, none, request 0x83 0 0⟩, served_of (by decide +kernel) (by decide +kernel), connected_of (by decide +kernel) (by decide +kernel), by decide +kernel, by decide +kernel⟩,
   ⟨doeSt 3, served (doeSt 3), .doe (doeObject 1 (request 0xE0 0 0xFF)), none, ⟨0, none, request 0xE0 0 0xFF⟩, served_of (by decide +kernel) (by decide +kernel), connected_of (by decide +kernel) (by decide +kernel), by decide +kernel, by decide +kernel⟩,
   ⟨doeSt 3, served (doeSt 3), .doe (doeObject 1 (request 0xE0 1 0xFF)), none, ⟨0, none, request 0xE0 1 0xFF⟩, served_of (by decide +kernel) (by decide +kernel), connected_of (by decide +kernel) (by decide +kernel), by decide +kernel, by decide +kernel⟩,
   ⟨st 2 [] { boot := { config := true }, spdm := { stage := [(0, 3)] } }, served (st 2 [] { boot := { config := true }, spdm := { stage := [(0, 3)] } }), .doe (doeObject 1 (request 0xE0 0 1)), none, ⟨0, none, request 0xE0 0 1⟩, served_of (by decide +kernel) (by decide +kernel), connected_of (by decide +kernel) (by decide +kernel), by decide +kernel, 5, by decide +kernel, by decide +kernel⟩⟩

theorem meets_SpdmSessionsBeginAndEnd :
    (∃ (s u : State) (v : Via) (o : Option (List Byte)) (q : Req), SpdmServed s 0xE4 v o q u ∧ Connected s q 3 ∧ q.session = none ∧ s.dev.flag Reg.btStatusIdValid = true ∧ fieldAt q.msg 3 1 = 0 ∧ s.dev.sessionRoom q.transport = true)
    ∧ (∃ (s u : State) (v : Via) (o : Option (List Byte)) (q : Req), SpdmServed s 0xE4 v o q u ∧ Connected s q 3 ∧ q.session = none ∧ s.dev.flag Reg.btStatusIdValid = true ∧ fieldAt q.msg 3 1 = 0 ∧ s.dev.sessionRoom q.transport = false)
    ∧ (∃ (s u : State) (v : Via) (o : Option (List Byte)) (q : Req) (x : SpdmSession), SpdmServed s 0xE5 v o q u ∧ q.session = some x ∧ x.finished = false)
    ∧ (∃ (s u : State) (v : Via) (o : Option (List Byte)) (q : Req), SpdmServed s 0xE8 v o q u ∧ Connected s q 3)
    ∧ (∃ (s u : State) (v : Via) (o : Option (List Byte)) (q : Req) (x : SpdmSession), SpdmServed s 0xE9 v o q u ∧ Connected s q 3 ∧ q.session = some x ∧ 1 ≤ fieldAt q.msg 2 1 ∧ fieldAt q.msg 2 1 ≤ 3)
    ∧ (∃ (s u : State) (v : Via) (o : Option (List Byte)) (q : Req) (x : SpdmSession), SpdmServed s 0xEC v o q u ∧ Connected s q 3 ∧ q.session = some x)
    ∧ (∃ (s u : State) (object : List Byte) (o : Option (List Byte)) (q : Req) (x : SpdmSession) (stream : Nat), SpdmServed s 0xFE (.doe object) o q u ∧ Connected s q 3 ∧ q.session = some x ∧ fieldAt q.msg 4 2 = 3 ∧ fieldAt q.msg 6 1 = 2 ∧ fieldAt q.msg 7 2 = 1 ∧ fieldAt q.msg 11 1 = 0 ∧ fieldAt q.msg 15 1 = stream ∧ stream ≤ 4 ∧ fieldAt q.msg 12 1 = 4)
    ∧ (∃ (s u : State) (object : List Byte) (o : Option (List Byte)) (q : Req) (x : SpdmSession) (stream : Nat), SpdmServed s 0xFE (.doe object) o q u ∧ Connected s q 3 ∧ q.session = some x ∧ fieldAt q.msg 4 2 = 3 ∧ fieldAt q.msg 6 1 = 2 ∧ fieldAt q.msg 7 2 = 1 ∧ fieldAt q.msg 11 1 = 0 ∧ fieldAt q.msg 15 1 = stream ∧ stream ≤ 4 ∧ fieldAt q.msg 12 1 = 5)
    ∧ (∃ (s : State) (code : Nat) (cmd : Via → Option (List Byte) → Instr) (object b : List Byte) (x : SpdmSession), ((code, cmd) ∈ spdmSteps) ∧ s.dev.inState stSleep = false ∧ s.dev.configured = true ∧ (doeParse object = some (2, b)) ∧ (s.dev.spdm.sessions.find? fun x => x.transport = 0 && x.id = fieldAt b 0 4) = some x) :=
  ⟨⟨doeSt 3 [(Reg.btStatusIdValid, 1)], served (doeSt 3 [(Reg.btStatusIdValid, 1)]), .doe (doeObject 1 (request 0xE4 0 0)), none, ⟨0, none, request 0xE4 0 0⟩, served_of (by decide +kernel) (by decide +kernel), connected_of (by decide +kernel) (by decide +kernel), rfl, by decide +kernel, by decide +kernel, by decide +kernel⟩,
   ⟨doeSt 3 [(Reg.btStatusIdValid, 1)] (List.replicate 8 (session true)), served (doeSt 3 [(Reg.btStatusIdValid, 1)] (List.replicate 8 (session true))), .doe (doeObject 1 (request 0xE4 0 0)), none, ⟨0, none, request 0xE4 0 0⟩, served_of (by decide +kernel) (by decide +kernel), connected_of (by decide +kernel) (by decide +kernel), rfl, by decide +kernel, by decide +kernel, by decide +kernel⟩,
   ⟨doeSt 3 [] [session false], served (doeSt 3 [] [session false]), .doe (inSession (session false).id), some (request 0xE5 0 0), ⟨0, some (session false), request 0xE5 0 0⟩, session false, served_in (by decide +kernel) (by decide +kernel) (by decide +kernel), rfl, rfl⟩,
   ⟨doeSt 3 [] [session true], served (doeSt 3 [] [session true]), .doe (inSession (session true).id), some (request 0xE8 0 0), ⟨0, some (session true), request 0xE8 0 0⟩, served_in (by decide +kernel) (by decide +kernel) (by decide +kernel), connected_of (by decide +kernel) (by decide +kernel)⟩,
   ⟨doeSt 3 [] [session true], served (doeSt 3 [] [session true]), .doe (inSession (session true).id), some (request 0xE9 2 0), ⟨0, some (session true), request 0xE9 2 0⟩, session true, served_in (by decide +kernel) (by decide +kernel) (by decide +kernel), connected_of (by decide +kernel) (by decide +kernel), rfl, by decide +kernel, by decide +kernel⟩,
   ⟨doeSt 3 [] [session true], served (doeSt 3 [] [session true]), .doe (inSession (session true).id), some (request 0xEC 0 0), ⟨0, some (session true), request 0xEC 0 0⟩, session true, served_in (by decide +kernel) (by decide +kernel) (by decide +kernel), connected_of (by decide +kernel) (by decide +kernel), rfl⟩,
   ⟨doeSt 3 [] [session true], served (doeSt 3 [] [session true]), inSession (session true).id, some (request 0xFE 0 0 ([3, 0, 2, 1, 0, 0, 0, 0, 4, 0, 0, 4])), ⟨0, some (session true), request 0xFE 0 0 ([3, 0, 2, 1, 0, 0, 0, 0, 4, 0, 0, 4])⟩, session true, 4, served_in (by decide +kernel) (by decide +kernel) (by decide +kernel), connected_of (by decide +kernel) (by decide +kernel), rfl, by decide +kernel, by decide +kernel, by decide +kernel, by decide +kernel, by decide +kernel, by decide +kernel, by decide +kernel⟩,
   ⟨doeSt 3 [] [session true], served (doeSt 3 [] [session true]), inSession (session true).id, some (request 0xFE 0 0 ([3, 0, 2, 1, 0, 0, 0, 0, 5, 0, 0, 4])), ⟨0, some (session true), request 0xFE 0 0 ([3, 0, 2, 1, 0, 0, 0, 0, 5, 0, 0, 4])⟩, session true, 4, served_in (by decide +kernel) (by decide +kernel) (by decide +kernel), connected_of (by decide +kernel) (by decide +kernel), rfl, by decide +kernel, by decide +kernel, by decide +kernel, by decide +kernel, by decide +kernel, by decide +kernel, by decide +kernel⟩,
   ⟨doeSt 3 [] [session true], 0x84, .getVersion, inSession 7, leBytes 4 7, session true, .head _, by decide +kernel, by decide +kernel, by decide +kernel, by decide +kernel⟩⟩

theorem meets_AStepRunsTheFrontCommand :
    (∃ (s : State) (c : Instr) (rest : List Instr), s.pending = c :: rest)
    ∧ (∃ (s : State), s.pending = []) :=
  ⟨⟨{ State.reset with pending := [.fold 0 0 []] }, .fold 0 0 [], [], rfl⟩,
   ⟨State.reset, rfl⟩⟩

theorem meets_DescriptorsGiveTheirStepsBack :
    ∃ (x : Step), x.fits = true :=
  ⟨⟨hd 0, .note ⟨65535, 255, 65535⟩⟩, by decide +kernel⟩

end Sys2Proof.Tests
end

/-! The accesses to BAR0, apply points and the reset values (00_scope.md R6, R8, R9; 19_start_configuration_identity.md R483; 21_register_map.md R503, R504). -/

namespace Sys2Proof

open Machine

/-! ### Bit fields and the end of a command -/

/-- A field that lies within the low `k` bits does not see the bits above them. -/
theorem bits_mod_two_pow {lo w k : Nat} (n : Nat) (h : lo + w ≤ k) : bits (n % 2 ^ k) lo w = bits n lo w := by
  apply Nat.eq_of_testBit_eq
  intro i
  simp only [bits, Nat.testBit_mod_two_pow, Nat.testBit_div_two_pow]
  by_cases hi : i < w
  · simp [hi, show i + lo < k by omega]
  · simp [hi]

theorem bits_lt (n lo w : Nat) : bits n lo w < 2 ^ w := Nat.mod_lt _ (Nat.two_pow_pos w)

/-- A command that ends with `done` ends in the settled state. -/
theorem Ends.of_done {c : Instr} {s u : State} {P : State → Prop} (h : exec c s = done u) (p : P u.settle) : Ends c s P := ⟨_, h, p⟩

namespace Machine

/-- A TIME that has passed already does not move the clock. -/
theorem Dev.clock_of_le {d : Dev} {t : Nat} (h : t ≤ d.now) : d.clock t = d := if_neg (Nat.not_lt.mpr h)

theorem State.onDev_clock_of_le {s : State} {t : Nat} (h : t ≤ s.dev.now) : s.onDev (·.clock t) = s := by
  simp only [State.onDev, Dev.clock_of_le h]

/-! ### Writing one field -/

namespace Dev

@[simp] theorem rd_noteWrite (d : Dev) (f g : Field) : (d.noteWrite f).rd g = d.rd g := rfl

/-- A field whose refused write sets a reject bit beside it (R69, R202). -/
def Rejecting (f : Field) : Prop := f = Reg.epcLenLength ∨ f = Reg.idxLists

theorem rejectBit_of_not_rejecting {f : Field} (d : Dev) (h : ¬ Rejecting f) : d.rejectBit f = d := by
  unfold Rejecting at h
  unfold rejectBit
  rw [if_neg (fun e => h (.inl e)), if_neg (fun e => h (.inr e))]

/-- A reject bit is not the field whose write was refused. -/
theorem rd_rejectBit_self (d : Dev) (f : Field) : (d.rejectBit f).rd f = d.rd f := by
  unfold rejectBit
  split
  · rename_i e; subst e; exact rd_putFlag_ne d true (by decide)
  · split
    · rename_i e; subst e; exact rd_putFlag_ne d true (by decide)
    · rfl

/-- What a write of `n` makes of a field that read `old`, by its access code (R8), its condition and its range. -/
def written (before : Dev) (f : Field) (old n : Nat) : Nat :=
  match f.acc with
  | .ro | .rc | .wo => old
  | .w1c => (old &&& (2 ^ f.width - 1 - n)) % 2 ^ f.width
  | .rw => if before.gateOpen f n && inRange f n then n % 2 ^ f.width else old

theorem rd_writeField_self (d before : Dev) (f : Field) (n : Nat) (h : f.width ≤ 64) :
    (d.writeField before f n).rd f = before.written f (d.rd f) n := by
  unfold writeField written
  cases f.acc with
  | ro => rfl
  | rc => rfl
  | wo => rfl
  | w1c => exact rd_put_self d f _ h
  | rw =>
    cases before.gateOpen f n with
    | false => rfl
    | true =>
      cases inRange f n with
      | true => exact rd_put_self d f n h
      | false => simp only [Bool.not_true, Bool.and_false, Bool.false_eq_true, if_false]; split <;> exact rd_rejectBit_self d f

/-- A write that sets no reject bit leaves every other field alone. -/
theorem rd_writeField_ne (d before : Dev) {f g : Field} (n : Nat) (hk : f.key ≠ g.key)
    (hr : f.acc = .rw → before.gateOpen f n = true → inRange f n = true ∨ ¬ Rejecting f) : (d.writeField before f n).rd g = d.rd g := by
  unfold writeField
  cases ha : f.acc with
  | ro => rfl
  | rc => rfl
  | wo => rfl
  | w1c => exact rd_put_ne d _ hk
  | rw =>
    cases hg : before.gateOpen f n with
    | false => rfl
    | true =>
      rcases hr ha hg with hi | hi
      · simp [hi, rd_put_ne d n hk]
      · simp only [Bool.not_true, Bool.false_eq_true, if_false, rejectBit_of_not_rejecting d hi]
        split
        · exact rd_put_ne d n hk
        · split <;> rfl

/-- The fields of a register written in turn, none of which sets a reject bit: one that is not among them reads as before. -/
theorem rd_foldl_writeField_ne (before : Dev) (v : Field → Nat) {g : Field} :
    ∀ (fs : List Field) (d : Dev), (∀ f ∈ fs, f.key ≠ g.key) →
      (∀ f ∈ fs, f.acc = .rw → before.gateOpen f (v f) = true → inRange f (v f) = true ∨ ¬ Rejecting f) →
      (fs.foldl (fun d f => d.writeField before f (v f)) d).rd g = d.rd g
  | [], _, _, _ => rfl
  | f :: fs, d, hk, hr => by
    rw [List.foldl_cons, rd_foldl_writeField_ne before v fs _ (fun f h => hk f (.tail _ h)) (fun f h => hr f (.tail _ h))]
    exact rd_writeField_ne d before (v f) (hk f (.head _)) (hr f (.head _))

/-- Each of them reads what its own write makes of it. -/
theorem rd_foldl_writeField (before : Dev) (v : Field → Nat) {g : Field} (hw : g.width ≤ 64) :
    ∀ (fs : List Field) (d : Dev), (fs.map Field.key).Nodup → g ∈ fs →
      (∀ f ∈ fs, f.acc = .rw → before.gateOpen f (v f) = true → inRange f (v f) = true ∨ ¬ Rejecting f) →
      (fs.foldl (fun d f => d.writeField before f (v f)) d).rd g = before.written g (d.rd g) (v g)
  | [], _, _, hm, _ => nomatch hm
  | f :: fs, d, hn, hm, hr => by
    obtain ⟨hf, hn⟩ := List.nodup_cons.mp hn
    have hkey : ∀ x ∈ fs, x.key ≠ f.key := fun x hx e => hf (e ▸ List.mem_map_of_mem hx)
    have hr' := fun x (hx : x ∈ fs) => hr x (.tail _ hx)
    rw [List.foldl_cons]
    rcases List.mem_cons.mp hm with rfl | hm
    · rw [rd_foldl_writeField_ne before v fs _ hkey hr', rd_writeField_self d before g (v g) hw]
    · rw [rd_foldl_writeField before v hw fs _ hn hm hr', rd_writeField_ne d before (v f) (hkey g hm).symm (hr f (.head _))]

end Dev

/-! ### Writing a plain register -/

/-- A field of a register of 32 bits lies in its 32 bits. -/
theorem Reg.field_fits_of_not_wide {off : Nat} {f : Field} (h : Reg.wide off = false) (hf : f ∈ Reg.fieldsAt off) : f.lsb + f.width ≤ 32 := by
  simp only [Reg.wide, List.any_eq_false, decide_eq_true_eq] at h
  exact Nat.not_lt.mp (h f hf)

theorem Reg.not_wide_of_single {off : Nat} {f : Field} (h : Reg.fieldsAt off = [f]) (hf : f.lsb + f.width ≤ 32) : Reg.wide off = false := by
  simp [Reg.wide, h, hf]

namespace State

/-- A write of a plain register is that of its fields. -/
theorem commitWrite_plain {off size : Nat} (p : PlainReg off size) (s : State) (w : Nat) (e : WriteEnv) :
    s.commitWrite off w e = s.onDev fun d => (Reg.fieldsAt off).foldl (fun d f => d.writeField s.dev f (bits w f.lsb f.width)) d := by
  obtain ⟨-, -, -, -, hown, hoff, -, hring, hmode, -⟩ := p
  simp only [List.mem_cons, List.not_mem_nil, or_false, not_or] at hoff
  have all : (Reg.fieldsAt off).filter (!Dev.ownWrite ·) = Reg.fieldsAt off :=
    List.filter_eq_self.mpr fun f hf => by rw [(hown f hf).1]; rfl
  simp only [commitWrite, all, ownWrites, hoff, hring, hmode, if_false, Bool.false_eq_true]

theorem regWrite_four {s : State} {agent off : Nat} (v : Nat) (e : WriteEnv) (hs : s.dev.inState stSleep = false) (hlt : off < 0x4000000)
    (h4 : off % 4 = 0) : s.regWrite agent off 4 v e = s.write32 agent off v e := by
  simp [regWrite, hs, show ¬ 0x4000000 ≤ off by omega, h4]

/-- An access of its size writes a plain register with a value that gives each of its fields what `v` has for it. -/
theorem regWrite_plain {off size agent : Nat} (p : PlainReg off size) (s : State) (v : Nat) (e : WriteEnv) (hs : s.dev.inState stSleep = false)
    (ha : s.dev.accepts agent off = true) : ∃ w, (∀ f ∈ Reg.fieldsAt off, bits w f.lsb f.width = bits v f.lsb f.width)
      ∧ s.regWrite agent off size v e = s.commitWrite off w e := by
  obtain ⟨hl, hd, hh, -, hown, -, hlt, -, -, hsize⟩ := p
  rcases hsize with ⟨rfl, h4, hw, hup⟩ | ⟨rfl, h8, hw⟩
  · refine ⟨v % 2 ^ 32, fun f hf => bits_mod_two_pow v (Reg.field_fits_of_not_wide hw hf), ?_⟩
    rw [regWrite_four v e hs hlt h4]
    simp only [write32, hd, ha, hl, hh, hw, hup, Bool.not_true, Bool.or_self, Bool.false_eq_true, if_false]
  · refine ⟨v % 2 ^ 64, fun f hf => bits_mod_two_pow v (hown f hf).2, ?_⟩
    simp [regWrite, hs, Nat.not_le.mpr hlt, h8, hd, ha, hw]

/-- After a write of a plain register that sets no reject bit, each of its fields reads what its access code makes of it. -/
theorem rd_regWrite_plain {off size agent : Nat} (p : PlainReg off size) (s : State) (v : Nat) (e : WriteEnv) (hs : s.dev.inState stSleep = false)
    (ha : s.dev.accepts agent off = true) (hr : ∀ f ∈ Reg.fieldsAt off, f.acc = .rw → s.dev.gateOpen f (bits v f.lsb f.width) = true →
      Dev.inRange f (bits v f.lsb f.width) = true ∨ ¬ Dev.Rejecting f) :
    ∀ f ∈ Reg.fieldsAt off, (s.regWrite agent off size v e).dev.rd f = s.dev.written f (s.dev.rd f) (bits v f.lsb f.width) := by
  intro f hf
  obtain ⟨w, hw, e⟩ := regWrite_plain p s v e hs ha
  rw [e, commitWrite_plain p]
  obtain ⟨-, -, -, hnodup, hown, -⟩ := p
  have fits : f.width ≤ 64 := by have := (hown f hf).2; omega
  rw [← hw f hf]
  exact Dev.rd_foldl_writeField s.dev (fun f => bits w f.lsb f.width) fits _ s.dev hnodup hf
    (fun g hg => by rw [hw g hg]; exact hr g hg)

end State

/-! ### Accesses that reach no register -/

/-- A bad access or one outside the map is marked in GLB_ACCESS with its offset, and counted; nothing else changes. -/
theorem access_marked (s : State) (mark : Field) (c off : Nat) (hw : 1 ≤ mark.width ∧ mark.width ≤ 64) (hk : mark.key ≠ Reg.glbAccessAddrOffset.key) :
    let t := s.onDev fun d => ((d.putFlag mark true).put Reg.glbAccessAddrOffset off).bump c
    t.dev.rd mark = 1 ∧ Counted c 1 s t ∧ SameRegsBut [mark, Reg.glbAccessAddrOffset] s t := by
  refine ⟨?_, ?_, fun f hf => ?_⟩
  · simp only [State.onDev_dev, Dev.rd_bump]
    rw [Dev.rd_put_ne _ _ hk.symm, Dev.rd_putFlag_self _ _ _ hw.2 hw.1, boolNat_true]
  · simp only [Counted, State.onDev_dev, Dev.count_bump_self, Dev.count_put, Dev.count_putFlag]
  · simp only [State.onDev_dev, Dev.rd_bump]
    rw [Dev.rd_put_ne _ _ (hf _ (.tail _ (.head _))), Dev.rd_putFlag_ne _ _ (hf _ (.head _))]

namespace State

theorem unmapped_marked (s : State) (off : Nat) : (s.unmapped off).dev.rd Reg.glbAccessUnmapped = 1
    ∧ Counted Ctr.glbUnmappedAccesses 1 s (s.unmapped off) ∧ SameRegsBut [Reg.glbAccessUnmapped, Reg.glbAccessAddrOffset] s (s.unmapped off) :=
  access_marked s Reg.glbAccessUnmapped Ctr.glbUnmappedAccesses off (by decide) (by decide)

theorem badAccess_marked (s : State) (off : Nat) : (s.badAccess off).dev.rd Reg.glbAccessBadAccess = 1
    ∧ Counted Ctr.glbBadAccesses 1 s (s.badAccess off) ∧ SameRegsBut [Reg.glbAccessBadAccess, Reg.glbAccessAddrOffset] s (s.badAccess off) :=
  access_marked s Reg.glbAccessBadAccess Ctr.glbBadAccesses off (by decide) (by decide)

/-- A write to a block that the state does not accept does nothing. -/
theorem write32_not_accepted {s : State} {agent off : Nat} (v : Nat) (e : WriteEnv) (ha : s.dev.accepts agent off = false) :
    s.write32 agent off v e = s := by simp [write32, ha]

theorem write32_not_listed {s : State} {agent off : Nat} (v : Nat) (e : WriteEnv) (ha : s.dev.accepts agent off = true)
    (hd : Reg.inDebug off = false) (hl : Reg.listed off = false) : s.write32 agent off v e = s.unmapped off := by simp [write32, ha, hd, hl]

/-! ### Reading counters and registers -/

/-- A register that an agent may read, neither in a debug window nor in a header window. -/
structure Readable (d : Dev) (agent off : Nat) : Prop where
  listed : Reg.listed off = true
  debug : Reg.inDebug off = false
  headers : Reg.inHeaders off = false
  accepts : d.accepts agent off = true

theorem regValue_counter (d : Dev) {off : Nat} (hc : Ctr.isCounter off = true) : regValue d off = d.counted off := if_pos hc

theorem read32_counter {s : State} {agent off : Nat} (r : Readable s.dev agent off) (hc : Ctr.isCounter off = true) :
    s.read32 agent off = (s.onDev fun d => readLatch d agent off (s.dev.counted off / 2 ^ 32), s.dev.counted off % 2 ^ 32) := by
  simp [read32, r.debug, r.accepts, r.listed, r.headers, hc, regValue_counter]

theorem regRead_counter_whole {s : State} {agent off : Nat} (r : Readable s.dev agent off) (hc : Ctr.isCounter off = true) :
    s.regRead agent off 8 = (s, s.dev.counted off) := by
  simp [regRead, r.debug, r.accepts, hc, regValue_counter]

/-- The upper register of a counter gives the half that was latched for the agent, and the latch is used up. -/
theorem read32_upper_latched {s : State} {agent off : Nat} {x : Nat × Nat × Nat} (r : Readable s.dev agent (off + 4)) (hw : Reg.wide (off + 4) = false)
    (hc : Ctr.isCounter (off + 4) = false) (lower : Ctr.isCounter off = true)
    (hx : (s.dev.latch.read.find? fun x => x.1 = agent && x.2.1 = off) = some x) :
    s.read32 agent (off + 4) =
      (s.onDev fun d => { d with latch := { d.latch with read := d.latch.read.filter fun y => !(y.1 = agent && y.2.1 = off) } }, x.2.2) := by
  simp only [read32, r.debug, r.accepts, r.listed, r.headers, hw, hc, lower, Nat.add_sub_cancel, hx, Bool.or_true, Bool.or_self, Bool.not_true,
    Bool.false_eq_true, if_false, Nat.le_add_left, and_self, if_true]

/-- A register of 32 bits that holds just one field, from bit 0 on, which a read clears. -/
theorem read32_rc {s : State} {agent : Nat} {f : Field} (r : Readable s.dev agent f.off) (alone : Reg.fieldsAt f.off = [f]) (hacc : f.acc = .rc)
    (hlsb : f.lsb = 0) (hc : Ctr.isCounter f.off = false) (hw : Reg.wide f.off = false)
    (hup : Reg.wide (f.off - 4) = false ∧ Ctr.isCounter (f.off - 4) = false) :
    s.read32 agent f.off = (s.onDev (·.put f 0), s.dev.rd f) := by
  simp [read32, r.debug, r.accepts, r.listed, r.headers, hc, hw, hup.1, hup.2, regValue, readClears, alone, hacc, hlsb]

end State


/-! ### The windows of the chambers (R502, R509) -/

namespace Reg

/-- How the registers of the chamber windows repeat. -/
def chamberDims : List (Nat × Nat) := [(0x100000, 4), (0x1000, 64)]

/-- One past the greatest offset, from its base on, that a line of the tables can reach. -/
def span : List (Nat × Nat) → Nat
  | [] => 1
  | (stride, count) :: rest => stride * count + span rest

/-- The indices with which a line lies at an offset. -/
def place (base : Nat) (dims : List (Nat × Nat)) (o : Nat) : Option (List Nat) := if o < base then none else indices dims (o - base)

theorem Row.find_eq_place (r : Row) (o : Nat) : r.find o = (place r.base r.dims o).map r.field := by
  unfold Row.find place
  split <;> rfl

theorem isCounter_eq_place (o : Nat) : Ctr.isCounter o = Ctr.table.any fun x => (place x.1 (x.2.2 ++ [(8, x.2.1)]) o).isSome := by
  unfold Ctr.isCounter
  congr 1
  funext x
  by_cases h : o < x.1
  · simp only [place, if_pos h, decide_eq_false (Nat.not_le.mpr h), Bool.false_and, Option.isSome_none]
  · simp only [place, if_neg h, decide_eq_true (Nat.not_lt.mp h), Bool.true_and]

/-- A line that lies wholly outside the windows of the chambers. -/
def outside (base : Nat) (dims : List (Nat × Nat)) : Bool :=
  decide (base + span dims ≤ 0x400000) || (decide (0x440000 ≤ base) && decide (base + span dims ≤ 0x500000)) || decide (0x800000 ≤ base)

/-- A line with one register, or as many as `rest` says, in the window of each chamber. -/
def inside (base : Nat) (dims rest : List (Nat × Nat)) : Bool :=
  dims = chamberDims ++ rest && decide (0x400000 ≤ base) && decide (base + span rest ≤ 0x401000)

theorem span_pos : ∀ dims, 0 < span dims
  | [] => Nat.one_pos
  | (_, _) :: rest => Nat.add_pos_right _ (span_pos rest)

theorem lt_span_of_indices {dims : List (Nat × Nat)} {o : Nat} (h : (indices dims o).isSome = true) : o < span dims := by
  induction dims generalizing o with
  | nil =>
    by_cases e : o = 0
    · subst e; exact Nat.one_pos
    · simp [indices, e] at h
  | cons d rest ih =>
    obtain ⟨stride, count⟩ := d
    by_cases c : o / stride < count
    · have hr : o % stride < span rest := ih (by simpa [indices, c] using h)
      have := Nat.div_add_mod o stride
      have := Nat.mul_le_mul_left stride (Nat.le_of_lt c)
      simp only [span]; omega
    · simp [indices, c] at h

/-- An offset within the window of a chamber. -/
theorem window_bounds (k : Nat) {c : Nat} (hc : c < 256) : chamberBase c + k = 0x400000 + 0x100000 * (c / 64) + 0x1000 * (c % 64) + k
    ∧ c / 64 < 4 ∧ c % 64 < 64 := ⟨rfl, by omega, by omega⟩

theorem place_of_outside {base c k : Nat} {dims : List (Nat × Nat)} (h : outside base dims = true) (hc : c < 256) (hk : k < 0x1000) :
    place base dims (chamberBase c + k) = none := by
  obtain ⟨e, hq, hr⟩ := window_bounds k hc
  simp only [outside, Bool.or_eq_true, Bool.and_eq_true, decide_eq_true_eq] at h
  unfold place
  split
  · rfl
  · refine Option.not_isSome_iff_eq_none.mp fun hi => ?_
    have := lt_span_of_indices hi
    omega

/-- A line of the chambers lies in the window of each as it lies in the first. -/
theorem place_of_inside {base c k : Nat} {dims rest : List (Nat × Nat)} (h : inside base dims rest = true) (hc : c < 256) (hk : k < 0x1000) :
    place base dims (chamberBase c + k) = (place base rest (0x400000 + k)).map fun is => c / 64 :: c % 64 :: is := by
  obtain ⟨e, hq, hr⟩ := window_bounds k hc
  simp only [inside, Bool.and_eq_true, decide_eq_true_eq] at h
  obtain ⟨⟨rfl, hb⟩, hs⟩ := h
  have out : ∀ o, 0x401000 - base ≤ o → indices rest o = none := fun o ho => Option.not_isSome_iff_eq_none.mp fun hi => by
    have := lt_span_of_indices hi; omega
  by_cases hkb : 0x400000 + k < base
  · have hn : place base rest (0x400000 + k) = none := if_pos hkb
    rw [hn, place]
    split
    · rfl
    · simp only [chamberDims, List.cons_append, List.nil_append, indices]
      rw [out ((chamberBase c + k - base) % 0x100000 % 0x1000) (by omega)]
      simp
  · have hd : (chamberBase c + k - base) / 0x100000 = c / 64 := by omega
    have hm : (chamberBase c + k - base) % 0x100000 / 0x1000 = c % 64 := by omega
    have hl : (chamberBase c + k - base) % 0x100000 % 0x1000 = 0x400000 + k - base := by omega
    simp only [place, if_neg hkb, if_neg (show ¬ chamberBase c + k < base by omega), chamberDims, List.cons_append, List.nil_append, indices,
      hd, hm, hl, hq, hr, if_true, Option.map_map]
    rfl

theorem rows_outside_or_inside : ∀ r ∈ rows, outside r.base r.dims = true ∨ inside r.base r.dims [] = true := by
  have h : rows.all (fun r => outside r.base r.dims || inside r.base r.dims []) = true := by decide +kernel
  simpa only [List.all_eq_true, Bool.or_eq_true] using h

/-- A line has a field at an offset of a chamber's window just when it lies there in the first chamber's. -/
theorem Row.find_chamber {r : Row} {c k : Nat} (h : outside r.base r.dims = true ∨ inside r.base r.dims [] = true) (hc : c < 256) (hk : k < 0x1000) :
    r.find (chamberBase c + k) = if r.base = 0x400000 + k then some (r.field [c / 64, c % 64]) else none := by
  rw [Row.find_eq_place]
  rcases h with h | h
  · have apart : r.base ≠ 0x400000 + k := fun e => by
      have := span_pos r.dims
      simp only [outside, Bool.or_eq_true, Bool.and_eq_true, decide_eq_true_eq] at h
      omega
    rw [place_of_outside h hc hk, if_neg apart, Option.map_none]
  · rw [place_of_inside h hc hk]
    by_cases e : r.base = 0x400000 + k
    · simp only [e, place, Nat.lt_irrefl, if_false, Nat.sub_self, indices, if_true, Option.map_some]
    · have absent : place r.base [] (0x400000 + k) = none := by
        by_cases l : 0x400000 + k < r.base
        · exact if_pos l
        · simp only [place, if_neg l, indices, if_neg (show ¬ 0x400000 + k - r.base = 0 by omega)]
      rw [absent, if_neg e, Option.map_none, Option.map_none]

/-- The fields at an offset of a chamber's window are those of the lines that lie there in the first chamber's. -/
theorem fieldsAt_chamber {c k : Nat} (hc : c < 256) (hk : k < 0x1000) :
    fieldsAt (chamberBase c + k) = (rows.filter fun r => r.base = 0x400000 + k).map fun r => r.field [c / 64, c % 64] := by
  unfold fieldsAt
  have placed := rows_outside_or_inside
  generalize rows = l at placed
  induction l with
  | nil => rfl
  | cons r rest ih =>
    have found := Row.find_chamber (placed r (.head _)) hc hk
    have ih := ih fun x hx => placed x (.tail _ hx)
    by_cases e : r.base = 0x400000 + k
    · rw [if_pos e] at found
      simp only [List.filterMap_cons, List.filter_cons, found, decide_eq_true e, if_true, List.map_cons, ih]
    · rw [if_neg e] at found
      simp only [List.filterMap_cons, List.filter_cons, found, decide_eq_false e, Bool.false_eq_true, if_false, ih]

/-- Of the lines of the tables only those of R71 lie where SUMP_DEPTH and SUMP_PEAK do. -/
theorem rows_at_sump {base : Nat} (hb : base = 0x400800 ∨ base = 0x400804) :
    (rows.filter fun r => r.base = base) = [rowCh sumpDepth, rowCh sumpPeak].filter fun r => r.base = base := by
  have split : rows = rows.take 30 ++ ([rowCh sumpDepth, rowCh sumpPeak] ++ rows.drop 32) := (List.take_append_drop 30 rows).symm
  have others : (rows.take 30 ++ rows.drop 32).all (fun r => r.base != 0x400800 && r.base != 0x400804) = true := by decide +kernel
  have none_of : ∀ l : List Row, (∀ r ∈ l, r ∈ rows.take 30 ++ rows.drop 32) → (l.filter fun r => r.base = base) = [] := fun l hl =>
    List.filter_eq_nil_iff.mpr fun r hr => by
      have := List.all_eq_true.mp others r (hl r hr)
      simp only [Bool.and_eq_true, bne_iff_ne, ne_eq] at this
      rcases hb with rfl | rfl
      · simpa using this.1
      · simpa using this.2
  rw [split, List.filter_append, List.filter_append, none_of _ fun r => List.mem_append_left _, none_of _ fun r => List.mem_append_right _,
    List.nil_append, List.append_nil]

theorem fieldsAt_sumpDepth {c : Nat} (hc : c < 256) : fieldsAt (sumpDepth c).off = [sumpDepth c] := by
  show fieldsAt (chamberBase c + 0x800) = _
  rw [fieldsAt_chamber hc (by decide), rows_at_sump (.inl rfl)]
  show [sumpDepth (64 * (c / 64) + c % 64)] = _
  rw [Nat.div_add_mod]

theorem fieldsAt_sumpPeak {c : Nat} (hc : c < 256) : fieldsAt (sumpPeak c).off = [sumpPeak c] := by
  show fieldsAt (chamberBase c + 0x804) = _
  rw [fieldsAt_chamber hc (by decide), rows_at_sump (.inr rfl)]
  show [sumpPeak (64 * (c / 64) + c % 64)] = _
  rw [Nat.div_add_mod]

theorem counters_outside_or_inside : ∀ x ∈ Ctr.table, outside x.1 (x.2.2 ++ [(8, x.2.1)]) = true ∨ inside x.1 (x.2.2 ++ [(8, x.2.1)]) [(8, x.2.1)] = true := by
  decide +kernel

/-- The counters of a chamber lie in its window as those of the first chamber lie in that one's. -/
theorem isCounter_chamber {c k : Nat} (hc : c < 256) (hk : k < 0x1000) : Ctr.isCounter (chamberBase c + k) = Ctr.isCounter (chamberBase 0 + k) := by
  rw [isCounter_eq_place, isCounter_eq_place]
  refine Bool.eq_iff_iff.mpr ?_
  simp only [List.any_eq_true]
  refine exists_congr fun x => and_congr_right fun hx => ?_
  rcases counters_outside_or_inside x hx with h | h
  · rw [place_of_outside h hc hk, place_of_outside h (by decide) hk]
  · rw [place_of_inside h hc hk, place_of_inside h (by decide) hk, Option.isSome_map, Option.isSome_map]

end Reg

/-- SUMP_PEAK stands alone in a register of 32 bits, behind another of 32 bits (R71). -/
theorem State.read32_sumpPeak {s : State} {agent c : Nat} (hc : c < 256) (ha : s.dev.accepts agent (Reg.sumpPeak c).off = true) :
    s.read32 agent (Reg.sumpPeak c).off = (s.onDev (·.put (Reg.sumpPeak c) 0), s.dev.rd (Reg.sumpPeak c)) := by
  obtain ⟨hoff, hq, hr⟩ := Reg.window_bounds 0x804 hc
  have hdepth : (Reg.sumpPeak c).off - 4 = (Reg.sumpDepth c).off := rfl
  have hmul : (Reg.sumpPeak c).off % 4 = 0 := by show (chamberBase c + 0x804) % 4 = 0; omega
  have readable : Readable s.dev agent (Reg.sumpPeak c).off := by
    refine ⟨?_, ?_, ?_, ha⟩
    · simp [Reg.listed, Reg.fieldsAt_sumpPeak hc, hmul]
    · have below : ¬ 0x2000000 ≤ chamberBase c + 0x804 := by omega
      exact Bool.and_eq_false_iff.mpr (.inl (decide_eq_false below))
    · have above : ¬ chamberBase c + 0x804 < 0x21400 := by omega
      exact Bool.and_eq_false_iff.mpr (.inr (decide_eq_false above))
  refine read32_rc readable (Reg.fieldsAt_sumpPeak hc) rfl rfl ?_ ?_ ⟨?_, ?_⟩
  · exact (Reg.isCounter_chamber hc (k := 0x804) (by decide)).trans (by decide +kernel)
  · exact Reg.not_wide_of_single (Reg.fieldsAt_sumpPeak hc) (Nat.le_of_ble_eq_true rfl)
  · exact hdepth ▸ Reg.not_wide_of_single (Reg.fieldsAt_sumpDepth hc) (Nat.le_of_ble_eq_true rfl)
  · exact (Reg.isCounter_chamber hc (k := 0x800) (by decide)).trans (by decide +kernel)

end Machine

/-! ### The statement about register accesses -/

section
variable {s : State} {off size v : Nat} {e : WriteEnv}

/-- A host's write at a TIME that has passed already is that of `State.regWrite`. -/
theorem exec_registerWrite (he : e.t ≤ s.dev.now) : exec (.registerWrite off size v e) s = done (s.regWrite agHost off size v e) := by
  show done ((s.onDev (·.clock e.t)).regWrite agHost off size v e) = _
  rw [State.onDev_clock_of_le he]

/-- An aligned read answers what the register gives and sends it out. -/
theorem exec_counterLowerRead {agent n : Nat} {u : State} (hag : agent < 3) (hsize : (size = 4 ∧ off % 4 = 0) ∨ (size = 8 ∧ off % 8 = 0))
    (hlt : off < 0x4000000) (hs : s.dev.inState stSleep = false) (h : s.regRead agent off size = (u, n)) :
    exec (.counterLowerRead agent ⟨off, size⟩) s = done (u.onDev (·.emit (.readData off n))) := by
  show done (if _ then _ else _) = _
  simp [hag, hsize, hlt, hs, h]

theorem exec_sumpPeakRead {agent c n : Nat} {u : State} (hag : agent < 3) (hc : c < 256) (hs : s.dev.inState stSleep = false)
    (h : s.read32 agent (Reg.sumpPeak c).off = (u, n)) :
    exec (.sumpPeakRead agent c) s = done (u.onDev (·.emit (.readData (Reg.sumpPeak c).off n))) := by
  show done (if _ then _ else _) = _
  simp [hag, hc, hs, h]

/-- An access of a bad size or alignment is counted, and a read of that kind answers 0 (R503). -/
theorem exec_badAccess {write : Bool} (hs : s.dev.inState stSleep = false) (hlt : off < 0x4000000)
    (hbad : ¬ ((size = 4 ∧ off % 4 = 0) ∨ (size = 8 ∧ off % 8 = 0))) :
    exec (.badAccess write off size) s = done (if write then s.badAccess off else (s.badAccess off).onDev (·.emit (.readData off 0))) := by
  show done (if _ then _ else if _ then _ else _) = _
  simp only [hs, Bool.false_eq_true, false_or, Nat.not_le.mpr hlt, if_false, hbad, decide_false, Bool.not_false, if_true]

/-- Each field of a plain register takes what its access code says (R8). -/
theorem registerWrite_gives_by_access_code (p : PlainReg off size) (hs : s.dev.inState stSleep = false) (ha : s.dev.accepts agHost off = true)
    (he : e.t ≤ s.dev.now)
    (hok : ∀ f ∈ Reg.fieldsAt off, f.acc = .rw → s.dev.gateOpen f (bits v f.lsb f.width) = true ∧ Dev.inRange f (bits v f.lsb f.width) = true) :
    Ends (.registerWrite off size v e) s fun t => ∀ f ∈ Reg.fieldsAt off, t.dev.rd f =
      match f.acc with
      | .rw => bits v f.lsb f.width
      | .w1c => (s.dev.rd f &&& (2 ^ f.width - 1 - bits v f.lsb f.width)) % 2 ^ f.width
      | _ => s.dev.rd f := by
  refine Ends.of_done (exec_registerWrite he) fun f hf => ?_
  rw [State.settle_rd, State.rd_regWrite_plain p s v e hs ha (fun f hf hacc _ => .inl (hok f hf hacc).2) f hf, Dev.written]
  cases hacc : f.acc with
  | rw =>
    obtain ⟨hg, hr⟩ := hok f hf hacc
    simp only [hg, hr, Bool.and_self, if_true]
    exact Nat.mod_eq_of_lt (bits_lt v f.lsb f.width)
  | _ => rfl

/-- A field whose condition is closed, or whose value is out of range, keeps what it had (R69, R533). -/
theorem registerWrite_keeps_refused (p : PlainReg off size) (hs : s.dev.inState stSleep = false) (ha : s.dev.accepts agHost off = true)
    (he : e.t ≤ s.dev.now) :
    Ends (.registerWrite off size v e) s fun t => ∀ f ∈ Reg.fieldsAt off, f.acc = .rw → f.couple = .none →
      (s.dev.gateOpen f (bits v f.lsb f.width) = false ∨ Dev.inRange f (bits v f.lsb f.width) = false) →
      (∀ g ∈ Reg.fieldsAt off, g ≠ Reg.epcLenLength ∧ g ≠ Reg.idxLists) → t.dev.rd f = s.dev.rd f := by
  refine Ends.of_done (exec_registerWrite he) fun f hf hacc _ href hplain => ?_
  rw [State.settle_rd, State.rd_regWrite_plain p s v e hs ha (fun g hg _ _ => .inr (not_or.mpr (hplain g hg))) f hf, Dev.written, hacc]
  rcases href with h | h <;> simp [h]

end

/-- Settles O50: each clause is what one access does, by the lemma that says so. -/
theorem registerAccesses : Obligations.RegisterAccesses := by
  unfold Obligations.RegisterAccesses
  refine ⟨?_, ?_, ?_, ?_, ?_, ?_, ?_⟩
  · intro s off size v e p hs ha he hok
    exact registerWrite_gives_by_access_code p hs ha he hok
  · intro s off size v e p hs ha he
    exact registerWrite_keeps_refused p hs ha he
  · intro s off v e hs hlt h4 he
    refine ⟨fun ha => ?_, fun ha hl hd => ?_⟩
    · refine Ends.of_done (exec_registerWrite he) ?_
      rw [State.regWrite_four v e hs hlt h4, State.write32_not_accepted v e ha]
    · refine Ends.of_done (exec_registerWrite he) ?_
      rw [State.regWrite_four v e hs hlt h4, State.write32_not_listed v e ha hd hl]
      exact s.unmapped_marked off
  · intro s agent off hag hc hl hd hh hs ha
    have readable : State.Readable s.dev agent off := ⟨hl, hd, hh, ha⟩
    refine ⟨fun h4 hlt => ?_, fun h8 hlt => ?_⟩
    · refine Ends.of_done (exec_counterLowerRead hag (.inl ⟨rfl, h4⟩) hlt hs (State.read32_counter readable hc)) ?_
      exact ⟨rfl, List.mem_append_right _ (.head _), rfl, rfl⟩
    · refine Ends.of_done (exec_counterLowerRead hag (.inr ⟨rfl, h8⟩) hlt hs (State.regRead_counter_whole readable hc)) ?_
      exact ⟨rfl, rfl, rfl, rfl⟩
  · intro s agent off hi hag hc hl hd hh hw hcu h4 hlt hs ha hx
    refine Ends.of_done (exec_counterLowerRead hag (.inl ⟨rfl, by show (off + 4) % 4 = 0; omega⟩) hlt hs
      (State.read32_upper_latched ⟨hl, hd, hh, ha⟩ hw hcu hc hx)) ?_
    refine ⟨rfl, fun x hx => ?_, rfl, rfl⟩
    rintro ⟨hagent, hoff⟩
    have kept := (List.mem_filter.mp hx).2
    rw [decide_eq_true hagent, decide_eq_true hoff] at kept
    exact absurd kept (by decide)
  · intro s agent c hag hc hs ha
    refine Ends.of_done (exec_sumpPeakRead hag hc hs (State.read32_sumpPeak hc ha)) ?_
    refine ⟨rfl, ?_, fun f hf => ?_⟩
    · exact (Dev.rd_put_self _ _ 0 (Nat.le_of_ble_eq_true rfl)).trans (Nat.zero_mod _)
    · exact Dev.rd_put_ne _ 0 (hf _ (.head _))
  · intro s write off size hs hlt hbad
    obtain ⟨hmark, hcount, hregs⟩ := s.badAccess_marked off
    refine Ends.of_done (exec_badAccess hs hlt hbad) ?_
    cases write with
    | true => exact ⟨hmark, hcount, (List.append_nil _).symm, hregs⟩
    | false => exact ⟨hmark, hcount, rfl, hregs⟩

/-! ### The statement about the reset values -/

/-- Where nothing has been written, a register reads its reset value and a counter 0. -/
theorem Machine.Dev.rd_of_held_nil {d : Dev} (h : d.regs.held = []) (f : Field) : d.rd f = f.reset % 2 ^ 64 := by
  simp only [Dev.rd, h, assocD, BitVec.toNat_ofNat]

theorem Machine.Dev.count_of_live_nil {d : Dev} (h : d.ctr.live = []) (c : Nat) : d.count c = 0 := by
  simp only [Dev.count, h, assocD, BitVec.toNat_ofNat, Nat.zero_mod]

theorem Machine.Dev.counted_of_snap_nil {d : Dev} (h : d.ctr.snap = []) (c : Nat) : d.counted c = 0 := by
  simp only [Dev.counted, h, assocD, BitVec.toNat_ofNat, Nat.zero_mod]

/-- Settles O58: reset leaves every list of values empty, so that each register reads what its row says. -/
theorem resetLeavesTheResetValues : Obligations.ResetLeavesTheResetValues := by
  unfold Obligations.ResetLeavesTheResetValues
  refine ⟨Dev.rd_of_held_nil rfl, fun c => ⟨Dev.count_of_live_nil rfl c, Dev.counted_of_snap_nil rfl c⟩, fun _ _ => rfl, rfl, ?_, ?_⟩
  · show State.reset.dev.flt.ring = []
    rfl
  · show State.reset.mem.wf = true
    rfl

/-! ### The statement about apply points -/

/-- The record of a flash home of datum 0xFE000, whose place in a home table at address 0 is the plan area of bank B (R40). -/
def misfiledRecord : HomeRec := { State.emptyHome 0xFE000 with state := hsHome, tier := 2, length := 4096 }

/-- READY with bank B VALID and a pair HOME_BASE, HOME_COUNT just written that agrees, for a table of one record at address 0. The copy on flash that stands
under datum 0 is a record of another datum. -/
def misfiledCopy : State :=
  { dev := { regs := { held := [(Reg.glbState.key, 4#64), ((Reg.plnStatusValid 1).key, 1#64), (Reg.homeCount.key, 1#64)], touched := [.home] },
             fls := { homeCopy := [(0, homeBody misfiledRecord)] } },
    mem := {}, pending := [] }

/-- The apply point adopts the pair, and the record that Lantern lays out from the copy lands in bank B's plan area, which makes the bank invalid (R42). -/
theorem applyPoint_misfiledCopy_valid : (misfiledCopy.onDev (·.clock 0)).applyPoint.dev.rd (Reg.plnStatusValid 1) = 0 := by decide +kernel

/-- Refutes O52: the statement says of every state that an apply point leaves all registers but `applyFields` as they read, and asks nothing of the copies
of home records on flash. From `misfiledCopy` the apply point changes PLN_STATUS.VALID of bank B from 1 to 0. `State.homePut` files each copy under the datum of
its own record, so that what the statement lacks is that premise. -/
theorem not_applyPointsPutValuesIntoEffect : ¬ Obligations.ApplyPointsPutValuesIntoEffect := by
  unfold Obligations.ApplyPointsPutValuesIntoEffect
  intro h
  have noWaiting : ∀ f, f ∉ misfiledCopy.dev.regs.waiting := fun _ => List.not_mem_nil
  obtain ⟨u, hu, hregs, -⟩ := h misfiledCopy 0 (by decide) (by decide) (fun f hf => absurd hf (noWaiting f))
    (fun f hf => absurd hf (noWaiting f)) (fun f hf => absurd hf (noWaiting f))
  have hnext : Host.Outcome.next (misfiledCopy.onDev (·.clock 0)).applyPoint.settle = .next u := hu
  have hend := Host.Outcome.next.inj hnext
  have before : misfiledCopy.dev.rd (Reg.plnStatusValid 1) = 1 := by decide
  have after : u.dev.rd (Reg.plnStatusValid 1) = 0 := by rw [← hend, State.settle_rd, applyPoint_misfiledCopy_valid]
  have same := hregs (Reg.plnStatusValid 1) (by decide)
  rw [before, after] at same
  exact absurd same (by decide)

end Sys2Proof

/-! Selection (06_selection.md R152 to R165): what a SELECT keeps, and a record in the queue of the fault log that reaches past the strata. -/

namespace Sys2Proof

open Machine

namespace Machine

/-! ### Bytes of one space seen from the strata -/

/-- The spaces lie behind each other: a byte of any of them is one of the strata's, further up. -/
theorem Mem.get_eq_get_dram (m : Mem) (sp : Space) (a : Nat) : m.get sp a = m.get .dram (sp.base + a) := by
  simp only [Mem.get, Space.base, Nat.zero_add]

theorem Mem.read_eq_replicate {m : Mem} {sp : Space} {b : Byte} {n a : Nat} (h : ∀ i, i < n → m.get sp (a + i) = b) :
    m.read sp a n = List.replicate n b := by
  induction n generalizing a with
  | zero => rfl
  | succ n ih =>
    have rest : m.read sp (a + 1) n = List.replicate n b := ih fun i hi => by
      rw [Nat.add_assoc, Nat.add_comm 1 i]
      exact h (i + 1) (Nat.succ_lt_succ hi)
    rw [Mem.read, rest, List.replicate_succ, ← h 0 n.succ_pos, Nat.add_zero]

/-- One record waits for the ring, all of whose bytes are `b`: a byte of any space that it reaches ends as `b`. -/
theorem State.settle_get_of_ring_replicate {u : State} {a n k : Nat} {b : Byte} {sp : Space} (hring : u.dev.flt.ring = [(a, List.replicate n b)])
    (hwf : u.mem.wf = true) (hlo : 2 ^ 40 ≤ sp.base + k) (hhi : sp.base + k < n) : u.settle.mem.get sp k = b := by
  have start : u.xlate a < 2 ^ 40 := Nat.mod_lt _ (Nat.two_pow_pos 40)
  have settled : u.settle.mem = u.mem.store .dram (u.xlate a) (List.replicate n b) false := by
    simp only [State.settle, hring, List.foldl_cons, List.foldl_nil]
  have inside : sp.base + k - u.xlate a < (List.replicate n b).length := by rw [List.length_replicate]; omega
  rw [settled, Mem.get_eq_get_dram, Mem.store_get, ← Nat.add_sub_of_le (Nat.le_trans (Nat.le_of_lt start) hlo),
    Mem.get_write_in _ _ _ _ hwf inside, List.getElem_replicate]

/-! ### What a SELECT keeps -/

theorem State.useScratch_keeps (s : State) (c addr n : Nat) (poison : Bool) : Keeps s (s.useScratch c addr n poison) := by
  unfold useScratch
  exact (locWrite_keeps _ _ _ _ _).trans (Keeps.onDev _ _)

theorem selectOne_keeps (p : SelectP) (x : Ctx) (raw : List Byte) (poison : Bool) (g : Group) (q : Nat) (s : State) :
    Keeps s (selectOne p x raw poison g q s).1 := by
  simp only [selectOne]
  exact ((State.useScratch_keeps s _ _ _ _).trans (State.locWrite_keeps _ _ _ _ _)).trans (Keeps.onDev _ _)

/-- The first list of a step is formed whatever BUDGET holds (R50; log entry 8). -/
theorem listUnits_one (h : Hdr) (one : State → Nat → State × Nat) (q : Nat) (s : State) : listUnits h one 1 q 0 s = ((one s q).1, q + 1) := by
  simp [listUnits]

/-! ### What leaves the fault log as it is -/

theorem State.locWrite_store_flt (s : State) (c o : Nat) (bs : List Byte) (poison : Bool) : (s.locWrite c (.store o) bs poison).dev.flt = s.dev.flt := by
  unfold locWrite
  dsimp only
  split
  · split <;> rfl
  · rfl

theorem Dev.countList_flt (d : Dev) (c : Nat) (p : Passes) (cands nans pads : Nat) (ties : Bool) :
    (d.countList c p cands nans pads ties).flt = d.flt := by
  unfold countList
  dsimp only
  split <;> rfl

theorem Dev.noteRanks_flt (d : Dev) (x : Ctx) (qord : Nat) (lists : List Nat) : (d.noteRanks x qord lists).flt = d.flt := by
  unfold noteRanks
  split
  · rfl
  · split <;> rfl

theorem Dev.selectNan_zero (d : Dev) (x : Ctx) : d.selectNan x 0 = d := rfl

/-- A step that leaves nothing over adds nothing to the sump. -/
theorem Dev.ran_none_flt (d : Dev) (x : Ctx) (p : Params) : (d.ran x p none).flt = d.flt := by
  simp only [ran, ite_self]

/-- A list in the store formed of records without a NaN raises nothing. -/
theorem selectOne_flt {p : SelectP} (x : Ctx) {raw : List Byte} (poison : Bool) {g : Group} (q : Nat) (s : State) (hout : bit p.outAddr 31 = false)
    (hnan : (g.reads.map fun (i, w) => recParse i w ((raw.drop (16 * i)).take 16)).countP (· = .nan) = 0) :
    (selectOne p x raw poison g q s).1.dev.flt = s.dev.flt := by
  simp only [selectOne, State.onDev, Dev.noteRanks_flt, hnan, Dev.selectNan_zero, Dev.countList_flt, locOf, hout, Bool.false_eq_true, if_false, Loc.plus,
    State.locWrite_store_flt, State.useScratch]

/-- A SELECT over one list of records forms that one list (R160). -/
theorem selectRecordsRun_eq_selectOne (p : SelectP) {x : Ctx} (hx : x.resume = []) (s : State) :
    let raw := (s.locRead x.c (locOf x.c p.inAddr) (16 * p.inCount)).1
    ∃ poison, selectRecordsRun p x s = ((selectOne p x raw poison ⟨fieldAt raw 14 2, (List.range p.inCount).map fun i => (i, false)⟩ 0 s).1, none) := by
  simp only [selectRecordsRun, selectLists, hx, List.headD_nil, List.length_singleton, Nat.sub_zero, listUnits_one, listEnd, Nat.zero_add, Nat.lt_irrefl,
    if_false, List.getD_cons_zero]
  exact ⟨_, rfl⟩

/-- Over records without a NaN, with its list in the store, it changes the memories and counts, and leaves the fault log as it is. -/
theorem selectRecordsRun_without_nan {p : SelectP} {x : Ctx} {s : State} (hx : x.resume = []) (hout : bit p.outAddr 31 = false)
    (hnan : ((List.range p.inCount).map fun i =>
      recParse i false (((s.locRead x.c (locOf x.c p.inAddr) (16 * p.inCount)).1.drop (16 * i)).take 16)).countP (· = .nan) = 0) :
    ∃ u, selectRecordsRun p x s = (u, none) ∧ Keeps s u ∧ u.dev.flt = s.dev.flt := by
  obtain ⟨poison, h⟩ := selectRecordsRun_eq_selectOne p hx s
  exact ⟨_, h, selectOne_keeps p x _ poison _ 0 s, selectOne_flt x poison 0 s hout ((congrArg _ List.map_map).trans hnan)⟩

end Machine

/-! ### The statement about selections -/

/-- A block right after reset, but that a record with these bytes waits for the ring. -/
def waitingRecord (bs : List Byte) : State := { dev := { flt := { ring := [(0, bs)] } }, mem := {}, pending := [] }

/-- A SELECT of the first of one record: its input stands at store offset 0, its scratch area at 16 and its list at 64. -/
def selectHdr : Hdr := ⟨0, 0, 1, 0, 0xFFFF, 0, 0, 0, 0⟩
def selectFirst : SelectP := ⟨1, 0, 1, 0, 0, 0, 64, 1, 16⟩

/-- No step is in flight: it runs in chamber 0 for epoch 0, from its first list on. -/
def selectCtx : Ctx := ⟨0, selectHdr, 0, []⟩

/-- The state in which that SELECT leaves the block before its records reach the ring. -/
def selectedFirst (bs : List Byte) : State :=
  let r := selectRecordsRun selectFirst selectCtx (waitingRecord bs)
  r.1.onDev (·.ran selectCtx (.selectRecords selectFirst) r.2)

theorem waitingRecord_accepted (bs : List Byte) :
    Accepted (waitingRecord bs) (.selectRecords 0 selectHdr selectFirst []) selectHdr (.selectRecords selectFirst) :=
  ⟨by decide, by decide, fun _ _ _ _ => rfl⟩

theorem exec_selectFirst (bs : List Byte) : exec (.selectRecords 0 selectHdr selectFirst []) (waitingRecord bs) = done (selectedFirst bs) := rfl

/-- The memories are empty, so that the record is one of zeros and holds no NaN. -/
theorem selectFirst_runs (bs : List Byte) : ∃ u, selectRecordsRun selectFirst selectCtx (waitingRecord bs) = (u, none) ∧ Keeps (waitingRecord bs) u
    ∧ u.dev.flt = (waitingRecord bs).dev.flt :=
  selectRecordsRun_without_nan rfl (by decide) (by decide : ((List.range 1).map fun i =>
    recParse i false (((List.replicate 16 0).drop (16 * i)).take 16)).countP (· = .nan) = 0)

theorem selectedFirst_wf (bs : List Byte) : (selectedFirst bs).mem.wf = true := by
  obtain ⟨u, run, kept, -⟩ := selectFirst_runs bs
  rw [selectedFirst, run]
  exact kept.wf rfl

theorem selectedFirst_ring (bs : List Byte) : (selectedFirst bs).dev.flt.ring = [(0, bs)] := by
  obtain ⟨u, run, -, flt⟩ := selectFirst_runs bs
  simp only [selectedFirst, run, State.onDev, Dev.ran_none_flt, flt]
  rfl

/-- Refutes O18: the statement asks nothing of the records that wait for the ring of the fault log, and a state may hold one of any length there. From
`waitingRecord` with a record of 2^57 bytes the command's end writes it from the strata on over the chamber's store, and with it over the list that the SELECT
has just written: its N then reads 0x01010101, above K. `Quiet`, which holds after every command, would exclude the state. -/
theorem not_selectAndMergeFormLists : ¬ Obligations.SelectAndMergeFormLists := by
  unfold Obligations.SelectAndMergeFormLists
  rintro ⟨select, -, -⟩
  let bs : List Byte := List.replicate (2 ^ 57) 1
  obtain ⟨t, ht, hn, -⟩ := select (waitingRecord bs) 0 selectHdr selectFirst [] rfl (waitingRecord_accepted bs) rfl (by decide)
  have ended : done (selectedFirst bs) = .next t := (exec_selectFirst bs).symm.trans ht
  have list : t.mem.read .store 64 48 = List.replicate 48 1 := by
    rw [← Host.Outcome.next.inj ended]
    refine Mem.read_eq_replicate fun i hi => State.settle_get_of_ring_replicate (selectedFirst_ring bs) (selectedFirst_wf bs) ?_ ?_
    · simp only [Space.base]; omega
    · simp only [Space.base]; omega
  have places : fieldAt (t.mem.read .store 64 48) 0 4 ≤ 1 := Nat.le_trans (Nat.le_of_eq hn) (Nat.min_le_left _ _)
  rw [list] at places
  exact absurd places (by decide)

end Sys2Proof
